-- ==== Sys2Proof/Word.lean ====
section
/-!
DEFINITION. The machine's word types. A register and a dictionary integer are 64-bit words (00_scope.md, "Registers";
19_dictionary.md R512); memory is bytes (01_cabinet.md R31).
-/
namespace Sys2Proof

/-- A 64-bit register (00_scope.md, "Registers"). -/
abbrev Reg := BitVec 64

/-- A byte of memory. -/
abbrev Byte := BitVec 8

end Sys2Proof
end

