-- ==== Sys2Proof/Syntax.lean ====
section
/-!
DEFINITION. The commands of the block: one constructor of `Instr` per row of spec/opcode_table.json, with the operands
the step takes, and the plain data types of those operands. The table gives the rows no bits and no operands; each
operand is what the row's rule says the step depends on and what arrives from outside the model (log entry 9).
Numbers are natural numbers; `WellFormed` bounds them.
-/
namespace Sys2Proof

/-- Who makes a register or BAR2 access: the physical function of a PCIe link, a virtual function (link, number), or
the Halyard itself (01_cabinet.md R614, 18_partitions.md R492, R494). -/
inductive Src where
  | pf (link : Nat)
  | vf (link num : Nat)
  | halyard
deriving DecidableEq, Repr, Inhabited

/-- The path of a management request (19_dictionary.md, opening; R517, R526, R530): the port with the sender's IPv6
interface identifier, the mailbox of a PCIe function, or the fabric with the sender's device address. -/
inductive MgmtPath where
  | port (iid : Nat)
  | mailbox (fn : Src)
  | fabric (addr : Nat)
deriving DecidableEq, Repr, Inhabited

/-- A request message (19_dictionary.md R527). The row that carries it fixes OP; `body` is the body's bytes. -/
structure MgmtReq where
  path    : MgmtPath
  version : Nat := 1
  reqId   : Nat := 0
  index   : Nat := 0
  sub     : Nat := 0
  part    : Nat := 0
  body    : List Nat := []
deriving DecidableEq, Repr, Inhabited

/-- A fabric packet (15_azoer.md R410). `rsvd` is the OR of the header's reserved bits; `crc` is the received CRC-32C;
`detail` is the DETAIL that a refused response carries (R411). -/
structure Packet where
  dst : Nat := 0
  src : Nat := 0
  vc : Nat := 0
  order : Bool := false
  op : Nat := 0
  aop : Nat := 0
  hopsLeft : Nat := 32
  len : Nat := 0
  flow : Nat := 0
  fseq : Nat := 0
  tag : Nat := 0
  addr : Nat := 0
  status : Nat := 0
  lease : Nat := 0
  rsvd : Nat := 0
  payload : List Nat := []
  crc : Nat := 0
  detail : Nat := 0
deriving DecidableEq, Repr, Inhabited

/-- A pennant frame as received: the 14 bytes before the CRC, and the CRC field (21_clocks_power.md R566). -/
structure PenFrame where
  bytes : List Nat := []
  crc   : Nat := 0
deriving DecidableEq, Repr, Inhabited

/-- What another member of a collective has sent for the matched COLL (16_mitre_mapping.md R438, R442, R447): its rank,
its OP, N_B, format and extents as the match check of R438 compares them, and its data. For a reduction `data` holds
the A48 codes (or FP32 codes under RFMT 1) of one partial, row-major over slot 3, `first`, `count` and `flags` its
spill header fields; for a copying OP `data` holds the bytes meant for this member. -/
structure CollArrival where
  rank : Nat := 0
  op : Nat := 0
  nb : Nat := 0
  fmt : Nat := 0
  extents : List Nat := []
  /-- FORMAT of the member's slot 0, where it is a reduction. -/
  srcFmt : Nat := 0
  first : Nat := 0
  count : Nat := 0
  flags : Nat := 0
  data : List Nat := []
  refused : Bool := false
deriving DecidableEq, Repr, Inhabited

/-- A partial that reaches a combiner (03_exact_sums.md R90): header fields of R73, A48 codes row by row, and whether it is the
last partial of its operation (R93). -/
structure Partial where
  tensorId : Nat := 0
  first : Nat := 0
  count : Nat := 1
  flags : Nat := 0
  rows : Nat := 1
  cols : Nat := 1
  originM : Nat := 0
  originN : Nat := 0
  values : List Nat := []
  last : Bool := true
deriving DecidableEq, Repr, Inhabited

/-- A picture that the video standards' decoding process yields (17_media_ingest.md R458, R464): the samples, planes in
order, row-major and unpadded, are the standards' and so arrive as an operand. `missing` lists the concealed 8 × 8 luma
blocks (x, y in block units), `ref` the first reference's samples when the picture has one, `mvs` the motion vectors, in
whole samples, of the blocks decoded correctly as (bx, by, dx, dy). -/
structure Picture where
  width : Nat := 0
  height : Nat := 0
  depth10 : Bool := false
  chroma : Nat := 0
  key : Bool := false
  samples : List Nat := []
  missing : List (Nat × Nat) := []
  ref : Option (List Nat) := none
  mvs : List (Nat × Nat × Int × Int) := []
deriving DecidableEq, Repr, Inhabited

/-- What one step of a decode context met in its bitstream (17_media_ingest.md R464 to R470). -/
inductive DecodeEvent where
  | picture (p : Picture)
  | syntaxError
  | dropped (count : Nat)
  | refused
  | endOfStream
deriving DecidableEq, Repr, Inhabited

/-- Which side of a lease a message or limit concerns (11_drawers_tiers.md R322). -/
inductive LeaseSide where
  | borrower
  | lender
deriving DecidableEq, Repr, Inhabited

/-- What a cold start finds (21_clocks_power.md R582 to R584): image checks of the two banks, benches (panel, physical)
whose self-test fails, HBM4 channels (stack, channel) that fail training, stacks and LPDDR5X groups whose training fails
as a whole, and stored user calibration values outside the firmware's limit (index, sub). -/
structure BootReport where
  activeOk : Bool := true
  otherOk : Bool := true
  failedBenches : List (Nat × Nat) := []
  failedChannels : List (Nat × Nat) := []
  failedStacks : List Nat := []
  failedGroups : List Nat := []
  badCal : List (Nat × Nat) := []
deriving DecidableEq, Repr, Inhabited

/-- A unit that can be in retention: a physical bench or a sideboard slice of a panel (11_drawers_tiers.md R306). -/
inductive RetUnit where
  | bench (b : Nat)
  | slice (k : Nat)
deriving DecidableEq, Repr, Inhabited

/-- A unit with an automatic idle state (21_clocks_power.md R576). -/
inductive IdleUnit where
  | panel (p : Nat)
  | hbmChannel (stack ch : Nat)
  | lpddrChannel (pkg ch : Nat)
deriving DecidableEq, Repr, Inhabited

/-- What closes the pennant bypass (21_clocks_power.md R574). -/
inductive BypassCause where
  | reset
  | pwrEn
  | write
  | lockLoss
deriving DecidableEq, Repr, Inhabited

/-- Which reference input (21_clocks_power.md R562). -/
inductive RefIn where
  | a
  | b
deriving DecidableEq, Repr, Inhabited

/-- Why a reference input is declared lost (21_clocks_power.md R563). `ppm100` is the offset in 0.01 ppm. -/
inductive LossCause where
  | missingEdges
  | frequency (ppm100 : Int)
  | runts
deriving DecidableEq, Repr, Inhabited

/-- What a thermal sensor reports, in m°C (22_module.md R607). -/
inductive ThermalSite where
  | panel (p : Nat)
  | hbm (stack : Nat)
deriving DecidableEq, Repr, Inhabited

/-- An operation of the IEEE 1149.1 test access port (22_module.md R602): the named instruction is loaded, one bit is
shifted through the selected register, or TRST_N is asserted. -/
inductive TapOp where
  | load (name : String)
  | shift (tdi : Bool)
  | capture
  | reset
deriving DecidableEq, Repr, Inhabited

/-- A BAR2 access (18_partitions.md R493). -/
inductive BarOp where
  | read (n : Nat)
  | write (bytes : List Nat)
deriving DecidableEq, Repr, Inhabited

/-- A DRAM channel: HBM4 (stack, channel, pseudo-channel) or LPDDR5X (package, channel) (12_hbm_lpddr.md R330, R331). -/
inductive DramChan where
  | hbm (stack ch pc : Nat)
  | lpddr (pkg ch : Nat)
deriving DecidableEq, Repr, Inhabited

/-- What a patrol read finds in a granule (12_hbm_lpddr.md R335). -/
inductive ScrubFinding where
  | clean
  | corrected
  | uncorrectable
deriving DecidableEq, Repr, Inhabited

/-- What a place of the integrity chain reports (14_integrity.md R398). Of a beat that a die link did not deliver at first (01_cabinet.md
R39; 20_faults.md R539): a retry delivers it, a spare lane replaces the bad one, or the retry fails. Beside the die links: the parity of an
Inlay encoder's input fails under an MI, or the word at a drawer or sideboard address holds an uncorrectable error. -/
inductive LaneOutcome where
  | delivered
  | repaired
  | failed
  | encoderParity (mi : Nat)
  | wordError (addr : Nat)
deriving DecidableEq, Repr, Inhabited

/-- Who asks for a tile under SHARED assignment (06_jig.md R172, R173): a panel, or one of its logical benches; and the tiles that it has
finished since it asked last. -/
structure TileAsk where
  bench : Option Nat
  finished : List Nat := []
deriving DecidableEq, Repr, Inhabited

/-- Whose beat a port collision drops (11_drawers_tiers.md R297): an MI's, or a remote write's; and whether the repeat of the beat is
dropped too. -/
structure DroppedBeat where
  mi : Option Nat := none
  again : Bool := false
  remote : Option Packet := none
deriving DecidableEq, Repr, Inhabited

/-- A read of a DRAM granule: how many bytes of its codeword are wrong, and in how many bytes the address read differs from the address
asked for (12_hbm_lpddr.md R332, R333). -/
structure GranuleRead where
  addr : Nat
  bad : Nat
  wrong : Nat
deriving DecidableEq, Repr, Inhabited

/-- Activations of one bank by a partition (12_hbm_lpddr.md R352). -/
structure Activations where
  part : Nat
  n : Nat
deriving DecidableEq, Repr, Inhabited

/-- What a spine port reports: CRC errors and retries since the last report, and what came of the beat (01_cabinet.md R38, R39). -/
structure LaneReport where
  crcErrs : Nat
  retries : Nat
  outcome : LaneOutcome
deriving DecidableEq, Repr, Inhabited

/-- The commands: one constructor per row of spec/opcode_table.json, in the table's order. `mi` is the issue number of
an MI (the number that MI_ISSUE gave it); `src` is who makes a register write and `v` the 64-bit value written; `r` is a
management request. In a decode step `jobs` counts the jobs that the parser has read since the last one, and `back` says how many jobs
before the last one read the job lies that caused what was met. -/
inductive Instr where
  -- macro-instructions whose effect the row is
  | nop (mi : Nat)
  | mm (mi : Nat)
  | mma (mi : Nat)
  | conv (mi : Nat)
  | attnFwd (mi : Nat)
  | attnBwd (mi : Nat)
  | ew (mi : Nat)
  | sfuMap (mi : Nat)
  | rowred (mi : Nat)
  | softmax (mi : Nat)
  | norm (mi : Nat)
  | move (mi : Nat)
  | mcast (mi : Nat)
  | flush (mi : Nat)
  | prefetch (mi : Nat)
  | kvAppend (mi : Nat)
  | kvFork (mi : Nat)
  | kvFree (mi : Nat)
  | cantonSelect (mi : Nat)
  | allReduce (mi : Nat) (arr : List CollArrival)
  | reduceScatter (mi : Nat) (arr : List CollArrival)
  | allGather (mi : Nat) (arr : List CollArrival)
  | allToAll (mi : Nat) (arr : List CollArrival)
  | kvPass (mi : Nat) (arr : List CollArrival)
  | permute (mi : Nat) (arr : List CollArrival)
  | gatherRetainKeep (mi : Nat) (arr : List CollArrival)
  | gatherRetainFetch (mi : Nat) (arr : List CollArrival)
  | gatherRetainDrop (mi : Nat)
  | gatherRetainDropAll (mi : Nat)
  | ledgerUpdate (mi : Nat)
  | censusRead (mi : Nat)
  | check (mi : Nat)
  | pool (mi : Nat)
  | cropResize (mi : Nat)
  | boxDecode (mi : Nat)
  | nms (mi : Nat)
  | wait (mi : Nat)
  | waitRelease (mi : Nat)
  | waitTimeout (mi : Nat)
  | signal (mi : Nat)
  | barrier (mi : Nat)
  | barrierComplete (mi : Nat)
  | barrierTimeout (mi : Nat)
  | ingestPullClaim (mi : Nat)
  | ingestPullRelease (mi : Nat)
  | ingestClaimTimeout (mi : Nat)
  | salvageMark (mi : Nat)
  -- panel controller, Jig and combiners
  | miIssue (panel q : Nat)
  | miComplete (mi : Nat)
  | eventWaitRoom (part ring : Nat)
  | combinerPartialArrival (mi : Nat) (p : Partial)
  | tileDealShared (mi panel : Nat) (ask : TileAsk)
  | damagePark (mi : Nat)
  | salvageRunEnd (part id : Nat)
  | jigQptrDoorbell (src : Src) (panel q v : Nat)
  | jigQptrResume (src : Src) (panel q v : Nat)
  | jigQptrReset (src : Src) (panel q v : Nat)
  | eringEnable (src : Src) (panel c v : Nat)
  | erptrConsumerWrite (src : Src) (panel c v : Nat)
  | contextEnable (src : Src) (offset v : Nat)
  | kvpPoolInit (src : Src) (panel n v : Nat)
  | kvpPoolReady (panel n : Nat)
  | cacheEnable (src : Src) (panel n v : Nat)
  | cacheDisable (src : Src) (panel n v : Nat)
  | cacheDisableDone (panel n : Nat)
  | cacheFillDone (panel n frameAddr : Nat)
  | mitreContextEnable (src : Src) (c v : Nat)
  | collTimeout (mi : Nat)
  -- media and ingest
  | medContextEnable (src : Src) (die c v : Nat)
  | medContextDisable (src : Src) (die c v : Nat)
  | medJobDoorbell (src : Src) (die c v : Nat)
  | medDecodePicture (die c jobs back : Nat) (ev : DecodeEvent)
  | medFrameSlotWait (die c : Nat)
  | medEncodePicture (die c : Nat) (chunks : List (List Nat)) (refused : Bool)
  | ingPipeEnable (src : Src) (n v : Nat)
  | ingReqDoorbell (src : Src) (n v : Nat)
  | ingSampleReady (n req : Nat)
  | ingSampleSkip (n req reason : Nat)
  | ingPipeStop (n req : Nat)
  | ingQstatResume (src : Src) (n v : Nat)
  -- translation, check units, retention, registers
  | prtMmuinvStart (src : Src) (v : Nat)
  | mmuInvalidationDone
  | chkStateRestore (src : Src) (offset v : Nat)
  | pwrRetWrite (src : Src) (panel v : Nat)
  | retentionEntry (panel : Nat) (u : RetUnit)
  | retentionWake (panel : Nat) (u : RetUnit)
  | retentionWakeDone (panel : Nat) (u : RetUnit) (selfTestOk : Bool)
  | registerWrite (src : Src) (addr width v : Nat)
  -- drawers and DRAM
  | drawerPortCollision (panel bench word master : Nat) (aBytes : List Nat) (beat : Nat) (bBytes : List Nat)
      (dropped : DroppedBeat)
  | regionRefusal (addr n master : Nat) (part : Option Nat) (write : Bool) (mi : Option Nat)
  | buntingParityError (panel bench beat len : Nat) (mi : Nat)
  | dramUncorrectableRead (read : GranuleRead) (mi : Option Nat)
  | dramCorrectedRead (read : GranuleRead)
  | writeDrain (ch : DramChan)
  | dramRefresh (ch : DramChan)
  | patrolScrub (addr : Nat) (f : ScrubFinding)
  | hotBankAlarm (addr : Nat) (acts : Activations)
  -- the fabric
  | flitReceive (port : Nat) (bytes : List Nat)
  | flitNak (port seq : Nat)
  | creditInit (port : Nat) (credits : List (Nat × Nat))
  | schedExit (port : Nat)
  | schedEnter (port start : Nat)
  | hello (port serial nport addr prio mserial dist : Nat)
  | helloSend (port : Nat)
  | helloTimeout (port : Nat)
  | fabricRead (port : Nat) (p : Packet)
  | readResp (port : Nat) (p : Packet)
  | fabricWrite (port : Nat) (p : Packet)
  | writeAck (port : Nat) (p : Packet)
  | atomic (port : Nat) (p : Packet)
  | atomicResp (port : Nat) (p : Packet)
  | message (port : Nat) (p : Packet)
  | messageAck (port : Nat) (p : Packet)
  | packetNak (port : Nat) (p : Packet)
  | unreachable (port : Nat) (p : Packet)
  | packetForward (port : Nat) (p : Packet)
  | packetResendTimeout (tag : Nat)
  | portTrained (port lanes : Nat) (fallback : Bool)
  | fabricLaneLoss (port lane : Nat)
  | routeShadowCopyDone
  | schedSlotBoundary
  | schedActivate
  | schedDriftExit
  | schedReentry
  -- leases
  | leaseRequest (r : MgmtReq)
  | leaseGrant (side : LeaseSide) (slot peer id base size tier notice serial : Nat)
  | leaseRefuse (side : LeaseSide) (slot peer reason : Nat)
  | leaseKeepalive (side : LeaseSide) (slot : Nat) (received : Bool)
  | leaseNotice (slot id deadline : Nat)
  | leaseRelease (side : LeaseSide) (slot : Nat)
  | leaseRevoke (r : MgmtReq)
  | leaseDeadline (side : LeaseSide) (slot : Nat)
  | leaseLivenessExpiry (side : LeaseSide) (slot : Nat)
  | scrubDone (id : Nat)
  -- the pennant line
  | penTime (f : PenFrame)
  | penTimeSend
  | arrive (f : PenFrame)
  | withdraw (f : PenFrame)
  | penRelease (f : PenFrame)
  | withdrawn (f : PenFrame)
  | measure (f : PenFrame) (residence elapsed : Nat)
  | measureSend
  | link (f : PenFrame)
  | penMasterLoss (next : Bool)
  | bypassOpen (position : Nat)
  | bypassClose (cause : BypassCause)
  -- clocks, power and module
  | refclkLoss (r : RefIn) (cause : LossCause)
  | refclkRevert
  | pclkChange (panel : Nat)
  | thermalThrottle (panel mc limit : Nat)
  | powerLimitThrottle (watts mhz : Nat)
  | thermalTrip (site : ThermalSite) (mc heldUs : Nat)
  | uvlo (mv heldUs : Nat)
  | ovp (mv heldUs : Nat)
  | ocp (ma heldUs : Nat)
  | vinApplied (mv : Nat)
  | pwrEnAssert
  | pwrEnDeassert
  | coldStart (b : BootReport)
  | forceRetainAssert
  | forceRetainDeassert
  | perstAssert (lnk : Nat)
  | perstDeassert (lnk : Nat)
  | powerStateRetain (r : MgmtReq)
  | powerStateRun (r : MgmtReq)
  | retainExitDone
  | devResetCold (r : MgmtReq)
  | devResetWarm (r : MgmtReq)
  | partitionReset (r : MgmtReq)
  | partitionIdleIdleExit (u : IdleUnit)
  | tsliceSwitch (group : Nat)
  -- management
  | mgmtRead (r : MgmtReq)
  | mgmtWrite (r : MgmtReq)
  | readStaged (r : MgmtReq)
  | readBatch (r : MgmtReq)
  | mailboxDoorbell (fn : Src) (v : Nat)
  | commitRequest (r : MgmtReq)
  | commitCheckDone
  | commitTick
  | commitAbort (r : MgmtReq)
  | sessionIdleExpiry
  | keyWrite (r : MgmtReq)
  | keyGenerate (r : MgmtReq)
  | retireBench (r : MgmtReq)
  | benchFailure (panel phys detail : Nat)
  | spareTakeover (panel phys : Nat)
  | hbmRetire (r : MgmtReq)
  | hbmChannelRetirement (stack ch : Nat) (hard : Bool)
  | hbmRetireCopyDone (stack ch : Nat)
  | spineLaneRepair (panel port : Nat) (report : LaneReport)
  | halyardEpochClose
  | halyardEpochAck
  | halyardSwitchover
  | updateChunk (r : MgmtReq)
  | updateStartFirmware (r : MgmtReq)
  | updateStartMicrocode (r : MgmtReq)
  | moduleAlertAck (r : MgmtReq)
  | penBypassWrite (r : MgmtReq)
  | telemetryEnable (r : MgmtReq)
  | telemetrySample (part k : Nat)
  | vfFlr (lnk num : Nat)
  | registerRead (src : Src) (addr width : Nat)
  | bar2Access (fn : Src) (offset : Nat) (op : BarOp)
  | fabricPortSlow (port rate : Nat)
  | refclkGood (r : RefIn)
  | runtPulse (r : RefIn)
  | powerOffHoldEnd
  | idleEntry (u : IdleUnit)
  | retainEntryDone
  | halyardLinkFailure (edge : Nat)
  | halyardStandbyReturn (selfTestOk : Bool)
  | refreshRateDoubling (ch : DramChan) (hot : Bool)
  | neighborDiscovery (target : Nat)
  | testAccessPort (op : TapOp)
deriving DecidableEq, Repr, Inhabited

end Sys2Proof
end

