-- ==== Sys2Proof/WellFormed.lean ====
section
/-!
DEFINITION. Which commands are well formed: every number lies in the range that the spec gives it. A command that is not well
formed spells no step of the part.
-/
namespace Sys2Proof

/-- A byte string. -/
def wfBytes (bs : List Nat) : Bool := bs.all (· < 256)

/-- A PCIe link has number 0 or 1, and a VF number 1 to 127 (00_scope.md R5). -/
def wfSrc : Src → Bool
  | .pf l => l < 2
  | .vf l n => l < 2 && 1 ≤ n && n < 128
  | .halyard => true

def wfPath : MgmtPath → Bool
  | .port iid => iid < 2 ^ 64
  | .mailbox .halyard => false
  | .mailbox fn => wfSrc fn
  | .fabric a => a < 2 ^ 16

/-- Header fields within their widths; a body of at most 1,032 bytes (19_dictionary.md R527). -/
def wfReq (r : MgmtReq) : Bool :=
  wfPath r.path && r.version < 256 && r.reqId < 2 ^ 32 && r.index < 2 ^ 16 && r.sub < 256 && r.part < 256 &&
  r.body.length ≤ 1032 && wfBytes r.body

/-- Header fields within the widths of 15_azoer.md R410. -/
def wfPacket (p : Packet) : Bool :=
  p.dst < 2 ^ 16 && p.src < 2 ^ 16 && p.vc < 512 && p.op < 16 && p.aop < 16 && p.hopsLeft < 256 && p.len < 2 ^ 13 && p.rsvd < 64 &&
  p.flow < 2 ^ 16 && p.fseq < 2 ^ 16 && p.tag < 2 ^ 16 && p.addr < 2 ^ 48 && p.status < 256 && p.lease < 2 ^ 32 &&
  p.crc < 2 ^ 32 && wfBytes p.payload

/-- 14 bytes and a 16-bit CRC (21_clocks_power.md R566). -/
def wfFrame (f : PenFrame) : Bool := f.bytes.length == 14 && wfBytes f.bytes && f.crc < 2 ^ 16

def wfPanel (p : Nat) : Bool := p < 16
def wfQueue (p q : Nat) : Bool := p < 16 && q < 64
def wfValue (v : Nat) : Bool := v < 2 ^ 64
def wfPort (p : Nat) : Bool := p < 12
def wfMi (mi : Nat) : Bool := 1 ≤ mi

def wfRetUnit : RetUnit → Bool
  | .bench b => b < 34
  | .slice k => k < 16

def wfIdle : IdleUnit → Bool
  | .panel p => p < 16
  | .hbmChannel st c => st < 8 && c < 32
  | .lpddrChannel p c => p < 16 && c < 4

def wfChan : DramChan → Bool
  | .hbm st c pc => st < 8 && c < 32 && pc < 2
  | .lpddr p c => p < 16 && c < 4

def wfSite : ThermalSite → Bool
  | .panel p => p < 16
  | .hbm st => st < 8

def wfPartial (p : Partial) : Bool :=
  p.tensorId < 2 ^ 32 && p.first < 2 ^ 32 && 1 ≤ p.count && p.count < 2 ^ 32 && p.flags < 256 &&
  p.rows < 2 ^ 16 && p.cols < 2 ^ 16 && p.originM < 2 ^ 32 && p.originN < 2 ^ 32 && p.values.all (· < 2 ^ 48)

def wfArrivals (l : List CollArrival) : Bool := l.length < 4096 && l.all fun a => a.rank < 4096 && a.srcFmt < 16

def wfBarOp : BarOp → Bool
  | .read n => 1 ≤ n && n ≤ 4096
  | .write bs => 1 ≤ bs.length && bs.length ≤ 4096 && wfBytes bs

def wfSide : LeaseSide → Nat → Bool
  | .borrower, slot => slot < 256
  | .lender, slot => slot < 64

def wfBoot (b : BootReport) : Bool :=
  b.failedBenches.all (fun x => x.1 < 16 && x.2 < 34) && b.failedChannels.all (fun x => x.1 < 8 && x.2 < 32) &&
  b.failedStacks.all (· < 8) && b.failedGroups.all (· < 4) &&
  b.badCal.all (fun x => 0x3900 ≤ x.1 && x.1 ≤ 0x39FF && 1 ≤ x.2 && x.2 < 128)

/-- Is a command well formed? -/
def Instr.wf : Instr → Bool
  | .nop mi | .mm mi | .mma mi | .conv mi | .attnFwd mi | .attnBwd mi | .ew mi | .sfuMap mi | .rowred mi
  | .softmax mi | .norm mi | .move mi | .mcast mi | .flush mi | .prefetch mi | .kvAppend mi | .kvFork mi
  | .kvFree mi | .cantonSelect mi | .gatherRetainDrop mi | .gatherRetainDropAll mi | .ledgerUpdate mi
  | .censusRead mi | .check mi | .pool mi | .cropResize mi | .boxDecode mi | .nms mi | .wait mi | .waitRelease mi
  | .waitTimeout mi | .signal mi | .barrier mi | .barrierComplete mi | .barrierTimeout mi | .ingestPullClaim mi
  | .ingestPullRelease mi | .ingestClaimTimeout mi | .salvageMark mi | .miComplete mi | .damagePark mi
  | .collTimeout mi => wfMi mi
  | .allReduce mi a | .reduceScatter mi a | .allGather mi a | .allToAll mi a | .kvPass mi a | .permute mi a
  | .gatherRetainKeep mi a | .gatherRetainFetch mi a => wfMi mi && wfArrivals a
  | .miIssue p q => wfQueue p q
  | .eventWaitRoom part ring => part < 256 && ring < 4
  | .combinerPartialArrival mi p => wfMi mi && wfPartial p
  | .tileDealShared mi p k => wfMi mi && wfPanel p && k.bench.all (· < 32) && k.finished.all (· < 2 ^ 48)
  | .salvageRunEnd part id => part < 256 && id < 4096
  | .jigQptrDoorbell src p q v | .jigQptrResume src p q v | .jigQptrReset src p q v => wfSrc src && wfQueue p q && wfValue v
  | .eringEnable src p c v | .erptrConsumerWrite src p c v => wfSrc src && wfQueue p c && wfValue v
  | .contextEnable src off v => wfSrc src && off < 2 ^ 32 && wfValue v
  | .kvpPoolInit src p n v => wfSrc src && wfPanel p && n < 16 && wfValue v
  | .kvpPoolReady p n => wfPanel p && n < 16
  | .cacheEnable src p n v | .cacheDisable src p n v => wfSrc src && wfPanel p && n < 8 && wfValue v
  | .cacheDisableDone p n => wfPanel p && n < 8
  | .cacheFillDone p n a => wfPanel p && n < 8 && a < 2 ^ 48
  | .mitreContextEnable src c v => wfSrc src && c < 256 && wfValue v
  | .medContextEnable src d c v | .medContextDisable src d c v | .medJobDoorbell src d c v =>
    wfSrc src && d < 2 && c < 48 && wfValue v
  | .medDecodePicture d c _ _ _ | .medFrameSlotWait d c => d < 2 && c < 32
  | .medEncodePicture d c bs _ => d < 2 && 32 ≤ c && c < 48 && bs.all wfBytes
  | .ingPipeEnable src n v | .ingReqDoorbell src n v | .ingQstatResume src n v => wfSrc src && n < 16 && wfValue v
  | .ingSampleReady n r => n < 16 && r < 2 ^ 16
  | .ingSampleSkip n r k => n < 16 && r < 2 ^ 16 && k < 256
  | .ingPipeStop n r => n < 16 && r < 2 ^ 16
  | .prtMmuinvStart src v => wfSrc src && wfValue v
  | .mmuInvalidationDone => true
  | .chkStateRestore src off v => wfSrc src && off < 2 ^ 32 && wfValue v
  | .pwrRetWrite src p v => wfSrc src && wfPanel p && wfValue v
  | .retentionEntry p u | .retentionWake p u | .retentionWakeDone p u _ => wfPanel p && wfRetUnit u
  | .registerWrite src a w v => wfSrc src && a < 2 ^ 32 && (w == 32 || w == 64) && v < 2 ^ w
  | .drawerPortCollision p b w m x beat y k =>
    wfPanel p && b < 34 && w < 2 ^ 19 && 1 ≤ m && m ≤ 5 && x.length == 8 && wfBytes x && beat < 2 ^ 22 && y.length ≤ 256 && wfBytes y &&
    k.mi.all wfMi && k.remote.all wfPacket
  | .regionRefusal a n m part _ mi => a < 2 ^ 48 && 1 ≤ n && m < 6 && part.all (· < 256) && mi.all wfMi
  | .buntingParityError p b beat len mi => wfPanel p && b < 34 && beat < 2 ^ 22 && len ≤ 256 && wfMi mi
  | .dramUncorrectableRead r mi => r.addr < 2 ^ 48 && r.bad ≤ 72 && r.wrong ≤ 6 && mi.all wfMi
  | .dramCorrectedRead r => r.addr < 2 ^ 48 && r.bad ≤ 72 && r.wrong ≤ 6
  | .patrolScrub a _ => a < 2 ^ 48
  | .writeDrain ch | .dramRefresh ch | .refreshRateDoubling ch _ => wfChan ch
  | .hotBankAlarm a k => a < 2 ^ 48 && k.part < 256 && k.n ≤ 65536
  | .flitReceive p bs => wfPort p && bs.length == 256 && wfBytes bs
  | .flitNak p seq => wfPort p && seq < 2 ^ 16
  | .creditInit p cs => wfPort p && cs.all (fun c => c.1 < 512)
  | .schedExit p | .helloSend p | .helloTimeout p => wfPort p
  | .schedEnter p start => wfPort p && wfValue start
  | .hello p sn np a pr ms d => wfPort p && wfValue sn && np < 12 && a < 2 ^ 16 && pr < 256 && wfValue ms && d < 256
  | .fabricRead p k | .readResp p k | .fabricWrite p k | .writeAck p k | .atomic p k | .atomicResp p k | .message p k
  | .messageAck p k | .packetNak p k | .unreachable p k | .packetForward p k => wfPort p && wfPacket k
  | .packetResendTimeout tag => tag < 2 ^ 16
  | .portTrained p lanes _ => wfPort p && lanes ≤ 8
  | .fabricLaneLoss p lane => wfPort p && lane < 8
  | .routeShadowCopyDone | .schedSlotBoundary | .schedActivate | .schedDriftExit | .schedReentry => true
  | .leaseRequest r | .leaseRevoke r => wfReq r
  | .leaseGrant side slot peer id _ _ tier _ _ => wfSide side slot && peer < 2 ^ 16 && id < 2 ^ 32 && (tier == 2 || tier == 3)
  | .leaseRefuse side slot peer _ => wfSide side slot && peer < 2 ^ 16
  | .leaseKeepalive side slot _ | .leaseRelease side slot | .leaseDeadline side slot | .leaseLivenessExpiry side slot =>
    wfSide side slot
  | .leaseNotice slot id d => slot < 256 && id < 2 ^ 32 && wfValue d
  | .scrubDone id => id < 2 ^ 32
  | .penTime f | .arrive f | .withdraw f | .penRelease f | .withdrawn f | .link f => wfFrame f
  | .measure f r e => wfFrame f && r < 2 ^ 32 && e < 2 ^ 32
  | .penTimeSend | .measureSend | .penMasterLoss _ | .bypassClose _ => true
  | .bypassOpen pos => pos < 64
  | .refclkLoss _ _ | .refclkRevert | .refclkGood _ | .runtPulse _ => true
  | .pclkChange p => wfPanel p
  | .thermalThrottle p _ _ => wfPanel p
  | .powerLimitThrottle _ mhz => mhz ≤ 1800
  | .thermalTrip site _ _ => wfSite site
  | .uvlo _ _ | .ovp _ _ | .ocp _ _ | .vinApplied _ => true
  | .pwrEnAssert | .pwrEnDeassert | .forceRetainAssert | .forceRetainDeassert | .retainExitDone | .retainEntryDone
  | .powerOffHoldEnd => true
  | .coldStart b => wfBoot b
  | .perstAssert l | .perstDeassert l => l < 2
  | .powerStateRetain r | .powerStateRun r | .devResetCold r | .devResetWarm r | .partitionReset r => wfReq r
  | .partitionIdleIdleExit u | .idleEntry u => wfIdle u
  | .tsliceSwitch g => 1 ≤ g && g < 64
  | .mgmtRead r | .mgmtWrite r | .readStaged r | .readBatch r | .commitRequest r | .commitAbort r | .keyWrite r
  | .keyGenerate r | .retireBench r | .hbmRetire r | .updateChunk r | .updateStartFirmware r | .updateStartMicrocode r
  | .moduleAlertAck r | .penBypassWrite r | .telemetryEnable r => wfReq r
  | .mailboxDoorbell fn v => wfSrc fn && v < 2 ^ 32
  | .commitCheckDone | .commitTick | .sessionIdleExpiry | .halyardEpochClose | .halyardEpochAck | .halyardSwitchover => true
  | .benchFailure p b _ | .spareTakeover p b => wfPanel p && b < 34
  | .hbmChannelRetirement st c _ | .hbmRetireCopyDone st c => st < 8 && c < 32
  | .spineLaneRepair p port r => wfPanel p && port < 4 && r.crcErrs < 2 ^ 16 && r.retries < 2 ^ 16 &&
      (match r.outcome with | .encoderParity mi => wfMi mi | .wordError a => a < 2 ^ 48 | _ => true)
  | .telemetrySample part k => part < 256 && k < 8
  | .vfFlr l n => l < 2 && 1 ≤ n && n < 128
  | .registerRead src a w => wfSrc src && a < 2 ^ 32 && (w == 32 || w == 64)
  | .bar2Access fn off op => wfSrc fn && off < 2 ^ 36 && wfBarOp op
  | .fabricPortSlow p rate => wfPort p && rate ≤ 256
  | .halyardLinkFailure e => e == 0 || e == 2
  | .halyardStandbyReturn _ => true
  | .neighborDiscovery target => target < 2 ^ 64
  | .testAccessPort _ => true

end Sys2Proof
end

