-- ==== Sys2Proof/Decode.lean ====
section
/-!
DEFINITION. The command that a word of spec/opcode_table.json spells. The table gives none of its 214 rows any bits: the
commands are register accesses, messages, pin events and steps of the part, not encoded instructions. So no word spells a
command.
-/
namespace Sys2Proof

/-- No row of the table has bits, so every word is refused. -/
def decodeTableWord (_nbits _w : Nat) : Option Instr := none

end Sys2Proof
end

