-- ==== Sys2Proof/Config.lean ====
section
/-!
DEFINITION. What the spec leaves to an implementation, and the free values: constants with no body, so that no proof can
see what they are (log entries 2, 6, 10, 11, 12).
-/
namespace Sys2Proof.Config

/-- Free value: the result that the function unit would pick for a function (its FUNC code, 0x20 for DIV) of FP32 codes
`x` and `y`, in native (false) or S2 legacy (true) mode. 07_row_functions.md R195 and R202 bound it and do not fix it;
the meaning keeps the bound (log entry 10). -/
opaque sfuFree : Bool → Nat → Nat → Nat → Nat

/-- Free value: byte `i` of the `n`-th draw from the Halyard's random generator (12_hbm_lpddr.md R341, 18_partitions.md
R499; log entry 6). -/
opaque randomByte : Nat → Nat → Nat

/-- Free value for a datum that the spec leaves open and the machine goes on with; the first argument is the state's
counter, the second tells the uses apart (log entry 11). -/
opaque openValue : Nat → Nat → Nat

/-- The verdict of the ECDSA P-384 check under the secure-boot key, which the spec does not give (20_faults.md R556; log
entry 12). -/
opaque imageSigned : List Nat → Bool

/-- The security version that an image carries; its place in the image is not in the spec (20_faults.md R556; log entry
12). -/
opaque imageSecurityVersion : List Nat → Nat

/-- Module serial number, a factory value (19_dictionary.md R513; log entry 2). -/
opaque serial : Nat

/-- Hardware revision, a factory value (19_dictionary.md R513; log entry 2). -/
opaque hwRev : Nat

/-- The running firmware's version word (19_dictionary.md R513; log entry 2). -/
opaque fwVersion : Nat

/-- The 48-bit MAC address (19_dictionary.md R525; log entry 2). -/
opaque mac : Nat

/-- Is the S2 legacy table set present on a physical bench (panel, bench) (07_row_functions.md, SFU_CAP; log entry 2)? -/
opaque sfuLegacy : Nat → Nat → Bool

/-- Revisions of the native and legacy seed tables (07_row_functions.md, SFU_CAP; log entry 2). -/
opaque sfuNativeRev : Nat
opaque sfuLegacyRev : Nat

/-- Factory calibration, by index and subindex, as a 32-bit word (19_dictionary.md R515; log entry 2). -/
opaque factoryCal : Nat → Nat → Nat

/-- Mirdazor's manufacturer code in IDCODE bits 11:1 (22_module.md R602; log entry 2). -/
opaque jtagMaker : Nat

/-- The boundary-scan cell captured at a position; the pins' levels are outside the model (22_module.md R602; log entry
11). -/
opaque boundaryCell : Nat → Bool

/-- The device-physical address at offset 0 of a physical function's BAR2, by link. The OWNER sets it; no object of the spec holds it
(18_partitions.md R493; log entry 2). -/
opaque pfBar2Base : Nat → Nat

end Sys2Proof.Config
end

