-- ==== Sys2Proof/Machine/Bits.lean ====
section
/-!
DEFINITION. Bit fields and byte order over natural numbers: FIELD[hi:lo] with bit 0 the least significant
(00_scope.md, "Numbers and units") and little-endian multi-byte values (00_scope.md R7).
-/
namespace Sys2Proof.Machine

/-- FIELD[hi:lo] of `x`. -/
def bits (x hi lo : Nat) : Nat := (x >>> lo) % 2 ^ (hi + 1 - lo)

/-- Bit `i` of `x`. -/
def bit (x i : Nat) : Bool := (x >>> i) % 2 == 1

/-- `x` with FIELD[hi:lo] set to `v`. -/
def setBits (x hi lo v : Nat) : Nat :=
  x - (bits x hi lo) <<< lo + (v % 2 ^ (hi + 1 - lo)) <<< lo

/-- The value of a little-endian byte string (R7). -/
def leVal : List Nat → Nat
  | [] => 0
  | b :: bs => b % 256 + 256 * leVal bs

/-- The `n` bytes of `x`, little-endian (R7). -/
def leBytes : Nat → Nat → List Nat
  | 0, _ => []
  | n + 1, x => x % 256 :: leBytes n (x / 256)

/-- `n` bytes of `bs` from byte `i`, as a little-endian value. -/
def leAt (bs : List Nat) (i n : Nat) : Nat := leVal ((bs.drop i).take n)

/-- Smallest multiple of `k` not below `n`. -/
def roundUp (n k : Nat) : Nat := if k == 0 then n else (n + k - 1) / k * k

/-- Ceiling of a quotient; 0 for a divisor of 0. -/
def ceilDiv (n k : Nat) : Nat := if k == 0 then 0 else (n + k - 1) / k

/-- Ceiling of log2, with 0 for 0 and 1. -/
def clog2 (n : Nat) : Nat := if n ≤ 1 then 0 else Nat.log2 (n - 1) + 1

/-- Two's-complement reading of the low `w` bits. -/
def toSigned (w x : Nat) : Int :=
  let y := x % 2 ^ w
  if y < 2 ^ (w - 1) then (y : Int) else (y : Int) - (2 ^ w : Nat)

/-- The low `w` bits of an integer. -/
def ofSigned (w : Nat) (x : Int) : Nat := (x % ((2 ^ w : Nat) : Int)).toNat

/-- Saturating addition at `2 ^ w - 1`. -/
def satAdd (w a b : Nat) : Nat := min (a + b) (2 ^ w - 1)

/-- The positions below `n` whose bit of `x` is set, ascending. -/
def setPositions (n x : Nat) : List Nat := (List.range n).filter (bit x)

/-- Parity of the bits of `x`, at most `n` of them. -/
def parity (n x : Nat) : Bool := (setPositions n x).length % 2 == 1

/-- Replace the first element that meets `p`, or append `a` when none does. -/
def upsert {α : Type} (p : α → Bool) (a : α) : List α → List α
  | [] => [a]
  | x :: xs => if p x then a :: xs else x :: upsert p a xs

end Sys2Proof.Machine
end

