-- ==== Sys2Proof/Machine/Crc.lean ====
section
/-!
DEFINITION. The CRCs of 14_integrity.md R385 and R386 and their use as running registers: a check unit keeps the register
before the final exclusive-or.
-/
namespace Sys2Proof.Machine

/-- Width of the CRC of a POLY code (R385). -/
def crcWidth : Nat → Nat
  | 0 => 32 | 1 => 32 | 2 => 64 | _ => 16

/-- The polynomial (R385). -/
def crcPoly : Nat → Nat
  | 0 => 0x1EDC6F41 | 1 => 0x04C11DB7 | 2 => 0x42F0E1EBA9EA3693 | _ => 0x1021

def crcReflected (p : Nat) : Bool := p ≤ 1

def crcInit : Nat → Nat
  | 0 => 0xFFFFFFFF | 1 => 0xFFFFFFFF | 2 => 0 | _ => 0xFFFF

def crcXorOut : Nat → Nat
  | 0 => 0xFFFFFFFF | 1 => 0xFFFFFFFF | _ => 0

/-- The low `w` bits of `x` in reverse order. -/
def reverseBits : Nat → Nat → Nat
  | 0, _ => 0
  | w + 1, x => (x % 2) <<< w + reverseBits w (x / 2)

/-- One bit into a reflected register. -/
def crcStepR (w poly r : Nat) : Nat :=
  if r % 2 == 1 then (r / 2) ^^^ reverseBits w poly else r / 2

/-- One bit into a plain register. -/
def crcStepF (w poly r : Nat) : Nat :=
  if bit r (w - 1) then ((r * 2) % 2 ^ w) ^^^ poly else (r * 2) % 2 ^ w

/-- `n` applications of a step. -/
def iter {α : Type} (f : α → α) : Nat → α → α
  | 0, a => a
  | n + 1, a => iter f n (f a)

/-- One byte into the running register of POLY `p`. -/
def crcByte (p r b : Nat) : Nat :=
  let w := crcWidth p
  if crcReflected p then iter (crcStepR w (crcPoly p)) 8 (r ^^^ (b % 256))
  else iter (crcStepF w (crcPoly p)) 8 (r ^^^ ((b % 256) <<< (w - 8)))

/-- The running register after more bytes. -/
def crcRun (p r : Nat) (bs : List Nat) : Nat := bs.foldl (crcByte p) r

/-- The check value of a byte string (R385). -/
def crc (p : Nat) (bs : List Nat) : Nat := crcRun p (crcInit p) bs ^^^ crcXorOut p

end Sys2Proof.Machine
end

