-- ==== Sys2Proof/Machine/Dict.lean ====
section
/-!
DEFINITION. The object dictionary as data (19_dictionary.md R510 to R512): every object of the spec's dictionary tables with its
index, subindex, type, length, access by role, staged mark, range and default; the calibration objects of R515 stand beside
them.
-/
namespace Sys2Proof.Machine

/-- The objects, one name per table row; `factory`, `user` and `effective` are the calibration objects of R515. -/
inductive ObjId where
  /-- 0x2030.01 partition.sr_seed (04_rounding_census_ledger.md R105). -/
  | partitionSrSeed
  /-- 0x2000.0C partition.sync_home (05_macro_instructions.md R164). -/
  | partitionSyncHome
  /-- 0x6200.01 sfu.default_mode (07_row_functions.md R205). -/
  | sfuDefaultMode
  /-- 0x5300.01 lend.enable (11_drawers_tiers.md R329). -/
  | lendEnable
  /-- 0x5300.02 lend.base (11_drawers_tiers.md R329). -/
  | lendBase
  /-- 0x5300.03 lend.size (11_drawers_tiers.md R329). -/
  | lendSize
  /-- 0x5300.04 lend.min_notice (11_drawers_tiers.md R329). -/
  | lendMinNotice
  /-- 0x5300.05 lend.liveness (11_drawers_tiers.md R329). -/
  | lendLiveness
  /-- 0x5400+s.01 lease.state (11_drawers_tiers.md R329). -/
  | leaseState
  /-- 0x5400+s.02 lease.lender (11_drawers_tiers.md R329). -/
  | leaseLender
  /-- 0x5400+s.03 lease.size (11_drawers_tiers.md R329). -/
  | leaseSize
  /-- 0x5400+s.04 lease.window (11_drawers_tiers.md R329). -/
  | leaseWindow
  /-- 0x5400+s.05 lease.partition (11_drawers_tiers.md R329). -/
  | leasePartition
  /-- 0x5400+s.06 lease.id (11_drawers_tiers.md R329). -/
  | leaseId
  /-- 0x5400+s.07 lease.deadline (11_drawers_tiers.md R329). -/
  | leaseDeadline
  /-- 0x5500+s.01 lent.state (11_drawers_tiers.md R329). -/
  | lentState
  /-- 0x5500+s.02 lent.borrower (11_drawers_tiers.md R329). -/
  | lentBorrower
  /-- 0x5500+s.03 lent.base (11_drawers_tiers.md R329). -/
  | lentBase
  /-- 0x5500+s.04 lent.size (11_drawers_tiers.md R329). -/
  | lentSize
  /-- 0x5500+s.05 lent.notice (11_drawers_tiers.md R329). -/
  | lentNotice
  /-- 0x5500+s.06 lent.id (11_drawers_tiers.md R329). -/
  | lentId
  /-- 0x2040.01 partition.hash_rekey (12_hbm_lpddr.md R342). -/
  | partitionHashRekey
  /-- 0x5100.01 mem.hotbank.enable (12_hbm_lpddr.md R352). -/
  | memHotbankEnable
  /-- 0x5100.02 mem.hotbank.fraction (12_hbm_lpddr.md R352). -/
  | memHotbankFraction
  /-- 0x5100.03 mem.hotbank.count (12_hbm_lpddr.md R352). -/
  | memHotbankCount
  /-- 0x2050.01 partition.seal_version0 (13_inlay.md R376). -/
  | partitionSealVersion0
  /-- 0x2050.02 partition.seal_version1 (13_inlay.md R376). -/
  | partitionSealVersion1
  /-- 0x2050.03 partition.seal_key (13_inlay.md R376). -/
  | partitionSealKey
  /-- 0x6300.01 compute.audit.log2 (14_integrity.md R403). -/
  | computeAuditLog2
  /-- 0x6300.02 compute.audit.tiles (14_integrity.md R403). -/
  | computeAuditTiles
  /-- 0x6300.03 compute.audit.disagree (14_integrity.md R403). -/
  | computeAuditDisagree
  /-- 0x4000.01 fab.address (15_azoer.md R433). -/
  | fabAddress
  /-- 0x4000.02 fab.serial (15_azoer.md R433). -/
  | fabSerial
  /-- 0x4000.03 fab.hash_key (15_azoer.md R433). -/
  | fabHashKey
  /-- 0x4001.01 fab.manager.enable (15_azoer.md R433). -/
  | fabManagerEnable
  /-- 0x4001.02 fab.manager.priority (15_azoer.md R433). -/
  | fabManagerPriority
  /-- 0x4001.03 fab.manager.serial (15_azoer.md R433). -/
  | fabManagerSerial
  /-- 0x4010.01 fab.dim.pos_bits (15_azoer.md R433). -/
  | fabDimPosBits
  /-- 0x4010.02 fab.dim.w0 (15_azoer.md R433). -/
  | fabDimW0
  /-- 0x4010.03 fab.dim.w1 (15_azoer.md R433). -/
  | fabDimW1
  /-- 0x4010.04 fab.dim.ports (15_azoer.md R433). -/
  | fabDimPorts
  /-- 0x4010.05 fab.dim.frame_ports (15_azoer.md R433). -/
  | fabDimFramePorts
  /-- 0x4020.01 fab.adaptive.enable (15_azoer.md R433). -/
  | fabAdaptiveEnable
  /-- 0x4020.02 fab.adaptive.threshold (15_azoer.md R433). -/
  | fabAdaptiveThreshold
  /-- 0x4020.03 fab.slow.threshold (15_azoer.md R433). -/
  | fabSlowThreshold
  /-- 0x4100+b.01 fab.route.block_b (15_azoer.md R433). -/
  | fabRouteBlockB
  /-- 0x4200.01 fab.sched.enable (15_azoer.md R433). -/
  | fabSchedEnable
  /-- 0x4200.02 fab.sched.slot_len (15_azoer.md R433). -/
  | fabSchedSlotLen
  /-- 0x4200.03 fab.sched.guard (15_azoer.md R433). -/
  | fabSchedGuard
  /-- 0x4200.04 fab.sched.period (15_azoer.md R433). -/
  | fabSchedPeriod
  /-- 0x4200.05 fab.sched.origin (15_azoer.md R433). -/
  | fabSchedOrigin
  /-- 0x4200.06 fab.sched.time_err (15_azoer.md R433). -/
  | fabSchedTimeErr
  /-- 0x4200.07 fab.sched.state (15_azoer.md R433). -/
  | fabSchedState
  /-- 0x4210+p.01 fab.sched.map_p (15_azoer.md R433). -/
  | fabSchedMapP
  /-- 0x2000.01 partition.state (18_partitions.md R490). -/
  | partitionState
  /-- 0x2000.02 partition.benches (18_partitions.md R490). -/
  | partitionBenches
  /-- 0x2000.03 partition.slices (18_partitions.md R490). -/
  | partitionSlices
  /-- 0x2000.04 partition.frames (18_partitions.md R490). -/
  | partitionFrames
  /-- 0x2000.05 partition.mem_share (18_partitions.md R490). -/
  | partitionMemShare
  /-- 0x2000.06 partition.fabric_weight (18_partitions.md R490). -/
  | partitionFabricWeight
  /-- 0x2000.07 partition.mmu_root (18_partitions.md R490). -/
  | partitionMmuRoot
  /-- 0x2000.08 partition.vfs (18_partitions.md R490). -/
  | partitionVfs
  /-- 0x2000.09 partition.aperture (18_partitions.md R490). -/
  | partitionAperture
  /-- 0xA000.01 key.slot0_xts (18_partitions.md R499). -/
  | keySlot0Xts
  /-- 0xA000.02 key.slot0_tag (18_partitions.md R499). -/
  | keySlot0Tag
  /-- 0xA000.03 key.slot1_xts (18_partitions.md R499). -/
  | keySlot1Xts
  /-- 0xA000.04 key.slot1_tag (18_partitions.md R499). -/
  | keySlot1Tag
  /-- 0xA000.05 key.generate (18_partitions.md R499). -/
  | keyGenerate
  /-- 0x2010.01 partition.tslice.group (18_partitions.md R501). -/
  | partitionTsliceGroup
  /-- 0x2010.02 partition.tslice.quantum (18_partitions.md R501). -/
  | partitionTsliceQuantum
  /-- 0x2010.03 partition.tslice.save (18_partitions.md R501). -/
  | partitionTsliceSave
  /-- 0x2010.04 partition.tslice.save_sbd (18_partitions.md R501). -/
  | partitionTsliceSaveSbd
  /-- 0x1000.01 id.product (19_dictionary.md R513). -/
  | idProduct
  /-- 0x1000.02 id.device (19_dictionary.md R513). -/
  | idDevice
  /-- 0x1000.03 id.hw_rev (19_dictionary.md R513). -/
  | idHwRev
  /-- 0x1000.04 id.fw_version (19_dictionary.md R513). -/
  | idFwVersion
  /-- 0x1000.05 id.serial (19_dictionary.md R513). -/
  | idSerial
  /-- 0x1010.01 cap.panels (19_dictionary.md R513). -/
  | capPanels
  /-- 0x1010.02 cap.benches (19_dictionary.md R513). -/
  | capBenches
  /-- 0x1010.03 cap.spares (19_dictionary.md R513). -/
  | capSpares
  /-- 0x1010.04 cap.hbm_channels (19_dictionary.md R513). -/
  | capHbmChannels
  /-- 0x1010.05 cap.lpddr (19_dictionary.md R513). -/
  | capLpddr
  /-- 0x1010.06 cap.fabric_ports (19_dictionary.md R513). -/
  | capFabricPorts
  /-- 0x1010.07 cap.edge_units (19_dictionary.md R513). -/
  | capEdgeUnits
  /-- 0x1010.08 cap.media (19_dictionary.md R513). -/
  | capMedia
  /-- 0x1010.09 cap.sfu_legacy (19_dictionary.md R513). -/
  | capSfuLegacy
  /-- 0x9000.01 commit.seq (19_dictionary.md R519). -/
  | commitSeq
  /-- 0x9000.02 commit.outcome (19_dictionary.md R519). -/
  | commitOutcome
  /-- 0x9000.03 commit.tick (19_dictionary.md R519). -/
  | commitTick
  /-- 0x9000.04 commit.detail (19_dictionary.md R519). -/
  | commitDetail
  /-- 0x9000.05 commit.abort (19_dictionary.md R519). -/
  | commitAbort
  /-- 0x9000.06 commit.session (19_dictionary.md R519). -/
  | commitSession
  /-- 0x9000.07 commit.applied_at (19_dictionary.md R519). -/
  | commitAppliedAt
  /-- 0x1800.01 mgmt.mac (19_dictionary.md R525). -/
  | mgmtMac
  /-- 0x1800.02 mgmt.plca.node_id (19_dictionary.md R525). -/
  | mgmtPlcaNodeId
  /-- 0x1800.03 mgmt.plca.node_count (19_dictionary.md R525). -/
  | mgmtPlcaNodeCount
  /-- 0x1800.04 mgmt.plca.to_timer (19_dictionary.md R525). -/
  | mgmtPlcaToTimer
  /-- 0x1800.05 mgmt.plca.burst_count (19_dictionary.md R525). -/
  | mgmtPlcaBurstCount
  /-- 0x1800.06 mgmt.plca.burst_timer (19_dictionary.md R525). -/
  | mgmtPlcaBurstTimer
  /-- 0x1800.07 mgmt.udp_port (19_dictionary.md R525). -/
  | mgmtUdpPort
  /-- 0x8F00+s.01 telem.enable (19_dictionary.md R534). -/
  | telemEnable
  /-- 0x8F00+s.02 telem.ring (19_dictionary.md R534). -/
  | telemRing
  /-- 0x8F00+s.03 telem.ring_log2 (19_dictionary.md R534). -/
  | telemRingLog2
  /-- 0x8F00+s.04 telem.period (19_dictionary.md R534). -/
  | telemPeriod
  /-- 0x8F00+s.05 telem.objects (19_dictionary.md R534). -/
  | telemObjects
  /-- 0x8000.01 fault.seq (20_faults.md R538). -/
  | faultSeq
  /-- 0x8000.02 fault.select (20_faults.md R538). -/
  | faultSelect
  /-- 0x8000.03 fault.record (20_faults.md R538). -/
  | faultRecord
  /-- 0x8000.04 fault.ring (20_faults.md R538). -/
  | faultRing
  /-- 0x8000.05 fault.ring_log2 (20_faults.md R538). -/
  | faultRingLog2
  /-- 0x6000.01 compute.retire_bench (20_faults.md R545). -/
  | computeRetireBench
  /-- 0x6010+p.01 compute.spare_map_p (20_faults.md R545). -/
  | computeSpareMapP
  /-- 0x6010+p.02 compute.bench_state_p (20_faults.md R545). -/
  | computeBenchStateP
  /-- 0x5120.01 mem.hbm.spare_frames (20_faults.md R546). -/
  | memHbmSpareFrames
  /-- 0x5120.02 mem.hbm.retired (20_faults.md R546). -/
  | memHbmRetired
  /-- 0x5120.03 mem.hbm.retire (20_faults.md R546). -/
  | memHbmRetire
  /-- 0x8100.01 update.offset (20_faults.md R556). -/
  | updateOffset
  /-- 0x8100.02 update.chunk (20_faults.md R556). -/
  | updateChunk
  /-- 0x8100.03 update.start (20_faults.md R556). -/
  | updateStart
  /-- 0x8100.04 update.panels (20_faults.md R556). -/
  | updatePanels
  /-- 0x8100.05 update.state (20_faults.md R556). -/
  | updateState
  /-- 0x3000.01 clk.ref_pref (21_clocks_power.md R585). -/
  | clkRefPref
  /-- 0x3000.02 clk.revert (21_clocks_power.md R585). -/
  | clkRevert
  /-- 0x3010+p.01 clk.pclk_mhz_p (21_clocks_power.md R585). -/
  | clkPclkMhzP
  /-- 0x3100.01 pen.master.enable (21_clocks_power.md R585). -/
  | penMasterEnable
  /-- 0x3100.02 pen.master.priority (21_clocks_power.md R585). -/
  | penMasterPriority
  /-- 0x3100.03 pen.link_trim (21_clocks_power.md R585). -/
  | penLinkTrim
  /-- 0x3100.04 pen.asym_allow (21_clocks_power.md R585). -/
  | penAsymAllow
  /-- 0x3100.05 pen.bypass (21_clocks_power.md R585). -/
  | penBypass
  /-- 0x3100.06 pen.position (21_clocks_power.md R585). -/
  | penPosition
  /-- 0x3200.01 power.state (21_clocks_power.md R585). -/
  | powerState
  /-- 0x3200.02 dev.reset (21_clocks_power.md R585). -/
  | devReset
  /-- 0x3200.03 dev.state (21_clocks_power.md R585). -/
  | devState
  /-- 0x2000.0A partition.reset (21_clocks_power.md R585). -/
  | partitionReset
  /-- 0x2000.0B partition.pen_group (21_clocks_power.md R585). -/
  | partitionPenGroup
  /-- 0x3200.04 power.limit_w (22_module.md R610). -/
  | powerLimitW
  /-- 0x3200.05 power.input_w (22_module.md R610). -/
  | powerInputW
  /-- 0x3200.06 power.input_mv (22_module.md R610). -/
  | powerInputMv
  /-- 0x3200.07 power.last_off (22_module.md R610). -/
  | powerLastOff
  /-- 0x3200.08 module.alert_ack (22_module.md R610). -/
  | moduleAlertAck
  /-- 0x3300.01 thermal.coolant_in_mc (22_module.md R610). -/
  | thermalCoolantInMc
  /-- 0x3300.02 thermal.coolant_out_mc (22_module.md R610). -/
  | thermalCoolantOutMc
  /-- 0x3300.03 thermal.panel_max_mc (22_module.md R610). -/
  | thermalPanelMaxMc
  /-- 0x3300.04 thermal.hbm_max_mc (22_module.md R610). -/
  | thermalHbmMaxMc
  /-- 0x3400.01 debug.jtag (22_module.md R610). -/
  | debugJtag
  /-- 0x3800 to 0x38FF (19_dictionary.md R515). -/
  | factory
  /-- 0x3900 to 0x39FF (19_dictionary.md R515, R516). -/
  | user
  /-- Subindex + 0x80 of a user object (19_dictionary.md R515). -/
  | effective
deriving DecidableEq, Repr, Inhabited

/-- The roles of R15, in the order of the access column. -/
inductive Role where
  | owner | host | tenant | peer | internal
deriving DecidableEq, Repr, Inhabited

/-- The types of R512. -/
inductive ObjType where
  | bool | u8 | u16 | u32 | u64 | i32 | f32 | enum | str | octets | time
deriving DecidableEq, Repr, Inhabited

/-- An object instance: the object, its number in an index family (or subindex in a calibration object), its partition. -/
structure ObjAddr where
  id : ObjId
  i : Nat := 0
  part : Nat := 0
deriving DecidableEq, Repr, Inhabited

/-- A row of a dictionary table. `read` and `write` list the roles with access. `len` is the length in bytes, or the
largest one where `varLen` is set. `lo`, `hi` and `step` bound an unsigned value; `codes` are the codes of an ENUM. -/
structure ObjRow where
  id : ObjId
  index : Nat
  count : Nat
  sub : Nat
  type : ObjType
  len : Nat
  varLen : Bool
  read : List Role
  write : List Role
  staged : Bool
  perPart : Bool
  lo : Nat
  hi : Nat
  step : Nat
  codes : List Nat
deriving Repr, Inhabited

def objRows0 : List ObjRow := [
  ⟨.partitionSrSeed, 0x2030, 1, 1, .u64, 8, false, [.owner, .host, .tenant, .internal], [.owner, .host, .tenant], false, true, 0, 18446744073709551615, 1, []⟩,
  ⟨.partitionSyncHome, 0x2000, 1, 12, .u8, 1, false, [.owner, .host, .tenant, .internal], [], false, true, 0, 255, 1, []⟩,
  ⟨.sfuDefaultMode, 0x6200, 1, 1, .enum, 1, false, [.owner, .host, .tenant, .internal], [.owner, .host, .tenant], false, true, 0, 255, 1, [0, 1]⟩,
  ⟨.lendEnable, 0x5300, 1, 1, .bool, 1, false, [.owner, .host, .peer, .internal], [.owner], true, false, 0, 255, 1, []⟩,
  ⟨.lendBase, 0x5300, 1, 2, .u64, 8, false, [.owner, .host, .internal], [.owner], true, false, 0, 18446744073709551615, 2097152, []⟩,
  ⟨.lendSize, 0x5300, 1, 3, .u64, 8, false, [.owner, .host, .internal], [.owner], true, false, 0, 18446744073709551615, 2097152, []⟩,
  ⟨.lendMinNotice, 0x5300, 1, 4, .time, 8, false, [.owner, .host, .peer, .internal], [.owner], false, false, 0, 18446744073709551615, 1, []⟩,
  ⟨.lendLiveness, 0x5300, 1, 5, .time, 8, false, [.owner, .host, .peer, .internal], [.owner], false, false, 300000000, 60000000000, 1, []⟩,
  ⟨.leaseState, 0x5400, 256, 1, .enum, 1, false, [.owner, .host, .tenant, .internal], [.owner, .host], false, false, 0, 255, 1, [0, 1, 2, 3, 4, 5, 6, 7]⟩,
  ⟨.leaseLender, 0x5400, 256, 2, .u16, 2, false, [.owner, .host, .tenant, .internal], [.owner, .host], false, false, 0, 65535, 1, []⟩,
  ⟨.leaseSize, 0x5400, 256, 3, .u64, 8, false, [.owner, .host, .tenant, .internal], [.owner, .host], false, false, 0, 18446744073709551615, 2097152, []⟩,
  ⟨.leaseWindow, 0x5400, 256, 4, .u64, 8, false, [.owner, .host, .tenant, .internal], [.owner, .host], false, false, 0, 18446744073709551615, 2097152, []⟩,
  ⟨.leasePartition, 0x5400, 256, 5, .u8, 1, false, [.owner, .host, .internal], [.owner, .host], false, false, 0, 255, 1, []⟩,
  ⟨.leaseId, 0x5400, 256, 6, .u32, 4, false, [.owner, .host, .tenant, .internal], [], false, false, 0, 4294967295, 1, []⟩,
  ⟨.leaseDeadline, 0x5400, 256, 7, .time, 8, false, [.owner, .host, .tenant, .internal], [], false, false, 0, 18446744073709551615, 1, []⟩,
  ⟨.lentState, 0x5500, 64, 1, .enum, 1, false, [.owner, .host, .internal], [.owner], false, false, 0, 255, 1, [0, 3, 4, 5, 8, 9]⟩,
  ⟨.lentBorrower, 0x5500, 64, 2, .u16, 2, false, [.owner, .host, .internal], [], false, false, 0, 65535, 1, []⟩,
  ⟨.lentBase, 0x5500, 64, 3, .u64, 8, false, [.owner, .host, .internal], [], false, false, 0, 18446744073709551615, 1, []⟩,
  ⟨.lentSize, 0x5500, 64, 4, .u64, 8, false, [.owner, .host, .internal], [], false, false, 0, 18446744073709551615, 1, []⟩,
  ⟨.lentNotice, 0x5500, 64, 5, .time, 8, false, [.owner, .host, .internal], [], false, false, 0, 18446744073709551615, 1, []⟩,
  ⟨.lentId, 0x5500, 64, 6, .u32, 4, false, [.owner, .host, .internal], [], false, false, 0, 4294967295, 1, []⟩,
  ⟨.partitionHashRekey, 0x2040, 1, 1, .bool, 1, false, [.owner, .host, .internal], [.owner, .host], false, true, 0, 255, 1, []⟩,
  ⟨.memHotbankEnable, 0x5100, 1, 1, .bool, 1, false, [.owner, .host, .internal], [.owner], false, false, 0, 255, 1, []⟩,
  ⟨.memHotbankFraction, 0x5100, 1, 2, .u8, 1, false, [.owner, .host, .internal], [.owner], false, false, 1, 255, 1, []⟩,
  ⟨.memHotbankCount, 0x5100, 1, 3, .u32, 4, false, [.owner, .host, .internal], [], false, false, 0, 4294967295, 1, []⟩,
  ⟨.partitionSealVersion0, 0x2050, 1, 1, .u32, 4, false, [.owner, .host, .tenant, .internal], [], false, true, 0, 4294967295, 1, []⟩,
  ⟨.partitionSealVersion1, 0x2050, 1, 2, .u32, 4, false, [.owner, .host, .tenant, .internal], [], false, true, 0, 4294967295, 1, []⟩,
  ⟨.partitionSealKey, 0x2050, 1, 3, .enum, 1, false, [.owner, .host, .internal], [.owner, .host], false, true, 0, 255, 1, [0, 1]⟩,
  ⟨.computeAuditLog2, 0x6300, 1, 1, .u8, 1, false, [.owner, .host, .tenant, .internal], [.owner, .host, .tenant], false, true, 0, 16, 1, []⟩,
  ⟨.computeAuditTiles, 0x6300, 1, 2, .u64, 8, false, [.owner, .host, .tenant, .internal], [], false, true, 0, 18446744073709551615, 1, []⟩]

def objRows1 : List ObjRow := [
  ⟨.computeAuditDisagree, 0x6300, 1, 3, .u32, 4, false, [.owner, .host, .tenant, .internal], [], false, true, 0, 4294967295, 1, []⟩,
  ⟨.fabAddress, 0x4000, 1, 1, .u16, 2, false, [.owner, .host, .tenant, .peer, .internal], [.owner, .peer], true, false, 0, 65535, 1, []⟩,
  ⟨.fabSerial, 0x4000, 1, 2, .u64, 8, false, [.owner, .host, .tenant, .peer, .internal], [], false, false, 0, 18446744073709551615, 1, []⟩,
  ⟨.fabHashKey, 0x4000, 1, 3, .u64, 8, false, [.internal], [.owner, .peer], true, false, 0, 18446744073709551615, 1, []⟩,
  ⟨.fabManagerEnable, 0x4001, 1, 1, .bool, 1, false, [.owner, .host, .peer, .internal], [.owner], false, false, 0, 255, 1, []⟩,
  ⟨.fabManagerPriority, 0x4001, 1, 2, .u8, 1, false, [.owner, .host, .peer, .internal], [.owner], false, false, 0, 255, 1, []⟩,
  ⟨.fabManagerSerial, 0x4001, 1, 3, .u64, 8, false, [.owner, .host, .tenant, .peer, .internal], [], false, false, 0, 18446744073709551615, 1, []⟩,
  ⟨.fabDimPosBits, 0x4010, 1, 1, .u8, 1, false, [.owner, .host, .peer, .internal], [.owner, .peer], true, false, 0, 4, 1, []⟩,
  ⟨.fabDimW0, 0x4010, 1, 2, .u8, 1, false, [.owner, .host, .peer, .internal], [.owner, .peer], true, false, 0, 255, 1, []⟩,
  ⟨.fabDimW1, 0x4010, 1, 3, .u8, 1, false, [.owner, .host, .peer, .internal], [.owner, .peer], true, false, 0, 255, 1, []⟩,
  ⟨.fabDimPorts, 0x4010, 1, 4, .octets, 4, false, [.owner, .host, .peer, .internal], [.owner, .peer], true, false, 0, 0, 1, []⟩,
  ⟨.fabDimFramePorts, 0x4010, 1, 5, .octets, 16, false, [.owner, .host, .peer, .internal], [.owner, .peer], true, false, 0, 0, 1, []⟩,
  ⟨.fabAdaptiveEnable, 0x4020, 1, 1, .bool, 1, false, [.owner, .host, .peer, .internal], [.owner, .peer], false, false, 0, 255, 1, []⟩,
  ⟨.fabAdaptiveThreshold, 0x4020, 1, 2, .u16, 2, false, [.owner, .host, .peer, .internal], [.owner, .peer], false, false, 0, 65535, 1, []⟩,
  ⟨.fabSlowThreshold, 0x4020, 1, 3, .u8, 1, false, [.owner, .host, .peer, .internal], [.owner, .peer], false, false, 0, 255, 1, []⟩,
  ⟨.fabRouteBlockB, 0x4100, 128, 1, .octets, 256, false, [.owner, .host, .peer, .internal], [.owner, .peer], true, false, 0, 0, 1, []⟩,
  ⟨.fabSchedEnable, 0x4200, 1, 1, .bool, 1, false, [.owner, .host, .peer, .internal], [.owner, .peer], true, false, 0, 255, 1, []⟩,
  ⟨.fabSchedSlotLen, 0x4200, 1, 2, .u8, 1, false, [.owner, .host, .peer, .internal], [.owner, .peer], true, false, 0, 255, 1, []⟩,
  ⟨.fabSchedGuard, 0x4200, 1, 3, .u16, 2, false, [.owner, .host, .peer, .internal], [.owner, .peer], true, false, 0, 65535, 1, []⟩,
  ⟨.fabSchedPeriod, 0x4200, 1, 4, .u16, 2, false, [.owner, .host, .peer, .internal], [.owner, .peer], true, false, 0, 65535, 1, []⟩,
  ⟨.fabSchedOrigin, 0x4200, 1, 5, .time, 8, false, [.owner, .host, .peer, .internal], [.owner, .peer], true, false, 0, 18446744073709551615, 1, []⟩,
  ⟨.fabSchedTimeErr, 0x4200, 1, 6, .u32, 4, false, [.owner, .host, .tenant, .peer, .internal], [], false, false, 0, 4294967295, 1, []⟩,
  ⟨.fabSchedState, 0x4200, 1, 7, .enum, 1, false, [.owner, .host, .tenant, .peer, .internal], [], false, false, 0, 255, 1, [0, 1, 2, 3]⟩,
  ⟨.fabSchedMapP, 0x4210, 12, 1, .octets, 32, false, [.owner, .host, .peer, .internal], [.owner, .peer], true, false, 0, 0, 1, []⟩,
  ⟨.partitionState, 0x2000, 1, 1, .enum, 1, false, [.owner, .host, .tenant, .internal], [.owner, .host], true, true, 0, 255, 1, [0, 1, 2]⟩,
  ⟨.partitionBenches, 0x2000, 1, 2, .octets, 32, false, [.owner, .host, .tenant, .internal], [.owner, .host], true, true, 0, 0, 1, []⟩,
  ⟨.partitionSlices, 0x2000, 1, 3, .octets, 32, false, [.owner, .host, .tenant, .internal], [.owner, .host], true, true, 0, 0, 1, []⟩,
  ⟨.partitionFrames, 0x2000, 1, 4, .octets, 512, true, [.owner, .host, .tenant, .internal], [.owner, .host], true, true, 0, 0, 1, []⟩,
  ⟨.partitionMemShare, 0x2000, 1, 5, .u8, 1, false, [.owner, .host, .tenant, .internal], [.owner, .host], true, true, 0, 255, 1, []⟩,
  ⟨.partitionFabricWeight, 0x2000, 1, 6, .u8, 1, false, [.owner, .host, .tenant, .internal], [.owner, .host], true, true, 0, 255, 1, []⟩]

def objRows2 : List ObjRow := [
  ⟨.partitionMmuRoot, 0x2000, 1, 7, .u64, 8, false, [.owner, .host, .internal], [.owner, .host], true, true, 0, 18446744073709551615, 4096, []⟩,
  ⟨.partitionVfs, 0x2000, 1, 8, .octets, 4, false, [.owner, .host, .tenant, .internal], [.owner, .host], true, true, 0, 0, 1, []⟩,
  ⟨.partitionAperture, 0x2000, 1, 9, .u64, 8, false, [.owner, .host, .tenant, .internal], [.owner, .host, .tenant], false, true, 0, 18446744073709551615, 68719476736, []⟩,
  ⟨.keySlot0Xts, 0xA000, 1, 1, .octets, 64, false, [], [.owner, .host, .tenant], false, true, 0, 0, 1, []⟩,
  ⟨.keySlot0Tag, 0xA000, 1, 2, .octets, 32, false, [], [.owner, .host, .tenant], false, true, 0, 0, 1, []⟩,
  ⟨.keySlot1Xts, 0xA000, 1, 3, .octets, 64, false, [], [.owner, .host, .tenant], false, true, 0, 0, 1, []⟩,
  ⟨.keySlot1Tag, 0xA000, 1, 4, .octets, 32, false, [], [.owner, .host, .tenant], false, true, 0, 0, 1, []⟩,
  ⟨.keyGenerate, 0xA000, 1, 5, .enum, 1, false, [], [.owner, .host, .tenant], false, true, 0, 255, 1, [1, 2]⟩,
  ⟨.partitionTsliceGroup, 0x2010, 1, 1, .u8, 1, false, [.owner, .host, .tenant, .internal], [.owner, .host], true, true, 0, 63, 1, []⟩,
  ⟨.partitionTsliceQuantum, 0x2010, 1, 2, .time, 8, false, [.owner, .host, .tenant, .internal], [.owner, .host], true, true, 1000000, 100000000, 1, []⟩,
  ⟨.partitionTsliceSave, 0x2010, 1, 3, .u64, 8, false, [.owner, .host, .tenant, .internal], [.owner, .host], true, true, 0, 18446744073709551615, 1, []⟩,
  ⟨.partitionTsliceSaveSbd, 0x2010, 1, 4, .u16, 2, false, [.owner, .host, .tenant, .internal], [.owner, .host], true, true, 0, 65535, 1, []⟩,
  ⟨.idProduct, 0x1000, 1, 1, .str, 6, true, [.owner, .host, .tenant, .peer, .internal], [], false, false, 0, 0, 1, []⟩,
  ⟨.idDevice, 0x1000, 1, 2, .u16, 2, false, [.owner, .host, .tenant, .peer, .internal], [], false, false, 0, 65535, 1, []⟩,
  ⟨.idHwRev, 0x1000, 1, 3, .u8, 1, false, [.owner, .host, .tenant, .peer, .internal], [], false, false, 0, 255, 1, []⟩,
  ⟨.idFwVersion, 0x1000, 1, 4, .u32, 4, false, [.owner, .host, .tenant, .peer, .internal], [], false, false, 0, 4294967295, 1, []⟩,
  ⟨.idSerial, 0x1000, 1, 5, .u64, 8, false, [.owner, .host, .tenant, .peer, .internal], [], false, false, 0, 18446744073709551615, 1, []⟩,
  ⟨.capPanels, 0x1010, 1, 1, .u16, 2, false, [.owner, .host, .tenant, .peer, .internal], [], false, false, 0, 65535, 1, []⟩,
  ⟨.capBenches, 0x1010, 1, 2, .octets, 64, false, [.owner, .host, .tenant, .internal], [], false, false, 0, 0, 1, []⟩,
  ⟨.capSpares, 0x1010, 1, 3, .octets, 16, false, [.owner, .host, .internal], [], false, false, 0, 0, 1, []⟩,
  ⟨.capHbmChannels, 0x1010, 1, 4, .octets, 32, false, [.owner, .host, .tenant, .internal], [], false, false, 0, 0, 1, []⟩,
  ⟨.capLpddr, 0x1010, 1, 5, .u16, 2, false, [.owner, .host, .tenant, .internal], [], false, false, 0, 65535, 1, []⟩,
  ⟨.capFabricPorts, 0x1010, 1, 6, .u16, 2, false, [.owner, .host, .tenant, .peer, .internal], [], false, false, 0, 65535, 1, []⟩,
  ⟨.capEdgeUnits, 0x1010, 1, 7, .u32, 4, false, [.owner, .host, .tenant, .internal], [], false, false, 0, 4294967295, 1, []⟩,
  ⟨.capMedia, 0x1010, 1, 8, .u8, 1, false, [.owner, .host, .tenant, .internal], [], false, false, 0, 255, 1, []⟩,
  ⟨.capSfuLegacy, 0x1010, 1, 9, .bool, 1, false, [.owner, .host, .tenant, .internal], [], false, false, 0, 255, 1, []⟩,
  ⟨.commitSeq, 0x9000, 1, 1, .u32, 4, false, [.owner, .host, .peer, .internal], [.owner, .host, .peer], false, false, 0, 4294967295, 1, []⟩,
  ⟨.commitOutcome, 0x9000, 1, 2, .enum, 1, false, [.owner, .host, .tenant, .peer, .internal], [], false, false, 0, 255, 1, [0, 1, 2, 3, 4, 5]⟩,
  ⟨.commitTick, 0x9000, 1, 3, .time, 8, false, [.owner, .host, .peer, .internal], [.owner, .host, .peer], false, false, 0, 18446744073709551615, 1, []⟩,
  ⟨.commitDetail, 0x9000, 1, 4, .u32, 4, false, [.owner, .host, .tenant, .peer, .internal], [], false, false, 0, 4294967295, 1, []⟩]

def objRows3 : List ObjRow := [
  ⟨.commitAbort, 0x9000, 1, 5, .bool, 1, false, [], [.owner, .host, .peer], false, false, 0, 255, 1, []⟩,
  ⟨.commitSession, 0x9000, 1, 6, .u64, 8, false, [.owner, .host, .peer, .internal], [], false, false, 0, 18446744073709551615, 1, []⟩,
  ⟨.commitAppliedAt, 0x9000, 1, 7, .time, 8, false, [.owner, .host, .tenant, .peer, .internal], [], false, false, 0, 18446744073709551615, 1, []⟩,
  ⟨.mgmtMac, 0x1800, 1, 1, .octets, 6, false, [.owner, .host, .internal], [], false, false, 0, 0, 1, []⟩,
  ⟨.mgmtPlcaNodeId, 0x1800, 1, 2, .u8, 1, false, [.owner, .host, .internal], [.owner], true, false, 0, 255, 1, []⟩,
  ⟨.mgmtPlcaNodeCount, 0x1800, 1, 3, .u8, 1, false, [.owner, .host, .internal], [.owner], true, false, 1, 255, 1, []⟩,
  ⟨.mgmtPlcaToTimer, 0x1800, 1, 4, .u8, 1, false, [.owner, .host, .internal], [.owner], true, false, 0, 255, 1, []⟩,
  ⟨.mgmtPlcaBurstCount, 0x1800, 1, 5, .u8, 1, false, [.owner, .host, .internal], [.owner], true, false, 0, 255, 1, []⟩,
  ⟨.mgmtPlcaBurstTimer, 0x1800, 1, 6, .u8, 1, false, [.owner, .host, .internal], [.owner], true, false, 0, 255, 1, []⟩,
  ⟨.mgmtUdpPort, 0x1800, 1, 7, .u16, 2, false, [.owner, .host, .internal], [.owner], true, false, 1, 65535, 1, []⟩,
  ⟨.telemEnable, 0x8F00, 8, 1, .bool, 1, false, [.owner, .host, .tenant, .internal], [.owner, .host, .tenant], false, true, 0, 255, 1, []⟩,
  ⟨.telemRing, 0x8F00, 8, 2, .u64, 8, false, [.owner, .host, .tenant, .internal], [.owner, .host, .tenant], false, true, 0, 18446744073709551615, 4096, []⟩,
  ⟨.telemRingLog2, 0x8F00, 8, 3, .u8, 1, false, [.owner, .host, .tenant, .internal], [.owner, .host, .tenant], false, true, 4, 16, 1, []⟩,
  ⟨.telemPeriod, 0x8F00, 8, 4, .time, 8, false, [.owner, .host, .tenant, .internal], [.owner, .host, .tenant], false, true, 100000, 10000000000, 1, []⟩,
  ⟨.telemObjects, 0x8F00, 8, 5, .octets, 256, true, [.owner, .host, .tenant, .internal], [.owner, .host, .tenant], false, true, 0, 0, 1, []⟩,
  ⟨.faultSeq, 0x8000, 1, 1, .u32, 4, false, [.owner, .host, .internal], [], false, false, 0, 4294967295, 1, []⟩,
  ⟨.faultSelect, 0x8000, 1, 2, .u32, 4, false, [.owner, .host, .internal], [.owner, .host], false, false, 0, 4294967295, 1, []⟩,
  ⟨.faultRecord, 0x8000, 1, 3, .octets, 64, false, [.owner, .host, .internal], [], false, false, 0, 0, 1, []⟩,
  ⟨.faultRing, 0x8000, 1, 4, .u64, 8, false, [.owner, .host, .internal], [.owner, .host], false, false, 0, 18446744073709551615, 4096, []⟩,
  ⟨.faultRingLog2, 0x8000, 1, 5, .u8, 1, false, [.owner, .host, .internal], [.owner, .host], false, false, 6, 16, 1, []⟩,
  ⟨.computeRetireBench, 0x6000, 1, 1, .u16, 2, false, [.internal], [.owner], false, false, 0, 65535, 1, []⟩,
  ⟨.computeSpareMapP, 0x6010, 16, 1, .octets, 32, false, [.owner, .host, .internal], [], false, false, 0, 0, 1, []⟩,
  ⟨.computeBenchStateP, 0x6010, 16, 2, .octets, 34, false, [.owner, .host, .internal], [], false, false, 0, 0, 1, []⟩,
  ⟨.memHbmSpareFrames, 0x5120, 1, 1, .u32, 4, false, [.owner, .host, .internal], [.owner], true, false, 0, 6400, 1, []⟩,
  ⟨.memHbmRetired, 0x5120, 1, 2, .octets, 32, false, [.owner, .host, .internal], [], false, false, 0, 0, 1, []⟩,
  ⟨.memHbmRetire, 0x5120, 1, 3, .u16, 2, false, [.internal], [.owner], false, false, 0, 65535, 1, []⟩,
  ⟨.updateOffset, 0x8100, 1, 1, .u32, 4, false, [.owner, .host, .internal], [.owner, .host], false, false, 0, 4294967295, 1, []⟩,
  ⟨.updateChunk, 0x8100, 1, 2, .octets, 1024, false, [], [.owner, .host], false, false, 0, 0, 1, []⟩,
  ⟨.updateStart, 0x8100, 1, 3, .enum, 1, false, [], [.owner, .host], false, false, 0, 255, 1, [1, 2]⟩,
  ⟨.updatePanels, 0x8100, 1, 4, .u16, 2, false, [.owner, .host, .internal], [.owner, .host], false, false, 0, 65535, 1, []⟩]

def objRows4 : List ObjRow := [
  ⟨.updateState, 0x8100, 1, 5, .enum, 1, false, [.owner, .host, .tenant, .internal], [], false, false, 0, 255, 1, [0, 1, 2, 3, 4]⟩,
  ⟨.clkRefPref, 0x3000, 1, 1, .enum, 1, false, [.owner, .host, .internal], [.owner], true, false, 0, 255, 1, [0, 1]⟩,
  ⟨.clkRevert, 0x3000, 1, 2, .bool, 1, false, [.owner, .host, .internal], [.owner], true, false, 0, 255, 1, []⟩,
  ⟨.clkPclkMhzP, 0x3010, 16, 1, .u16, 2, false, [.owner, .host, .internal], [.owner, .host], true, false, 600, 1800, 25, []⟩,
  ⟨.penMasterEnable, 0x3100, 1, 1, .bool, 1, false, [.owner, .host, .internal], [.owner], true, false, 0, 255, 1, []⟩,
  ⟨.penMasterPriority, 0x3100, 1, 2, .u8, 1, false, [.owner, .host, .internal], [.owner], true, false, 0, 255, 1, []⟩,
  ⟨.penLinkTrim, 0x3100, 1, 3, .i32, 4, false, [.owner, .host, .internal], [.owner], true, false, 0, 4294967295, 1, []⟩,
  ⟨.penAsymAllow, 0x3100, 1, 4, .u16, 2, false, [.owner, .host, .internal], [.owner], true, false, 1, 20, 1, []⟩,
  ⟨.penBypass, 0x3100, 1, 5, .enum, 1, false, [.owner, .host, .internal], [.owner], false, false, 0, 255, 1, [0, 1]⟩,
  ⟨.penPosition, 0x3100, 1, 6, .u8, 1, false, [.owner, .host, .tenant, .peer, .internal], [], false, false, 0, 255, 1, []⟩,
  ⟨.powerState, 0x3200, 1, 1, .enum, 1, false, [.owner, .host, .internal], [.owner, .host], false, false, 0, 255, 1, [0, 2]⟩,
  ⟨.devReset, 0x3200, 1, 2, .enum, 1, false, [], [.owner, .host], false, false, 0, 255, 1, [1, 2]⟩,
  ⟨.devState, 0x3200, 1, 3, .enum, 1, false, [.owner, .host, .tenant, .peer, .internal], [], false, false, 0, 255, 1, [0, 1, 2, 3, 4, 5, 6, 7, 8, 9]⟩,
  ⟨.partitionReset, 0x2000, 1, 10, .bool, 1, false, [], [.owner, .host], false, true, 0, 255, 1, []⟩,
  ⟨.partitionPenGroup, 0x2000, 1, 11, .u16, 2, false, [.owner, .host, .tenant, .internal], [.owner, .host], true, true, 0, 65535, 1, []⟩,
  ⟨.powerLimitW, 0x3200, 1, 4, .u16, 2, false, [.owner, .host, .internal], [.owner], true, false, 1200, 3200, 1, []⟩,
  ⟨.powerInputW, 0x3200, 1, 5, .u16, 2, false, [.owner, .host, .internal], [], false, false, 0, 65535, 1, []⟩,
  ⟨.powerInputMv, 0x3200, 1, 6, .u32, 4, false, [.owner, .host, .internal], [], false, false, 0, 4294967295, 1, []⟩,
  ⟨.powerLastOff, 0x3200, 1, 7, .enum, 1, false, [.owner, .host, .internal], [], false, false, 0, 255, 1, [0, 1, 2, 3, 4]⟩,
  ⟨.moduleAlertAck, 0x3200, 1, 8, .bool, 1, false, [], [.owner], false, false, 0, 255, 1, []⟩,
  ⟨.thermalCoolantInMc, 0x3300, 1, 1, .i32, 4, false, [.owner, .host, .internal], [], false, false, 0, 4294967295, 1, []⟩,
  ⟨.thermalCoolantOutMc, 0x3300, 1, 2, .i32, 4, false, [.owner, .host, .internal], [], false, false, 0, 4294967295, 1, []⟩,
  ⟨.thermalPanelMaxMc, 0x3300, 1, 3, .i32, 4, false, [.owner, .host, .internal], [], false, false, 0, 4294967295, 1, []⟩,
  ⟨.thermalHbmMaxMc, 0x3300, 1, 4, .i32, 4, false, [.owner, .host, .internal], [], false, false, 0, 4294967295, 1, []⟩,
  ⟨.debugJtag, 0x3400, 1, 1, .enum, 1, false, [.owner, .host, .internal], [.owner], true, false, 0, 255, 1, [0, 1]⟩]

/-- Every row of the dictionary tables. -/
def objRows : List ObjRow := objRows0 ++ objRows1 ++ objRows2 ++ objRows3 ++ objRows4

/-- The default of an object (the Default column). Live and factory values are computed at the read. -/
def objDefault : ObjId → List Nat
  | .partitionSrSeed => leBytes 8 0
  | .partitionSyncHome => leBytes 1 255
  | .sfuDefaultMode => leBytes 1 0
  | .lendEnable => leBytes 1 0
  | .lendBase => leBytes 8 0
  | .lendSize => leBytes 8 0
  | .lendMinNotice => leBytes 8 1000000000
  | .lendLiveness => leBytes 8 1000000000
  | .leaseState => leBytes 1 0
  | .leaseLender => leBytes 2 0
  | .leaseSize => leBytes 8 0
  | .leaseWindow => leBytes 8 0
  | .leasePartition => leBytes 1 0
  | .leaseId => leBytes 4 0
  | .leaseDeadline => leBytes 8 0
  | .lentState => leBytes 1 0
  | .lentBorrower => leBytes 2 0
  | .lentBase => leBytes 8 0
  | .lentSize => leBytes 8 0
  | .lentNotice => leBytes 8 0
  | .lentId => leBytes 4 0
  | .partitionHashRekey => leBytes 1 0
  | .memHotbankEnable => leBytes 1 1
  | .memHotbankFraction => leBytes 1 32
  | .memHotbankCount => leBytes 4 0
  | .partitionSealVersion0 => leBytes 4 1
  | .partitionSealVersion1 => leBytes 4 1
  | .partitionSealKey => leBytes 1 0
  | .computeAuditLog2 => leBytes 1 0
  | .computeAuditTiles => leBytes 8 0
  | .computeAuditDisagree => leBytes 4 0
  | .fabAddress => leBytes 2 65535
  | .fabSerial => leBytes 8 0
  | .fabHashKey => leBytes 8 0
  | .fabManagerEnable => leBytes 1 0
  | .fabManagerPriority => leBytes 1 128
  | .fabManagerSerial => leBytes 8 0
  | .fabDimPosBits => leBytes 1 3
  | .fabDimW0 => leBytes 1 0
  | .fabDimW1 => leBytes 1 0
  | .fabDimPorts => List.replicate 4 255
  | .fabDimFramePorts => List.replicate 16 255
  | .fabAdaptiveEnable => leBytes 1 1
  | .fabAdaptiveThreshold => leBytes 2 64
  | .fabSlowThreshold => leBytes 1 192
  | .fabRouteBlockB => List.replicate 256 221
  | .fabSchedEnable => leBytes 1 0
  | .fabSchedSlotLen => leBytes 1 8
  | .fabSchedGuard => leBytes 2 40
  | .fabSchedPeriod => leBytes 2 1
  | .fabSchedOrigin => leBytes 8 0
  | .fabSchedTimeErr => leBytes 4 0
  | .fabSchedState => leBytes 1 0
  | .fabSchedMapP => List.replicate 32 0
  | .partitionState => leBytes 1 0
  | .partitionBenches => List.replicate 32 0
  | .partitionSlices => List.replicate 32 0
  | .partitionFrames => []
  | .partitionMemShare => leBytes 1 0
  | .partitionFabricWeight => leBytes 1 0
  | .partitionMmuRoot => leBytes 8 0
  | .partitionVfs => List.replicate 4 0
  | .partitionAperture => leBytes 8 0
  | .keySlot0Xts => []
  | .keySlot0Tag => []
  | .keySlot1Xts => []
  | .keySlot1Tag => []
  | .keyGenerate => leBytes 1 0
  | .partitionTsliceGroup => leBytes 1 0
  | .partitionTsliceQuantum => leBytes 8 10000000
  | .partitionTsliceSave => leBytes 8 0
  | .partitionTsliceSaveSbd => leBytes 2 65535
  | .idProduct => [84, 80, 45, 57, 52, 48]
  | .idDevice => leBytes 2 2368
  | .idHwRev => leBytes 1 0
  | .idFwVersion => leBytes 4 0
  | .idSerial => leBytes 8 0
  | .capPanels => leBytes 2 0
  | .capBenches => []
  | .capSpares => []
  | .capHbmChannels => []
  | .capLpddr => leBytes 2 0
  | .capFabricPorts => leBytes 2 0
  | .capEdgeUnits => leBytes 4 0
  | .capMedia => leBytes 1 0
  | .capSfuLegacy => leBytes 1 0
  | .commitSeq => leBytes 4 0
  | .commitOutcome => leBytes 1 0
  | .commitTick => leBytes 8 0
  | .commitDetail => leBytes 4 0
  | .commitAbort => leBytes 1 0
  | .commitSession => leBytes 8 0
  | .commitAppliedAt => leBytes 8 0
  | .mgmtMac => []
  | .mgmtPlcaNodeId => leBytes 1 255
  | .mgmtPlcaNodeCount => leBytes 1 8
  | .mgmtPlcaToTimer => leBytes 1 32
  | .mgmtPlcaBurstCount => leBytes 1 0
  | .mgmtPlcaBurstTimer => leBytes 1 128
  | .mgmtUdpPort => leBytes 2 5940
  | .telemEnable => leBytes 1 0
  | .telemRing => leBytes 8 0
  | .telemRingLog2 => leBytes 1 6
  | .telemPeriod => leBytes 8 10000000
  | .telemObjects => []
  | .faultSeq => leBytes 4 0
  | .faultSelect => leBytes 4 0
  | .faultRecord => []
  | .faultRing => leBytes 8 0
  | .faultRingLog2 => leBytes 1 8
  | .computeRetireBench => leBytes 2 0
  | .computeSpareMapP => []
  | .computeBenchStateP => []
  | .memHbmSpareFrames => leBytes 4 1600
  | .memHbmRetired => []
  | .memHbmRetire => leBytes 2 0
  | .updateOffset => leBytes 4 0
  | .updateChunk => []
  | .updateStart => leBytes 1 0
  | .updatePanels => leBytes 2 65535
  | .updateState => leBytes 1 0
  | .clkRefPref => leBytes 1 0
  | .clkRevert => leBytes 1 1
  | .clkPclkMhzP => leBytes 2 1500
  | .penMasterEnable => leBytes 1 1
  | .penMasterPriority => leBytes 1 128
  | .penLinkTrim => leBytes 4 0
  | .penAsymAllow => leBytes 2 2
  | .penBypass => leBytes 1 0
  | .penPosition => leBytes 1 0
  | .powerState => leBytes 1 0
  | .devReset => leBytes 1 0
  | .devState => leBytes 1 0
  | .partitionReset => leBytes 1 0
  | .partitionPenGroup => leBytes 2 0
  | .powerLimitW => leBytes 2 3200
  | .powerInputW => leBytes 2 0
  | .powerInputMv => leBytes 4 0
  | .powerLastOff => leBytes 1 0
  | .moduleAlertAck => leBytes 1 0
  | .thermalCoolantInMc => leBytes 4 0
  | .thermalCoolantOutMc => leBytes 4 0
  | .thermalPanelMaxMc => leBytes 4 0
  | .thermalHbmMaxMc => leBytes 4 0
  | .debugJtag => leBytes 1 0
  | .factory | .user | .effective => leBytes 4 0

end Sys2Proof.Machine
end

