-- ==== Sys2Proof/Machine/RegMap.lean ====
section
/-!
DEFINITION. The register tables of the spec as data: every register with its place (01_cabinet.md R34 to R37 and each table's
heading), and its fields with access code (00_scope.md R9), weakest reset kind (R14) and reset value where the spec gives
one (log entry 1). RSVD fields are left out: they read zero and ignore writes (R12).
-/
namespace Sys2Proof.Machine

/-- The registers, one name per table. -/
inductive RegId where
  /-- MXU_BENCH_ID (01_cabinet.md R38). -/
  | mxuBenchId
  /-- FLT_SPINE_PORTn (01_cabinet.md R38). -/
  | fltSpinePort
  /-- MXU_NC_LOG0 (03_exact_sums.md R95). -/
  | mxuNcLog0
  /-- MXU_NC_LOG1 (03_exact_sums.md R95). -/
  | mxuNcLog1
  /-- CEN_CTXn (04_rounding_census_ledger.md R118). -/
  | cenCtx
  /-- CEN_SUMn (04_rounding_census_ledger.md R118). -/
  | cenSum
  /-- CEN_ORPHAN (04_rounding_census_ledger.md R118). -/
  | cenOrphan
  /-- JIG_QBASEq (05_macro_instructions.md R131). -/
  | jigQbase
  /-- JIG_QDESCq (05_macro_instructions.md R131). -/
  | jigQdesc
  /-- JIG_QCFGq (05_macro_instructions.md R131). -/
  | jigQcfg
  /-- JIG_QPTRq (05_macro_instructions.md R131). -/
  | jigQptr
  /-- JIG_ERBASEc (05_macro_instructions.md R618). -/
  | jigErbase
  /-- JIG_ERPTRc (05_macro_instructions.md R618). -/
  | jigErptr
  /-- JIG_WORK (06_jig.md R193). -/
  | jigWork
  /-- JIG_TILES (06_jig.md R193). -/
  | jigTiles
  /-- JIG_SQSTAT (06_jig.md R193). -/
  | jigSqstat
  /-- BNT_STAT (06_jig.md R193). -/
  | bntStat
  /-- BNT_PERR (06_jig.md R193). -/
  | bntPerr
  /-- SFU_STAT (07_row_functions.md R221). -/
  | sfuStat
  /-- SFU_CAP (07_row_functions.md R221). -/
  | sfuCap
  /-- KVP_PCFGn (08_attention_kv.md R254). -/
  | kvpPcfg
  /-- KVP_PBASEn (08_attention_kv.md R254). -/
  | kvpPbase
  /-- KVP_PMAPn (08_attention_kv.md R254). -/
  | kvpPmap
  /-- KVP_PCTNn (08_attention_kv.md R254). -/
  | kvpPctn
  /-- KVP_PSTATn (08_attention_kv.md R254). -/
  | kvpPstat
  /-- JIG_SALVn (10_training.md R292). -/
  | jigSalv
  /-- JIG_SALVBn (10_training.md R292). -/
  | jigSalvb
  /-- JIG_RETCFGn (10_training.md R292). -/
  | jigRetcfg
  /-- JIG_RETSTATn (10_training.md R292). -/
  | jigRetstat
  /-- JIG_RETDROPn (10_training.md R292). -/
  | jigRetdrop
  /-- DRW_RVIOL (11_drawers_tiers.md R303). -/
  | drwRviol
  /-- DRW_COLLIDE (11_drawers_tiers.md R303). -/
  | drwCollide
  /-- DRW_REGIONm_r (11_drawers_tiers.md R303). -/
  | drwRegion
  /-- SBD_SLICEk (11_drawers_tiers.md R305). -/
  | sbdSlice
  /-- PWR_RET (11_drawers_tiers.md R308). -/
  | pwrRet
  /-- PWR_RETSTAT (11_drawers_tiers.md R308). -/
  | pwrRetstat
  /-- SBD_CCFGn (11_drawers_tiers.md R316). -/
  | sbdCcfg
  /-- SBD_CWINn (11_drawers_tiers.md R316). -/
  | sbdCwin
  /-- SBD_CSTATn (11_drawers_tiers.md R316). -/
  | sbdCstat
  /-- HBM_ECCs (12_hbm_lpddr.md R352). -/
  | hbmEcc
  /-- HBM_EADDRs (12_hbm_lpddr.md R352). -/
  | hbmEaddr
  /-- HBM_HOTs (12_hbm_lpddr.md R352). -/
  | hbmHot
  /-- INL_STAT (13_inlay.md R384). -/
  | inlStat
  /-- INL_STAT2 (13_inlay.md R384). -/
  | inlStat2
  /-- INL_DMG (13_inlay.md R384). -/
  | inlDmg
  /-- INL_GSTAT (13_inlay.md R384). -/
  | inlGstat
  /-- CHK_CTLu (14_integrity.md R397). -/
  | chkCtl
  /-- CHK_STATEu (14_integrity.md R397). -/
  | chkState
  /-- CHK_CNTu (14_integrity.md R397). -/
  | chkCnt
  /-- CHK_LOGu (14_integrity.md R397). -/
  | chkLog
  /-- AZF_PSTATi (15_azoer.md R435). -/
  | azfPstat
  /-- AZF_NBRi (15_azoer.md R435). -/
  | azfNbr
  /-- AZF_PCNTi (15_azoer.md R435). -/
  | azfPcnt
  /-- AZF_PCFGi (15_azoer.md R435). -/
  | azfPcfg
  /-- AZF_RTCTL (15_azoer.md R435). -/
  | azfRtctl
  /-- AZF_SCHED (15_azoer.md R435). -/
  | azfSched
  /-- MIT_CTXc (16_mitre_mapping.md R457). -/
  | mitCtx
  /-- MIT_CTXBc (16_mitre_mapping.md R457). -/
  | mitCtxb
  /-- MIT_NC_LOG0 (16_mitre_mapping.md R457). -/
  | mitNcLog0
  /-- MIT_NC_LOG1 (16_mitre_mapping.md R457). -/
  | mitNcLog1
  /-- MIT_STAT (16_mitre_mapping.md R457). -/
  | mitStat
  /-- MED_CTXc (17_media_ingest.md R487). -/
  | medCtx
  /-- MED_CPTRc (17_media_ingest.md R487). -/
  | medCptr
  /-- MED_STAT (17_media_ingest.md R487). -/
  | medStat
  /-- ING_PIPEn (17_media_ingest.md R487). -/
  | ingPipe
  /-- ING_RPTRn (17_media_ingest.md R487). -/
  | ingRptr
  /-- ING_QSTATn (17_media_ingest.md R487). -/
  | ingQstat
  /-- ING_SKIPn (17_media_ingest.md R487). -/
  | ingSkip
  /-- PRT_MMUINV (18_partitions.md R509). -/
  | prtMmuinv
  /-- PRT_XFAULT (18_partitions.md R509). -/
  | prtXfault
  /-- PRT_VIOL (18_partitions.md R509). -/
  | prtViol
  /-- HAL_CORE (19_dictionary.md R535). -/
  | halCore
  /-- HAL_LOAD (19_dictionary.md R535). -/
  | halLoad
  /-- HAL_BOOT (19_dictionary.md R535). -/
  | halBoot
  /-- FLT_PANEL (20_faults.md R545). -/
  | fltPanel
  /-- CLK_REFSTAT (21_clocks_power.md R586). -/
  | clkRefstat
  /-- CLK_PENSTAT (21_clocks_power.md R586). -/
  | clkPenstat
  /-- CLK_PCLK (21_clocks_power.md R586). -/
  | clkPclk
  /-- LDG_CTX (04_rounding_census_ledger.md R120). -/
  | ldgCtx
  /-- JIG_COMB_NC_LOG0 (03_exact_sums.md R95). -/
  | jigCombNcLog0
  /-- JIG_COMB_NC_LOG1 (03_exact_sums.md R95). -/
  | jigCombNcLog1
  /-- LPX_ECC (12_hbm_lpddr.md R353). -/
  | lpxEcc
  /-- LPX_EADDR (12_hbm_lpddr.md R353). -/
  | lpxEaddr
  /-- LPX_HOT (12_hbm_lpddr.md R353). -/
  | lpxHot
deriving DecidableEq, Repr, Inhabited

/-- Where a register block lies (R34 to R37). -/
inductive Loc where
  | bench (p b : Nat)
  | panel (p : Nat)
  | edge (e : Nat)
  | media (m : Nat)
  | ingest
  | halyard
deriving DecidableEq, Repr, Inhabited

/-- Kinds of block. -/
inductive BlockKind where
  | bench | panel | edge | media | ingest | halyard
deriving DecidableEq, Repr, Inhabited

/-- Access codes (R9). -/
inductive Access where
  | ro | rw | w1c | w1s | wo | rc | rs
deriving DecidableEq, Repr, Inhabited

/-- Reset kinds of the Reset column (R14); `live` is the dash. -/
inductive ResetKind where
  | part | warm | cold | live
deriving DecidableEq, Repr, Inhabited

/-- One field of a register table. -/
structure FieldSpec where
  hi : Nat
  lo : Nat
  name : String
  acc : Access
  kind : ResetKind
  rst : Nat
deriving DecidableEq, Repr, Inhabited

/-- The fields of a register, from bit 0 upward. -/
def regFields : RegId → List FieldSpec
  | .mxuBenchId => [⟨5, 0, "PHYS", .ro, .cold, 0⟩, ⟨12, 8, "LOGICAL", .ro, .live, 0⟩, ⟨19, 16, "PANEL", .ro, .cold, 0⟩, ⟨26, 24, "STATE", .ro, .live, 0⟩, ⟨39, 32, "PARTITION", .ro, .live, 0⟩]
  | .fltSpinePort => [⟨0, 0, "UP", .ro, .live, 0⟩, ⟨1, 1, "CROSS", .ro, .cold, 0⟩, ⟨3, 2, "PEER_KIND", .ro, .cold, 0⟩, ⟨7, 4, "PEER_NUM", .ro, .cold, 0⟩, ⟨31, 16, "RETRY_CNT", .rc, .warm, 0⟩, ⟨47, 32, "CRC_ERR_CNT", .rc, .warm, 0⟩, ⟨63, 63, "LANE_REPAIRED", .rs, .cold, 0⟩]
  | .mxuNcLog0 => [⟨31, 0, "TENSOR_ID", .ro, .part, 0⟩, ⟨47, 32, "COUNT", .rc, .part, 0⟩, ⟨63, 63, "VALID", .w1c, .part, 0⟩]
  | .mxuNcLog1 => [⟨31, 0, "BLOCK_FIRST", .ro, .part, 0⟩, ⟨63, 32, "BLOCK_COUNT", .ro, .part, 0⟩]
  | .cenCtx => [⟨0, 0, "ENABLE", .rw, .part, 0⟩, ⟨15, 8, "PARTITION", .rw, .part, 0⟩, ⟨27, 16, "ENTRIES_M1", .rw, .part, 0⟩, ⟨45, 32, "AREA", .rw, .part, 0⟩]
  | .cenSum => [⟨0, 0, "OVF_INF", .w1c, .part, 0⟩, ⟨1, 1, "SAT", .w1c, .part, 0⟩, ⟨2, 2, "NAN_PROD", .w1c, .part, 0⟩, ⟨3, 3, "NAN_PROP", .w1c, .part, 0⟩, ⟨4, 4, "SUBN", .w1c, .part, 0⟩, ⟨5, 5, "NONCANONICAL", .w1c, .part, 0⟩, ⟨6, 6, "UNDERFLOW", .w1c, .part, 0⟩, ⟨7, 7, "DROPPED", .w1c, .part, 0⟩, ⟨23, 16, "EVENT_EN", .rw, .part, 0⟩]
  | .cenOrphan => [⟨7, 0, "PARTITION", .ro, .warm, 0⟩, ⟨47, 32, "COUNT", .rc, .warm, 0⟩, ⟨63, 63, "VALID", .w1c, .warm, 0⟩]
  | .jigQbase => [⟨47, 12, "ADDR", .rw, .part, 0⟩, ⟨51, 48, "QSIZE", .rw, .part, 0⟩]
  | .jigQdesc => [⟨47, 6, "ADDR", .rw, .part, 0⟩, ⟨63, 48, "COUNT_M1", .rw, .part, 0⟩]
  | .jigQcfg => [⟨0, 0, "ENABLE", .rw, .part, 0⟩, ⟨2, 1, "PRIO", .rw, .part, 0⟩, ⟨4, 3, "ERING", .rw, .part, 0⟩, ⟨15, 8, "PARTITION", .rw, .part, 0⟩, ⟨31, 16, "PANEL_MASK", .rw, .part, 0⟩]
  | .jigQptr => [⟨15, 0, "TAIL", .rw, .part, 0⟩, ⟨31, 16, "HEAD", .ro, .part, 0⟩, ⟨32, 32, "STOPPED", .ro, .part, 0⟩, ⟨33, 33, "RESUME", .wo, .part, 0⟩, ⟨34, 34, "RESET", .wo, .part, 0⟩, ⟨63, 48, "INFLIGHT", .ro, .part, 0⟩]
  | .jigErbase => [⟨0, 0, "ENABLE", .rw, .warm, 0⟩, ⟨1, 1, "INT_EN", .rw, .warm, 0⟩, ⟨3, 2, "RING", .rw, .warm, 0⟩, ⟨11, 4, "PARTITION", .rw, .warm, 0⟩, ⟨47, 12, "ADDR", .rw, .warm, 0⟩, ⟨51, 48, "ESIZE", .rw, .warm, 0⟩, ⟨62, 52, "MSIX", .rw, .warm, 0⟩]
  | .jigErptr => [⟨15, 0, "CONSUMER", .rw, .warm, 0⟩, ⟨31, 16, "PRODUCER", .ro, .warm, 0⟩, ⟨47, 32, "DROPPED", .rc, .warm, 0⟩, ⟨48, 48, "FULL", .ro, .live, 0⟩]
  | .jigWork => [⟨5, 0, "BASE", .rw, .part, 0⟩, ⟨14, 8, "SIZE", .rw, .part, 64⟩]
  | .jigTiles => [⟨31, 0, "STEPS", .rc, .part, 0⟩, ⟨63, 32, "SKIPPED", .rc, .part, 0⟩]
  | .jigSqstat => [⟨15, 0, "READY", .ro, .live, 0⟩, ⟨31, 16, "TAKEN", .rc, .part, 0⟩, ⟨39, 32, "WAITING", .ro, .live, 0⟩, ⟨47, 40, "OPEN_LIMIT", .ro, .live, 0⟩]
  | .bntStat => [⟨31, 0, "BEATS", .rc, .warm, 0⟩, ⟨63, 32, "MERGED", .rc, .warm, 0⟩]
  | .bntPerr => [⟨5, 0, "PHYS", .ro, .warm, 0⟩, ⟨23, 8, "COUNT", .rc, .warm, 0⟩, ⟨63, 63, "VALID", .w1c, .warm, 0⟩]
  | .sfuStat => [⟨31, 0, "RESULTS", .rc, .part, 0⟩, ⟨47, 32, "LEGACY_MIS", .rc, .part, 0⟩]
  | .sfuCap => [⟨0, 0, "LEGACY", .ro, .cold, 0⟩, ⟨15, 8, "NATIVE_REV", .ro, .cold, 0⟩, ⟨23, 16, "LEGACY_REV", .ro, .cold, 0⟩]
  | .kvpPcfg => [⟨0, 0, "ENABLE", .rw, .part, 0⟩, ⟨3, 1, "POOL", .rw, .part, 0⟩, ⟨7, 4, "FORMAT", .rw, .part, 0⟩, ⟨15, 8, "PARTITION", .rw, .part, 0⟩, ⟨19, 16, "HEAD_D32", .rw, .part, 0⟩, ⟨22, 20, "TIER", .rw, .part, 0⟩, ⟨47, 24, "PAGES_M1", .rw, .part, 0⟩]
  | .kvpPbase => [⟨47, 18, "FRAMES", .rw, .part, 0⟩]
  | .kvpPmap => [⟨47, 12, "MAP", .rw, .part, 0⟩]
  | .kvpPctn => [⟨47, 10, "CTN", .rw, .part, 0⟩]
  | .kvpPstat => [⟨23, 0, "FREE", .ro, .live, 0⟩, ⟨24, 24, "READY", .ro, .part, 0⟩, ⟨47, 32, "COW", .rc, .part, 0⟩, ⟨63, 48, "EXHAUST", .rc, .part, 0⟩]
  | .jigSalv => [⟨0, 0, "ENABLE", .rw, .part, 0⟩, ⟨15, 8, "PARTITION", .rw, .part, 0⟩, ⟨27, 16, "ENTRIES_M1", .rw, .part, 0⟩, ⟨47, 32, "RUNS", .rc, .part, 0⟩, ⟨63, 48, "FAILS", .rc, .part, 0⟩]
  | .jigSalvb => [⟨47, 6, "ADDR", .rw, .part, 0⟩]
  | .jigRetcfg => [⟨0, 0, "ENABLE", .rw, .part, 0⟩, ⟨3, 1, "POOL", .rw, .part, 0⟩, ⟨15, 8, "PARTITION", .rw, .part, 0⟩, ⟨31, 16, "PANEL_MASK", .rw, .part, 0⟩, ⟨45, 32, "AREA", .rw, .part, 0⟩, ⟨61, 48, "BUDGET", .rw, .part, 0⟩]
  | .jigRetstat => [⟨15, 0, "HITS", .rc, .part, 0⟩, ⟨31, 16, "MISSES", .rc, .part, 0⟩, ⟨47, 32, "DROPS", .rc, .part, 0⟩, ⟨61, 48, "USED", .ro, .live, 0⟩]
  | .jigRetdrop => [⟨31, 0, "KEY", .ro, .part, 0⟩, ⟨33, 32, "REASON", .ro, .part, 0⟩, ⟨63, 63, "VALID", .w1c, .part, 0⟩]
  | .drwRviol => [⟨21, 0, "ADDR", .ro, .warm, 0⟩, ⟨26, 24, "MASTER", .ro, .warm, 0⟩, ⟨27, 27, "WRITE", .ro, .warm, 0⟩, ⟨39, 32, "PARTITION", .ro, .warm, 0⟩, ⟨55, 40, "COUNT", .rc, .warm, 0⟩, ⟨63, 63, "VALID", .w1c, .warm, 0⟩]
  | .drwCollide => [⟨21, 3, "ADDR", .ro, .warm, 0⟩, ⟨26, 24, "MASTER", .ro, .warm, 0⟩, ⟨47, 32, "COUNT", .rc, .warm, 0⟩, ⟨63, 63, "VALID", .w1c, .warm, 0⟩]
  | .drwRegion => [⟨0, 0, "ENABLE", .rw, .warm, 0⟩, ⟨1, 1, "READ", .rw, .warm, 0⟩, ⟨2, 2, "WRITE", .rw, .warm, 0⟩, ⟨3, 3, "ANY", .rw, .warm, 0⟩, ⟨15, 8, "PARTITION", .rw, .warm, 0⟩, ⟨21, 16, "BASE", .rw, .warm, 0⟩, ⟨29, 24, "LIMIT", .rw, .warm, 63⟩]
  | .sbdSlice => [⟨0, 0, "VALID", .rw, .warm, 0⟩, ⟨15, 8, "PARTITION", .rw, .warm, 0⟩]
  | .pwrRet => [⟨33, 0, "BENCH", .rw, .warm, 0⟩, ⟨51, 36, "SLICE", .rw, .warm, 0⟩]
  | .pwrRetstat => [⟨33, 0, "BENCH_HELD", .ro, .live, 0⟩, ⟨51, 36, "SLICE_HELD", .ro, .live, 0⟩, ⟨63, 52, "WAKES", .rc, .warm, 0⟩]
  | .sbdCcfg => [⟨0, 0, "ENABLE", .rw, .part, 0⟩, ⟨15, 8, "PARTITION", .rw, .part, 0⟩, ⟨29, 16, "AREA", .rw, .part, 0⟩, ⟨35, 32, "FRAMES_LOG2", .rw, .part, 0⟩]
  | .sbdCwin => [⟨5, 0, "SIZE_LOG2", .rw, .part, 0⟩, ⟨47, 16, "BASE", .rw, .part, 0⟩]
  | .sbdCstat => [⟨15, 0, "HITS", .rc, .part, 0⟩, ⟨31, 16, "MISSES", .rc, .part, 0⟩, ⟨47, 32, "WRITEBACKS", .rc, .part, 0⟩, ⟨62, 48, "DIRTY", .ro, .live, 0⟩]
  | .hbmEcc => [⟨31, 0, "CORR", .rc, .warm, 0⟩, ⟨47, 32, "UNCORR", .rc, .warm, 0⟩, ⟨63, 63, "VALID", .w1c, .warm, 0⟩]
  | .hbmEaddr => [⟨39, 0, "ADDR", .ro, .warm, 0⟩, ⟨47, 40, "PARTITION", .ro, .warm, 0⟩]
  | .hbmHot => [⟨4, 0, "CHANNEL", .ro, .warm, 0⟩, ⟨5, 5, "PC", .ro, .warm, 0⟩, ⟨7, 6, "SID", .ro, .warm, 0⟩, ⟨9, 8, "BG", .ro, .warm, 0⟩, ⟨11, 10, "BANK", .ro, .warm, 0⟩, ⟨23, 16, "PARTITION", .ro, .warm, 0⟩, ⟨47, 32, "COUNT", .rc, .warm, 0⟩, ⟨63, 63, "VALID", .w1c, .warm, 0⟩]
  | .inlStat => [⟨31, 0, "ENCODED", .rc, .warm, 0⟩, ⟨63, 32, "DECODED", .rc, .warm, 0⟩]
  | .inlStat2 => [⟨15, 0, "ESCAPES", .rc, .warm, 0⟩, ⟨31, 16, "DAMAGED", .rc, .warm, 0⟩, ⟨47, 32, "REREADS", .rc, .warm, 0⟩]
  | .inlDmg => [⟨47, 0, "ADDR", .ro, .warm, 0⟩, ⟨55, 48, "PARTITION", .ro, .warm, 0⟩, ⟨59, 56, "CAUSE", .ro, .warm, 0⟩, ⟨63, 63, "VALID", .w1c, .warm, 0⟩]
  | .inlGstat => [⟨5, 0, "BUSY", .ro, .live, 0⟩, ⟨47, 16, "BLOCKS", .rc, .warm, 0⟩, ⟨63, 48, "DAMAGED", .rc, .warm, 0⟩]
  | .chkCtl => [⟨0, 0, "BOUND", .ro, .live, 0⟩, ⟨2, 1, "POLY", .rw, .part, 0⟩, ⟨15, 8, "PARTITION", .rw, .part, 0⟩, ⟨31, 16, "WDROP", .rc, .part, 0⟩, ⟨47, 32, "MISMATCH", .rc, .part, 0⟩]
  | .chkState => [⟨63, 0, "VALUE", .rw, .part, 0⟩]
  | .chkCnt => [⟨47, 0, "BYTES", .rw, .part, 0⟩]
  | .chkLog => [⟨5, 0, "PHYS", .ro, .part, 0⟩, ⟨9, 6, "PANEL", .ro, .part, 0⟩, ⟨62, 32, "TAG", .ro, .part, 0⟩, ⟨63, 63, "VALID", .w1c, .part, 0⟩]
  | .azfPstat => [⟨2, 0, "STATE", .ro, .live, 0⟩, ⟨3, 3, "NBR_VALID", .ro, .live, 0⟩, ⟨7, 4, "LANES", .ro, .live, 0⟩, ⟨8, 8, "RATE", .ro, .live, 0⟩, ⟨12, 9, "NBR_PORT", .ro, .live, 0⟩, ⟨31, 16, "NBR_ADDR", .ro, .live, 0⟩]
  | .azfNbr => [⟨63, 0, "SERIAL", .ro, .live, 0⟩]
  | .azfPcnt => [⟨31, 0, "REPLAY", .rc, .warm, 0⟩, ⟨47, 32, "E2E_ERR", .rc, .warm, 0⟩, ⟨63, 48, "GUARD_HIT", .rc, .warm, 0⟩]
  | .azfPcfg => [⟨11, 0, "GROUP", .rw, .warm, 0⟩, ⟨15, 12, "DET0", .rw, .warm, 15⟩, ⟨19, 16, "DET1", .rw, .warm, 15⟩, ⟨23, 20, "DET2", .rw, .warm, 15⟩, ⟨24, 24, "DETOUR_SLOW", .rw, .warm, 0⟩]
  | .azfRtctl => [⟨0, 0, "ACTIVE", .ro, .live, 0⟩, ⟨1, 1, "COPYING", .ro, .live, 0⟩, ⟨23, 8, "SELF", .ro, .live, 0⟩, ⟨47, 32, "SWAPS", .rc, .warm, 0⟩, ⟨63, 48, "UNREACH", .rc, .warm, 0⟩]
  | .azfSched => [⟨1, 0, "STATE", .ro, .live, 0⟩, ⟨15, 8, "SLOT", .ro, .live, 0⟩, ⟨31, 16, "TIME_ERR", .ro, .live, 0⟩, ⟨47, 32, "DRIFTS", .rc, .warm, 0⟩, ⟨63, 63, "SLOT_DRIFT", .w1c, .warm, 0⟩]
  | .mitCtx => [⟨0, 0, "ENABLE", .rw, .part, 0⟩, ⟨15, 8, "PARTITION", .rw, .part, 0⟩, ⟨27, 16, "SIZE_M1", .rw, .part, 0⟩, ⟨43, 32, "RANK", .rw, .part, 0⟩, ⟨63, 48, "TIMEOUT", .rw, .part, 0⟩]
  | .mitCtxb => [⟨47, 3, "ADDR", .rw, .part, 0⟩, ⟨63, 48, "SEQ", .ro, .part, 0⟩]
  | .mitNcLog0 => [⟨31, 0, "TENSOR_ID", .ro, .part, 0⟩, ⟨47, 32, "COUNT", .rc, .part, 0⟩, ⟨63, 63, "VALID", .w1c, .part, 0⟩]
  | .mitNcLog1 => [⟨31, 0, "BLOCK_FIRST", .ro, .part, 0⟩, ⟨63, 32, "BLOCK_COUNT", .ro, .part, 0⟩]
  | .mitStat => [⟨31, 0, "COLLS", .rc, .warm, 0⟩, ⟨47, 32, "TIMEOUTS", .rc, .warm, 0⟩]
  | .medCtx => [⟨0, 0, "ENABLE", .rw, .part, 0⟩, ⟨15, 8, "PARTITION", .rw, .part, 0⟩, ⟨57, 16, "ADDR", .rw, .part, 0⟩]
  | .medCptr => [⟨15, 0, "JOB_TAIL", .rw, .part, 0⟩, ⟨31, 16, "JOB_HEAD", .ro, .part, 0⟩, ⟨47, 32, "OUT_CONSUMER", .rw, .part, 0⟩, ⟨63, 48, "OUT_PRODUCER", .ro, .part, 0⟩]
  | .medStat => [⟨16, 0, "SYNBUF_KIB", .ro, .live, 0⟩, ⟨47, 32, "RESYNC", .rc, .warm, 0⟩, ⟨63, 48, "DROPPED", .rc, .warm, 0⟩]
  | .ingPipe => [⟨0, 0, "ENABLE", .rw, .part, 0⟩, ⟨4, 1, "WEIGHT", .rw, .part, 0⟩, ⟨15, 8, "PARTITION", .rw, .part, 0⟩, ⟨57, 16, "ADDR", .rw, .part, 0⟩]
  | .ingRptr => [⟨15, 0, "REQ_TAIL", .rw, .part, 0⟩, ⟨31, 16, "REQ_HEAD", .ro, .part, 0⟩, ⟨47, 32, "SKIP_HEAD", .ro, .part, 0⟩]
  | .ingQstat => [⟨12, 0, "READY", .ro, .live, 0⟩, ⟨28, 16, "FREE", .ro, .live, 0⟩, ⟨32, 32, "STOPPED", .ro, .part, 0⟩, ⟨33, 33, "RESUME", .wo, .part, 0⟩, ⟨34, 34, "ARMED", .ro, .part, 0⟩]
  | .ingSkip => [⟨15, 0, "SKIPPED", .rc, .part, 0⟩, ⟨31, 16, "REPLACED", .rc, .part, 0⟩, ⟨47, 32, "NOSPARE", .rc, .part, 0⟩]
  | .prtMmuinv => [⟨0, 0, "START", .wo, .warm, 0⟩, ⟨1, 1, "ALL", .rw, .warm, 0⟩, ⟨15, 8, "PARTITION", .rw, .warm, 0⟩, ⟨47, 16, "ADDR", .rw, .warm, 0⟩, ⟨63, 63, "BUSY", .ro, .live, 0⟩]
  | .prtXfault => [⟨47, 0, "ADDR", .ro, .warm, 0⟩, ⟨55, 48, "PARTITION", .ro, .warm, 0⟩, ⟨57, 56, "CAUSE", .ro, .warm, 0⟩, ⟨63, 63, "VALID", .w1c, .warm, 0⟩]
  | .prtViol => [⟨31, 0, "OFFSET", .ro, .warm, 0⟩, ⟨38, 32, "VF", .ro, .warm, 0⟩, ⟨39, 39, "LINK", .ro, .warm, 0⟩, ⟨40, 40, "WRITE", .ro, .warm, 0⟩, ⟨59, 48, "COUNT", .rc, .warm, 0⟩, ⟨63, 63, "VALID", .w1c, .warm, 0⟩]
  | .halCore => [⟨0, 0, "ACTIVE", .ro, .live, 0⟩, ⟨1, 1, "STANDBY_OK", .ro, .live, 0⟩, ⟨2, 2, "A_OUT", .ro, .live, 0⟩, ⟨3, 3, "B_OUT", .ro, .live, 0⟩, ⟨15, 8, "SWITCHOVERS", .rc, .cold, 0⟩, ⟨47, 16, "EPOCH", .ro, .live, 0⟩]
  | .halLoad => [⟨6, 0, "OWNER_DEPTH", .ro, .live, 0⟩, ⟨16, 8, "HOST_DEPTH", .ro, .live, 0⟩, ⟨39, 24, "RETRIES", .rc, .warm, 0⟩, ⟨55, 40, "RATE_LIMITED", .rc, .warm, 0⟩]
  | .halBoot => [⟨0, 0, "BANK", .ro, .live, 0⟩, ⟨1, 1, "OTHER_VALID", .ro, .live, 0⟩, ⟨15, 8, "SECURITY_VERSION", .ro, .live, 0⟩]
  | .fltPanel => [⟨1, 0, "SPARES", .ro, .live, 0⟩, ⟨13, 8, "LAST_FAILED", .ro, .cold, 0⟩, ⟨31, 16, "TAKEOVERS", .ro, .live, 0⟩, ⟨63, 63, "VALID", .w1c, .cold, 0⟩]
  | .clkRefstat => [⟨0, 0, "A_GOOD", .ro, .live, 0⟩, ⟨1, 1, "B_GOOD", .ro, .live, 0⟩, ⟨3, 2, "SOURCE", .ro, .live, 0⟩, ⟨15, 8, "A_RUNT", .rc, .warm, 0⟩, ⟨23, 16, "B_RUNT", .rc, .warm, 0⟩, ⟨31, 24, "SWITCHES", .rc, .warm, 0⟩, ⟨47, 32, "A_OFFSET", .ro, .live, 0⟩, ⟨63, 48, "B_OFFSET", .ro, .live, 0⟩]
  | .clkPenstat => [⟨0, 0, "LOCKED", .ro, .live, 0⟩, ⟨1, 1, "BYPASS_OPEN", .ro, .live, 0⟩, ⟨2, 2, "MASTER", .ro, .live, 0⟩, ⟨13, 8, "POSITION", .ro, .live, 0⟩, ⟨22, 16, "RING_SIZE", .ro, .live, 0⟩, ⟨39, 24, "TIME_ERR", .ro, .live, 0⟩, ⟨55, 40, "CRC_ERR", .rc, .warm, 0⟩, ⟨63, 63, "STEPPED", .w1c, .warm, 0⟩]
  | .clkPclk => [⟨11, 0, "MHZ", .ro, .live, 0⟩, ⟨27, 16, "TARGET", .ro, .live, 0⟩, ⟨32, 32, "THROTTLED", .ro, .live, 0⟩, ⟨63, 48, "CHANGES", .rc, .warm, 0⟩]
  | .ldgCtx => [⟨0, 0, "ENABLE", .rw, .part, 0⟩, ⟨15, 8, "PARTITION", .rw, .part, 0⟩, ⟨27, 16, "ENTRIES_M1", .rw, .part, 0⟩, ⟨45, 32, "AREA", .rw, .part, 0⟩]
  | .jigCombNcLog0 => [⟨31, 0, "TENSOR_ID", .ro, .part, 0⟩, ⟨47, 32, "COUNT", .rc, .part, 0⟩, ⟨63, 63, "VALID", .w1c, .part, 0⟩]
  | .jigCombNcLog1 => [⟨31, 0, "BLOCK_FIRST", .ro, .part, 0⟩, ⟨63, 32, "BLOCK_COUNT", .ro, .part, 0⟩]
  | .lpxEcc => [⟨31, 0, "CORR", .rc, .warm, 0⟩, ⟨47, 32, "UNCORR", .rc, .warm, 0⟩, ⟨63, 63, "VALID", .w1c, .warm, 0⟩]
  | .lpxEaddr => [⟨39, 0, "ADDR", .ro, .warm, 0⟩, ⟨47, 40, "PARTITION", .ro, .warm, 0⟩]
  | .lpxHot => [⟨3, 0, "PACKAGE", .ro, .warm, 0⟩, ⟨5, 4, "CHANNEL", .ro, .warm, 0⟩, ⟨9, 8, "BG", .ro, .warm, 0⟩, ⟨11, 10, "BANK", .ro, .warm, 0⟩, ⟨23, 16, "PARTITION", .ro, .warm, 0⟩, ⟨47, 32, "COUNT", .rc, .warm, 0⟩, ⟨63, 63, "VALID", .w1c, .warm, 0⟩]

/-- A row of the register map: a register's block, offset of index 0 in it, stride and number of indices. -/
structure RegRow where
  id : RegId
  kind : BlockKind
  off : Nat
  stride : Nat
  count : Nat
deriving DecidableEq, Repr, Inhabited

def regRows0 : List RegRow := [
  ⟨.mxuBenchId, .bench, 0x2000, 8, 1⟩,
  ⟨.fltSpinePort, .panel, 0x890100, 8, 4⟩,
  ⟨.mxuNcLog0, .bench, 0x2040, 8, 1⟩,
  ⟨.mxuNcLog1, .bench, 0x2048, 8, 1⟩,
  ⟨.cenCtx, .panel, 0x840000, 16, 16⟩,
  ⟨.cenSum, .panel, 0x840008, 16, 16⟩,
  ⟨.cenOrphan, .panel, 0x840100, 8, 1⟩,
  ⟨.jigQbase, .panel, 0x881000, 64, 64⟩,
  ⟨.jigQdesc, .panel, 0x881008, 64, 64⟩,
  ⟨.jigQcfg, .panel, 0x881010, 64, 64⟩,
  ⟨.jigQptr, .panel, 0x881018, 64, 64⟩,
  ⟨.jigErbase, .panel, 0x882000, 16, 64⟩,
  ⟨.jigErptr, .panel, 0x882008, 16, 64⟩,
  ⟨.jigWork, .bench, 0x0, 8, 1⟩,
  ⟨.jigTiles, .bench, 0x8, 8, 1⟩,
  ⟨.jigSqstat, .panel, 0x880080, 8, 1⟩,
  ⟨.bntStat, .panel, 0x810000, 8, 1⟩,
  ⟨.bntPerr, .panel, 0x810008, 8, 1⟩,
  ⟨.sfuStat, .bench, 0x6000, 8, 1⟩,
  ⟨.sfuCap, .bench, 0x6008, 8, 1⟩,
  ⟨.kvpPcfg, .panel, 0x860000, 64, 16⟩,
  ⟨.kvpPbase, .panel, 0x860008, 64, 16⟩,
  ⟨.kvpPmap, .panel, 0x860010, 64, 16⟩,
  ⟨.kvpPctn, .panel, 0x860018, 64, 16⟩]

def regRows1 : List RegRow := [
  ⟨.kvpPstat, .panel, 0x860020, 64, 16⟩,
  ⟨.jigSalv, .panel, 0x880100, 16, 16⟩,
  ⟨.jigSalvb, .panel, 0x880108, 16, 16⟩,
  ⟨.jigRetcfg, .panel, 0x880200, 32, 8⟩,
  ⟨.jigRetstat, .panel, 0x880208, 32, 8⟩,
  ⟨.jigRetdrop, .panel, 0x880210, 32, 8⟩,
  ⟨.drwRviol, .bench, 0x4000, 8, 1⟩,
  ⟨.drwCollide, .bench, 0x4008, 8, 1⟩,
  ⟨.drwRegion, .bench, 0x4100, 8, 48⟩,
  ⟨.sbdSlice, .panel, 0x800000, 8, 16⟩,
  ⟨.pwrRet, .panel, 0x8A0000, 8, 1⟩,
  ⟨.pwrRetstat, .panel, 0x8A0008, 8, 1⟩,
  ⟨.sbdCcfg, .panel, 0x800100, 32, 8⟩,
  ⟨.sbdCwin, .panel, 0x800108, 32, 8⟩,
  ⟨.sbdCstat, .panel, 0x800110, 32, 8⟩,
  ⟨.hbmEcc, .edge, 0x0, 32, 2⟩,
  ⟨.hbmEaddr, .edge, 0x8, 32, 2⟩,
  ⟨.hbmHot, .edge, 0x10, 32, 2⟩,
  ⟨.inlStat, .panel, 0x820000, 8, 1⟩,
  ⟨.inlStat2, .panel, 0x820008, 8, 1⟩,
  ⟨.inlDmg, .panel, 0x820010, 8, 1⟩,
  ⟨.inlDmg, .edge, 0x500010, 8, 1⟩,
  ⟨.inlGstat, .edge, 0x500000, 8, 1⟩,
  ⟨.chkCtl, .panel, 0x830000, 32, 4⟩]

def regRows2 : List RegRow := [
  ⟨.chkCtl, .edge, 0x400000, 32, 8⟩,
  ⟨.chkState, .panel, 0x830008, 32, 4⟩,
  ⟨.chkState, .edge, 0x400008, 32, 8⟩,
  ⟨.chkCnt, .panel, 0x830010, 32, 4⟩,
  ⟨.chkCnt, .edge, 0x400010, 32, 8⟩,
  ⟨.chkLog, .panel, 0x830018, 32, 4⟩,
  ⟨.chkLog, .edge, 0x400018, 32, 8⟩,
  ⟨.azfPstat, .edge, 0x200000, 64, 3⟩,
  ⟨.azfNbr, .edge, 0x200008, 64, 3⟩,
  ⟨.azfPcnt, .edge, 0x200010, 64, 3⟩,
  ⟨.azfPcfg, .edge, 0x200018, 64, 3⟩,
  ⟨.azfRtctl, .edge, 0x200100, 8, 1⟩,
  ⟨.azfSched, .edge, 0x200108, 8, 1⟩,
  ⟨.mitCtx, .edge, 0x300000, 16, 64⟩,
  ⟨.mitCtxb, .edge, 0x300008, 16, 64⟩,
  ⟨.mitNcLog0, .edge, 0x300800, 8, 1⟩,
  ⟨.mitNcLog1, .edge, 0x300808, 8, 1⟩,
  ⟨.mitStat, .edge, 0x300810, 8, 1⟩,
  ⟨.medCtx, .media, 0x0, 16, 48⟩,
  ⟨.medCptr, .media, 0x8, 16, 48⟩,
  ⟨.medStat, .media, 0x1000, 8, 1⟩,
  ⟨.ingPipe, .ingest, 0x0, 32, 16⟩,
  ⟨.ingRptr, .ingest, 0x8, 32, 16⟩,
  ⟨.ingQstat, .ingest, 0x10, 32, 16⟩]

def regRows3 : List RegRow := [
  ⟨.ingSkip, .ingest, 0x18, 32, 16⟩,
  ⟨.prtMmuinv, .halyard, 0x200000, 8, 1⟩,
  ⟨.prtXfault, .halyard, 0x200008, 8, 1⟩,
  ⟨.prtViol, .halyard, 0x200010, 8, 1⟩,
  ⟨.halCore, .halyard, 0x0, 8, 1⟩,
  ⟨.halLoad, .halyard, 0x8, 8, 1⟩,
  ⟨.halBoot, .halyard, 0x10, 8, 1⟩,
  ⟨.fltPanel, .panel, 0x890000, 8, 1⟩,
  ⟨.clkRefstat, .halyard, 0x210000, 8, 1⟩,
  ⟨.clkPenstat, .halyard, 0x210008, 8, 1⟩,
  ⟨.clkPclk, .panel, 0x8B0000, 8, 1⟩,
  ⟨.ldgCtx, .panel, 0x850000, 16, 16⟩,
  ⟨.jigCombNcLog0, .panel, 0x880040, 8, 1⟩,
  ⟨.jigCombNcLog1, .panel, 0x880048, 8, 1⟩,
  ⟨.lpxEcc, .edge, 0x100000, 8, 1⟩,
  ⟨.lpxEaddr, .edge, 0x100008, 8, 1⟩,
  ⟨.lpxHot, .edge, 0x100010, 8, 1⟩]

/-- The register map. -/
def regRows : List RegRow := regRows0 ++ regRows1 ++ regRows2 ++ regRows3

/-- A register instance. -/
structure RegAddr where
  id : RegId
  loc : Loc
  i : Nat := 0
deriving DecidableEq, Repr, Inhabited

/-- Offset of a block from 0x0300_0000_0000 (R34, R35). -/
def locBase : Loc → Nat
  | .bench p b => p * 0x1000000 + b * 0x10000
  | .panel p => p * 0x1000000
  | .edge e => 0x10000000 + e * 0x1000000
  | .media m => 0x20000000 + m * 0x1000000
  | .ingest => 0x28000000
  | .halyard => 0x30000000

def locKind : Loc → BlockKind
  | .bench _ _ => .bench | .panel _ => .panel | .edge _ => .edge
  | .media _ => .media | .ingest => .ingest | .halyard => .halyard

/-- The blocks that hold an offset, with the offset inside each: a bench block lies inside its panel's block. -/
def locsOf (off : Nat) : List (Loc × Nat) :=
  let o := off % 0x1000000
  let n := off / 0x1000000
  if n < 16 then
    (if o / 0x10000 < 34 then [(.bench n (o / 0x10000), o % 0x10000)] else []) ++ [(.panel n, o)]
  else if n < 20 then [(.edge (n - 16), o)]
  else if n == 0x20 || n == 0x21 then [(.media (n - 0x20), o)]
  else if n == 0x28 then [(.ingest, o)]
  else if n == 0x30 then [(.halyard, o)]
  else []

/-- Does a row hold offset `o` of a block of its kind? -/
def rowHolds (k : BlockKind) (o : Nat) (r : RegRow) : Bool :=
  r.kind == k && r.off ≤ o && (o - r.off) % r.stride == 0 && (o - r.off) / r.stride < r.count

/-- The register at a BAR0 offset; none where no table defines one (R13). -/
def regOf (off : Nat) : Option RegAddr :=
  (locsOf off).findSome? fun (l, o) =>
    (regRows.find? (rowHolds (locKind l) o)).map fun r => { id := r.id, loc := l, i := (o - r.off) / r.stride }

/-- The BAR0 offset of a register. -/
def regOffset (a : RegAddr) : Nat :=
  match regRows.find? (fun r => r.id == a.id && r.kind == locKind a.loc) with
  | some r => locBase a.loc + r.off + r.stride * a.i
  | none => 0

/-- The value that the spec gives the stored fields of a register at reset, before instance-dependent values. -/
def fieldsReset (fs : List FieldSpec) : Nat := fs.foldl (fun v f => v + f.rst <<< f.lo) 0

/-- The reset value of a register: the table's values, and 1 in ENABLE, READ, WRITE and ANY of DRW_REGION5_0
(11_drawers_tiers.md R302). -/
def regReset (a : RegAddr) : Nat :=
  fieldsReset (regFields a.id) + (if a.id == .drwRegion && a.i == 40 then 0xF else 0)

end Sys2Proof.Machine
end

