-- ==== Sys2Proof/Machine/State.lean ====
section
/-!
DEFINITION. The state of the block as plain data: the registers, the dictionary, the memories, the queues and tables that each
chapter gives the machine, and the commands that wait; and the state after reset (log entries 1 to 4).
-/
namespace Sys2Proof.Machine

/-- A step of this model never stops with a fault: the spec gives every command an effect (log entry 14). -/
inductive Fault where
  /-- Raised by nothing; it keeps the type inhabited. Safe. -/
  | none
deriving DecidableEq, Repr, Inhabited

/-- Why a command has no meaning. -/
inductive Refusal where
  /-- Raised by an arm of `exec` for a row without its meaning yet. Safe. -/
  | notModelled (mnemonic : String)
deriving DecidableEq, Repr, Inhabited

/-! What the block sends. -/

/-- What has left the block, for the world outside (log entry 15). -/
inductive Out where
  /-- The data of a register read (00_scope.md R8). -/
  | regData (src : Src) (addr width v : Nat)
  /-- The answer of a BAR2 access (18_partitions.md R493): status code and data. -/
  | barData (fn : Src) (status detail : Nat) (bytes : List Nat)
  /-- A management response (19_dictionary.md R527). -/
  | mgmt (path : MgmtPath) (bytes : List Nat)
  /-- An MSI-X vector of a PCIe function (05_macro_instructions.md R162, 19_dictionary.md R530). -/
  | msix (fn : Src) (vector : Nat)
  /-- A flit out of a fabric port: its 256 bytes (15_azoer.md R406). -/
  | flit (port : Nat) (bytes : List Nat)
  /-- A pennant frame (21_clocks_power.md R566). -/
  | pennant (bytes : List Nat)
  /-- A lease message to a peer Halyard: type name code and fields (11_drawers_tiers.md R322). -/
  | lease (peer type : Nat) (fields : List Nat)
  /-- A Neighbor Advertisement for the link-local address (19_dictionary.md R526). -/
  | neighbor (iid : Nat)
  /-- A bit on TDO (22_module.md R602). -/
  | tdo (b : Bool)
  /-- What a requester without an MI hears of its access: master, status, DETAIL, address (11_drawers_tiers.md R297, R301). -/
  | status (master status detail addr : Nat)
deriving DecidableEq, Repr, Inhabited

/-! Macro-instructions in flight. -/

/-- A condition that an MI met: status code, DETAIL and AUX (05_macro_instructions.md R152, R153). -/
structure Cond where
  status : Nat
  detail : Nat := 0
  aux : Nat := 0
deriving DecidableEq, Repr, Inhabited

/-- A tensor descriptor (05_macro_instructions.md R135) with its extents resolved (R136, R142) and `tscale` the FP32 scale
code in force (R123, R141). -/
structure Desc where
  strides : List Nat := []
  extents : List Nat := []
  base : Nat := 0
  scalePtr : Nat := 0
  format : Nat := 0
  scaling : Nat := 0
  pad : Nat := 0
  tier : Nat := 0
  bound : Nat := 0
  blockAxis : Nat := 0
  lenDim : Nat := 0
  lenEn : Bool := false
  cenEn : Bool := false
  comp : Nat := 0
  compParam : Nat := 0
  ndim : Nat := 1
  damage : Nat := 0
  tscaleSrc : Bool := false
  tensorId : Nat := 0
  tscale : Nat := 0
  cenEntry : Nat := 0
  salvageId : Nat := 0
  rsvd : Bool := false
deriving DecidableEq, Repr, Inhabited

/-- Where an MI stands between its issue and its completion. -/
inductive Phase where
  /-- Issued; its effect has not come about. -/
  | issued
  /-- It waits for something outside itself (a semaphore, a barrier, contributions, fabric answers). -/
  | waiting
  /-- It met a damaged block under policy SALVAGE or FAULT (10_training.md R277). -/
  | damaged
  /-- It is parked behind a salvage run (10_training.md R277, R280). -/
  | parked
  /-- Its effect has come about; it can complete. -/
  | executed
deriving DecidableEq, Repr, Inhabited

/-- A damaged block that an MI met (13_inlay.md R381, 10_training.md R276): operand slot, block number, slot address, DETAIL,
policy, salvage ID. -/
structure Damage where
  slot : Nat
  block : Nat
  addr : Nat
  detail : Nat
  policy : Nat
  salvage : Nat
deriving DecidableEq, Repr, Inhabited

/-- An MI between issue and completion, with every run-time input that R129 has it read once. -/
structure Flight where
  mi : Nat
  panel : Nat
  q : Nat
  slot : Nat
  part : Nat
  mask : Nat := 0
  /-- The 64 bytes of the MI word (R132). -/
  word : List Nat := []
  /-- The MI word could not be read: the event carries OPCODE 0x00 (R126). -/
  unread : Bool := false
  /-- Slots 0 to 4, then further descriptors that PARAMS name. -/
  descs : List (Option Desc) := []
  /-- Length-table entries (R144) and query-length entries (08_attention_kv.md R224, R248). -/
  lens : List Nat := []
  qlens : List Nat := []
  /-- An entry exceeded its extent: DETAIL 0x0200 (R144). -/
  lenFlag : Bool := false
  /-- The Philox key (04_rounding_census_ledger.md R104, R105). -/
  seed : Nat := 0
  /-- S2 legacy mode (07_row_functions.md R200). -/
  legacy : Bool := false
  /-- Seal key slot, version and the keys themselves (13_inlay.md R373, 18_partitions.md R500). -/
  sealKey : Nat := 0
  sealVersion : Nat := 0
  keys : List (Option (List Nat)) := []
  /-- compute.audit.log2 at issue (14_integrity.md R400, R403). -/
  audit : Nat := 0
  /-- Global time of issue; a time limit, 0 for none. -/
  time : Nat := 0
  deadline : Nat := 0
  phase : Phase := .issued
  /-- It performs no access: malformed or refused at issue (R153), or ended by a damaged block (10_training.md R276). -/
  noEffect : Bool := false
  /-- Issue itself denied it, so that no unit took it. -/
  denied : Bool := false
  /-- The CHECK that covers the MI (14_integrity.md R389). -/
  check : Option Nat := none
  conds : List Cond := []
  damages : List Damage := []
  /-- Salvage runs that it started (0) or joined (1), newest first: salvage ID and which (10_training.md R285). -/
  tried : List (Nat × Nat) := []
  /-- Bytes that arrived from a neighbour, by neighbour-window address (11_drawers_tiers.md R326). -/
  remote : List (Nat × List Nat) := []
  /-- Participating panels with their participating benches, as they stood at issue (06_jig.md R169). -/
  roster : List (Nat × List Nat) := []
  /-- Tiles dealt under SHARED: tile number, panel, logical bench (06_jig.md R172). -/
  deals : List (Nat × Nat × Nat) := []
  /-- Dealt tiles that are finished, and benches (panel, logical) that asked and found no tile (R173, R193). -/
  closed : List Nat := []
  waiters : List (Nat × Nat) := []
  /-- Output tiles written before damage was found, which a restart leaves as they are (10_training.md R277, R278). -/
  written : List Nat := []
  /-- Panel tiles dealt under SHARED: panel tile number, panel. -/
  panelDeals : List (Nat × Nat) := []
  /-- Drawer beats of this MI that port A's writes dropped: device-physical address and length (11_drawers_tiers.md R296). -/
  drops : List (Nat × Nat) := []
  /-- Census summaries that completion updates (R116, R118): panel, entry, summary bits. -/
  sums : List (Nat × Nat × Nat) := []
  /-- The salvage run whose program MI this is (10_training.md R281). -/
  run : Option Nat := none
  /-- Bytes wanted from a neighbour (address, length) and bytes to write there (address, bytes). -/
  wants : List (Nat × Nat) := []
  puts : List (Nat × List Nat) := []
  /-- Opcode-specific numbers kept from issue. -/
  data : List Nat := []
  /-- Bytes kept from issue (a Mitre sequence number's operands, a move list). -/
  bytes : List Nat := []
deriving DecidableEq, Repr, Inhabited

/-- An event record (05_macro_instructions.md R159) before the ring gives it TIME and PHASE, with the ring it goes to. -/
structure Event where
  ring : Nat
  type : Nat
  status : Nat := 0
  opcode : Nat := 0
  queue : Nat := 0
  stopped : Bool := false
  slot : Nat := 0
  panel : Nat := 0
  part : Nat := 0
  tag : Nat := 0
  detail : Nat := 0
  aux : Nat := 0
deriving DecidableEq, Repr, Inhabited

/-- A ring context's state beside its registers: PHASE and an outstanding interrupt (R160, R162). -/
structure Ring where
  panel : Nat
  c : Nat
  phase : Bool := true
  irq : Bool := false
deriving DecidableEq, Repr, Inhabited

/-- A combiner at work for an MI (03_exact_sums.md R90 to R93): the partials that have arrived, oldest first, the entries
left to complete and those already irregular. -/
structure Combiner where
  mi : Nat
  /-- Total blocks of the tree. -/
  nb : Nat
  partials : List Partial := []
  /-- For each arrival, whether it was placed canonically. -/
  canon : List Bool := []
  nonCanonical : Bool := false
deriving DecidableEq, Repr, Inhabited

/-- An MI of a salvage program as read when its run started (10_training.md R287): its word, what refused the read, and the
descriptors that the word names, each with what refused it. -/
structure ProgMi where
  word : List Nat := []
  cond : Option Cond := none
  descs : List (Option (List Nat × Option Cond)) := []
deriving DecidableEq, Repr, Inhabited

/-- A salvage run (10_training.md R280): partition, salvage ID, block, the queue its program runs on, its program, program MIs left,
and whether it failed. -/
structure SalvageRun where
  part : Nat
  id : Nat
  addr : Nat
  panel : Nat
  q : Nat
  next : Nat := 0
  left : Nat := 0
  prog : List ProgMi := []
  failed : Bool := false
  /-- The program MI that failed and its status (R291, DETAIL 0x0402). -/
  failIndex : Nat := 0
  failStatus : Nat := 0
deriving DecidableEq, Repr, Inhabited

/-- A retained entry (10_training.md R290): the context of its pool, KEY and STEP, its size in bytes, the frames that hold it as
panels and places in the pool's area, and the KEEP that still fills it. A pool's entries stand in the order in which they were
retained. -/
structure Retained where
  panel : Nat
  n : Nat
  key : Nat
  step : Nat
  size : Nat := 0
  frames : List (Nat × Nat) := []
  filling : Option Nat := none
deriving DecidableEq, Repr, Inhabited

/-- An arrival at a barrier of SCOPE 0 (05_macro_instructions.md R151). -/
structure Arrival where
  part : Nat
  id : Nat
  mi : Nat
  count : Nat
deriving DecidableEq, Repr, Inhabited

/-- The panel controllers (chapters 05, 06, 10). -/
structure Jig where
  flights : List Flight := []
  nextMi : Nat := 1
  rings : List Ring := []
  /-- Completion events that wait for room (R161), oldest first. -/
  waiting : List Event := []
  arrivals : List Arrival := []
  combs : List Combiner := []
  runs : List SalvageRun := []
  retained : List Retained := []
  /-- Queues under RESET (R158): panel, q. -/
  resetting : List (Nat × Nat) := []
  /-- The queue that each panel's controller took last (R131). -/
  turn : List (Nat × Nat) := []
deriving DecidableEq, Repr, Inhabited

/-! Tile caches (11_drawers_tiers.md R309). -/

inductive FrameState where
  | filling | clean | dirty
deriving DecidableEq, Repr, Inhabited

/-- A valid frame of a cache context: panel, context, set, way, partition address of its first byte, state, last use. -/
structure CacheFrame where
  panel : Nat
  n : Nat
  set : Nat
  way : Nat
  addr : Nat
  state : FrameState
  used : Nat
deriving DecidableEq, Repr, Inhabited

structure Cache where
  frames : List CacheFrame := []
  clock : Nat := 0
  /-- Contexts whose disable is under way (R314): panel, n, the value that SBD_CCFGn takes at its end. -/
  closing : List (Nat × Nat × Nat) := []
deriving DecidableEq, Repr, Inhabited

/-! DRAM (chapter 12, 20_faults.md R546 to R550). -/

structure Dram where
  /-- Writes that the batch of a channel holds, newest first: granule and time (R345). -/
  held : List (DramChan × List (Nat × Nat)) := []
  /-- Corrected granules whose write-back is queued (R335). -/
  writeBack : List Nat := []
  /-- Drawn mask sets: partition and number of its draw (R341). -/
  masks : List (Nat × Nat) := []
  /-- The lending mask set's draw (R321). -/
  lendDraw : Nat := 0
  /-- Channels with a doubled refresh rate (R349). -/
  hot : List DramChan := []
  /-- Refreshes performed, by channel (R344). -/
  refreshes : List (DramChan × Nat) := []
  /-- HBM4 channels in retirement order: stack, channel, hard, switched to the new home (20_faults.md R547 to R549). -/
  retired : List (Nat × Nat × Bool × Bool) := []
  fenced : List (Nat × Nat) := []
  /-- Granules written since their location lost its data (20_faults.md R549, R546). -/
  healed : List Nat := []
  /-- The lowest HBM4 frame that has been filled as a pool frame since the cold start (20_faults.md R546). -/
  poolLow : Nat := 195008
  /-- Uncorrectable granules: channel and time (R616, 20_faults.md R547). -/
  ues : List (DramChan × Nat) := []
  /-- Corrected granules: HBM4 channel and time (20_faults.md R547). -/
  corrs : List (DramChan × Nat) := []
  /-- The hot-bank monitors' windows: activations of the channel so far, and of each of its banks (R352). -/
  acts : List (DramChan × Nat × List (Nat × Nat)) := []
deriving DecidableEq, Repr, Inhabited

/-! KV pools (08_attention_kv.md R235): initialisation under way, by panel and context. -/

structure KvPools where
  initing : List (Nat × Nat) := []
deriving DecidableEq, Repr, Inhabited

/-! Retention (11_drawers_tiers.md R306). -/

inductive RetPhase where
  /-- Entry has begun and the clocks still run (R306, R307). -/
  | entering
  | held | waking
deriving DecidableEq, Repr, Inhabited

/-! Translation and keys (chapter 18). -/

/-- A cached translation: partition, page's partition address, page size, page's device-physical address, permissions. -/
structure TlbEntry where
  part : Nat
  va : Nat
  size : Nat
  pa : Nat
  read : Bool
  write : Bool
deriving DecidableEq, Repr, Inhabited

/-- An invalidation in progress (R498, R509): ALL, partition, address. -/
structure Inval where
  all : Bool
  part : Nat
  addr : Nat
deriving DecidableEq, Repr, Inhabited

/-- A key part held: partition, slot, tag key rather than XTS key, bytes (R499). -/
structure KeyPart where
  part : Nat
  slot : Nat
  tag : Bool
  bytes : List Nat
deriving DecidableEq, Repr, Inhabited

/-- A time-slice group: which member runs (R501, R502). -/
structure TSlice where
  group : Nat
  running : Nat
  /-- Global time of the last switch. -/
  last : Nat := 0
deriving DecidableEq, Repr, Inhabited

/-- What a scrub covers (R617). -/
inductive ScrubKind where
  /-- Bench pair 16p + k: the drawers of both benches. -/
  | pair
  /-- Slice 16p + k. -/
  | slice
  /-- Frames `first` to `first + count − 1`. -/
  | frames
  /-- The range of lent slot `first` (11_drawers_tiers.md R328). -/
  | lent
deriving DecidableEq, Repr, Inhabited

/-- A scrub under way. -/
structure Scrub where
  id : Nat
  kind : ScrubKind
  first : Nat
  count : Nat := 1
deriving DecidableEq, Repr, Inhabited

structure Mmu where
  tlb : List TlbEntry := []
  inval : Option Inval := none
  keys : List KeyPart := []
  /-- Context indices assigned by a write of their PARTITION field (R494), by BAR0 offset, with the partition. -/
  assigned : List (Nat × Nat) := []
  tslice : List TSlice := []
  /-- Registers of time-slice members that are out: partition, then panel, place (a logical bench, or the panel for its check units),
  offset in that block and value of each register (18_partitions.md R502, 14_integrity.md R396). -/
  saved : List (Nat × List (Nat × Nat × Nat × Nat)) := []
  /-- Resources under scrub (R617), and the number of the next scrub. -/
  scrubs : List Scrub := []
  nextScrub : Nat := 1
deriving DecidableEq, Repr, Inhabited

/-! Mitre (chapter 16). -/

/-- The member tables that enabled contexts keep (16_mitre_mapping.md R437), by context. -/
structure Mitre where
  members : List (Nat × List Nat) := []
deriving DecidableEq, Repr, Inhabited

/-! The fabric (chapter 15). -/

/-- A flit in the replay buffer (R407): its SEQ, KIND and BODY. -/
structure StoredFlit where
  seq : Nat
  kind : Nat
  body : List Nat
deriving DecidableEq, Repr, Inhabited

/-- A fabric port. `state` is 0 DOWN, 1 TRAINING, 2 UP, 3 DEGRADED; SLOW is kept beside it (R433). -/
structure Port where
  state : Nat := 0
  slow : Bool := false
  lanes : Nat := 0
  fallback : Bool := false
  nbrValid : Bool := false
  nbrPort : Nat := 0
  nbrAddr : Nat := 0
  nbrSerial : Nat := 0
  /-- The manager pair that the partner's HELLO reports: priority, serial, distance (R418). -/
  mgr : Option (Nat × Nat × Nat) := none
  /-- Global time of the last HELLO. -/
  helloAt : Nat := 0
  txSeq : Nat := 0
  /-- SEQ expected next, and whether flits are discarded until it arrives (R407). -/
  rxSeq : Nat := 0
  rxBad : Bool := false
  rxAny : Bool := false
  replay : List StoredFlit := []
  /-- The SEQ replayed last and how often in a row. -/
  replayed : Nat × Nat := (0, 0)
  /-- Credits held, and credits to return, by VC (R408). -/
  credits : List (Nat × Nat) := []
  owed : List (Nat × Nat) := []
  /-- The VC of the packet arriving. -/
  rxVc : Nat := 0
  /-- Flits of each VC in the receive buffer (R408). -/
  held : List (Nat × Nat) := []
  /-- Link control messages that wait for room in the replay buffer, oldest first (R407, R409). -/
  ctl : List (List Nat) := []
  /-- Packets that wait for credits, a slot or a link, oldest first. -/
  queue : List Packet := []
  /-- The partner has sent SCHED_EXIT and not yet SCHED_ENTER (R431). -/
  exited : Bool := false
  /-- The start that a received SCHED_ENTER names (R431). -/
  enterAt : Option Nat := none
  slotOpen : Bool := false
deriving DecidableEq, Repr, Inhabited

/-- A request of this device that waits for its answer (R412). `va` is the partition's address for it. -/
structure Request where
  tag : Nat
  pkt : Packet
  mi : Option Nat
  /-- The access of another requester that it serves (01_cabinet.md R33). -/
  job : Option Nat := none
  va : Nat
  sent : Nat
  resends : Nat := 0
deriving DecidableEq, Repr, Inhabited

/-- Who waits for a neighbour access without an MI (01_cabinet.md R33, 18_partitions.md R495): a function's BAR2, another device's
packet for a partition, a unit of this device, which tries its step again, or a context register whose write enables it. -/
inductive JobFor where
  | bar (fn : Src)
  | packet (k : Packet)
  | unit
  | enable (a : RegAddr) (v : Nat)
deriving DecidableEq, Repr, Inhabited

/-- A neighbour access without an MI: its number, who waits, the partition, the address and the length asked for, and what has arrived. -/
structure Job where
  id : Nat
  who : JobFor
  part : Option Nat
  va : Nat
  n : Nat
  parts : List (Nat × List Nat) := []
  cond : Option Cond := none
deriving DecidableEq, Repr, Inhabited

/-- A lease beside its objects (11_drawers_tiers.md R320 to R325): slot, the peer, the base at the lender, the notice
period, the time of the last KEEPALIVE, the deadline, the partition. -/
structure Lease where
  side : LeaseSide
  slot : Nat
  peer : Nat
  remoteBase : Nat
  notice : Nat
  alive : Nat
  deadline : Nat := 0
deriving DecidableEq, Repr, Inhabited

/-- A schedule in force (R426): L in ns, G in ns, N, T0, and the map of each port. -/
structure SchedPlan where
  len : Nat
  guard : Nat
  period : Nat
  origin : Nat
  maps : List (List Nat)
deriving DecidableEq, Repr, Inhabited

structure Fabric where
  ports : List Port := List.replicate 12 {}
  nextTag : Nat := 0
  requests : List Request := []
  /-- Requests that wait because their flow has 256 packets outstanding (R413), oldest first. -/
  backlog : List Request := []
  /-- The FSEQ that comes next in each flow of this device: DST, VC, FLOW, number (R410). -/
  txFlows : List (Nat × Nat × Nat × Nat) := []
  /-- Neighbour accesses of requesters without an MI; the number of the next; bytes that arrived for units (256 marks POISON), with
  their partition, or the condition that came instead; and what the step at work has asked for and does not hold: partition, address,
  device-physical address, length (01_cabinet.md R33). -/
  jobs : List Job := []
  nextJob : Nat := 1
  arrived : List (Option Nat × Nat × List Nat × Option Cond) := []
  asks : List (Option Nat × Nat × Nat × Nat) := []
  /-- Requests that this device has served: the request and its answer (R412). -/
  served : List (Packet × Packet) := []
  /-- Active copy of the routing table, whether the shadow is being copied, and table writes held meanwhile (R421). -/
  active : Nat := 0
  copying : Bool := false
  heldRoutes : List (ObjAddr × List Nat) := []
  /-- fab.sched.state, the schedule in force, the start that SCHED_ENTER announced, and the last slot boundary passed. -/
  sched : Nat := 0
  plan : Option SchedPlan := none
  enterAt : Option Nat := none
  slotAt : Option Nat := none
  leases : List Lease := []
  /-- Lease IDs that this lender has assigned (11_drawers_tiers.md R320). -/
  leaseIds : List Nat := []
  /-- The resequencer (R413): SRC, VC, FLOW and the FSEQ due next, and the packets that wait for an earlier one. -/
  flows : List (Nat × Nat × Nat × Nat) := []
  reseq : List Packet := []
deriving DecidableEq, Repr, Inhabited

/-! The pennant line and the clocks (chapter 21). -/

/-- Arrivals that the master counts for a group and ID (21_clocks_power.md R571): the COUNT in force and the positions. -/
structure PenCount where
  group : Nat
  id : Nat
  need : Nat
  origins : List Nat := []
deriving DecidableEq, Repr, Inhabited

structure Pennant where
  /-- Lock to PEN_IN, the bypass, the ring position (0xFF outside the ring), the master, the ring size and the link delay in
  1/16 ns (R568). -/
  locked : Bool := false
  bypassOpen : Bool := false
  position : Nat := 0xFF
  master : Bool := false
  ringSize : Nat := 0
  delay : Nat := 0
  /-- Has a master's time been adopted since the module joined (R565)? -/
  adopted : Bool := false
  /-- Does the module hold a time: adopted, or its own as master, since its cold start (R565)? -/
  timed : Bool := false
  /-- Nanoseconds still to be slewed, and ticks since the last one (R565). -/
  slew : Int := 0
  slewTicks : Nat := 0
  /-- Magnitudes of the offsets of the last 16 TIME frames, newest first, and the time of the last one (R570). -/
  offsets : List Nat := []
  lastTime : Nat := 0
  /-- TIME frames still to be applied after a reference switch (R570). -/
  settle : Nat := 0
  counts : List PenCount := []
deriving DecidableEq, Repr, Inhabited

structure Clocks where
  aGood : Bool := true
  bGood : Bool := true
  /-- 0 REFCLK_A, 1 REFCLK_B, 2 holdover (R562). -/
  source : Nat := 0
  aOffset : Int := 0
  bOffset : Int := 0
  /-- Current PCLK in MHz by panel, where it is not 1,500 (R561). -/
  pclk : List (Nat × Nat) := []
  /-- Thermal limits by panel, and the device's power limit, in MHz (22_module.md R607, R594). -/
  thermal : List (Nat × Nat) := []
  power : Option Nat := none
  /-- Units in their idle state (R576). -/
  idle : List IdleUnit := []
deriving DecidableEq, Repr, Inhabited

/-! Media contexts and ingest pipes (chapter 17). -/

/-- An enabled media context beside its registers. -/
structure MedCtx where
  die : Nat
  c : Nat
  /-- The context block as read at ENABLE (17_media_ingest.md R462). -/
  block : List Nat := []
  /-- PHASE of the output ring, and an outstanding interrupt (R465, R462). -/
  phase : Bool := true
  irq : Bool := false
  outIndex : Nat := 0
  /-- Jobs read, newest first: FLAGS and SAMPLE_ID (R463). -/
  jobs : List (Nat × Nat) := []
  /-- Records written and not consumed, oldest first, each with its picture's output index. -/
  recs : List (Option Nat) := []
  /-- A picture since the last key picture was concealed (R467). -/
  concealed : Bool := false
  /-- A refused stream is discarded up to the next DISCONT (R470). -/
  refused : Bool := false
  /-- Width, height, depth and chroma of the last picture (R468). -/
  last : Option (Nat × Nat × Bool × Nat) := none
  /-- A decoded picture that waits, with its SAMPLE_ID (R464, R479). -/
  held : Option (Picture × Nat) := none
  /-- Encoder: next byte of the bitstream ring, and pictures encoded. -/
  pos : Nat := 0
  count : Nat := 0
deriving DecidableEq, Repr, Inhabited

/-- A sample request in hand (R478): its index in request order, its own SAMPLE_ID, the request or spare now processed, spares
taken, the pictures delivered with their concealed blocks, a TYPE 0x02 record, END. -/
structure IngReq where
  index : Nat
  id : Nat
  bytes : List Nat
  tries : Nat := 0
  pics : List (Picture × Nat) := []
  dropped : Bool := false
  ended : Bool := false
deriving DecidableEq, Repr, Inhabited

/-- A sample in a slot: slot, flags, SAMPLE_ID (R481). -/
structure IngSample where
  slot : Nat
  flags : Nat
  id : Nat
deriving DecidableEq, Repr, Inhabited

/-- An enabled ingest pipe beside its registers (R476 to R486). -/
structure IngPipe where
  n : Nat
  block : List Nat := []
  params : List Nat := []
  /-- Index of the next request to be read. -/
  nextIndex : Nat := 0
  reqs : List IngReq := []
  /-- The slot that is next in ring order. -/
  nextSlot : Nat := 0
  ready : List IngSample := []
  claimed : List Nat := []
  /-- Place in the spare list. -/
  spare : Nat := 0
  /-- SOURCE 0 requests that have ended, newest first: context and SAMPLE_ID (R479). -/
  done : List (Nat × Nat) := []
deriving DecidableEq, Repr, Inhabited

structure Media where
  ctxs : List MedCtx := []
  pipes : List IngPipe := []
deriving DecidableEq, Repr, Inhabited

/-! Management (chapters 19, 20). -/

/-- A staging session (19_dictionary.md R517): its source, its role code, the time of its last staged write. -/
structure Session where
  src : MgmtPath
  role : Nat
  last : Nat
deriving DecidableEq, Repr, Inhabited

/-- A commit under way (R520 to R522): N, the copy of commit.tick, the tick once the check has passed, armed units. -/
structure CommitReq where
  n : Nat
  tick : Nat
  at' : Nat := 0
  pending : Bool := false
  armed : Bool := false
deriving DecidableEq, Repr, Inhabited

/-- A kept response (R529). -/
structure Kept where
  path : MgmtPath
  reqId : Nat
  bytes : List Nat
deriving DecidableEq, Repr, Inhabited

/-- What a mirror epoch records (20_faults.md, "Halyard failover"). -/
structure Mgmt where
  /-- Active values that differ from their defaults (R518). -/
  dict : List (ObjAddr × List Nat) := []
  staged : List (ObjAddr × List Nat) := []
  session : Option Session := none
  commit : Option CommitReq := none
  kept : List Kept := []
deriving DecidableEq, Repr, Inhabited

/-- A fault record (20_faults.md R536). `info` is the 32 bytes of INFO. -/
structure FaultRec where
  cls : Nat
  sev : Nat := 0
  detail : Nat := 0
  seq : Nat := 0
  time : Nat := 0
  die : Nat := 0
  unit : Nat := 0
  sub : Nat := 0
  part : Option Nat := none
  addr : Option Nat := none
  info : List Nat := []
deriving DecidableEq, Repr, Inhabited

/-! Power, pins and the test access port (21_clocks_power.md R576 to R584; chapter 22). -/

/-- Which functional rails are on: all, the Halyard die's only (22_module.md R607), none. -/
inductive Rails where
  | off | halyard | on
deriving DecidableEq, Repr, Inhabited

structure Power where
  /-- VIN in mV, and whether it has lain in 40 to 60 V for 10 ms (22_module.md R591). -/
  vinMv : Nat := 54000
  vinStable : Bool := true
  /-- The pins PWR_EN, PWR_GOOD released, FORCE_RETAIN_N asserted, and the links whose PERSTn_N is asserted. -/
  pwrEn : Bool := true
  powerGood : Bool := true
  forceRetain : Bool := false
  perst : List Nat := []
  rails : Rails := .on
  /-- The 100 ms after a power-down (R592), and a trip after which PWR_EN has not yet been deasserted (R593). -/
  offHold : Bool := false
  tripped : Bool := false
  /-- dev.state (21_clocks_power.md R582) and power.state: 0 RUN, 1 in transition, 2 RETAIN (R576 to R578). -/
  stage : Nat := 6
  state : Nat := 0
  /-- The transition is an entry; an exit follows it (22_module.md R600). -/
  entering : Bool := false
  exitAfter : Bool := false
  /-- PCIe links that are trained, and VFs whose configuration space and MSI-X state stand as a Function Level Reset left them
  (18_partitions.md R492). -/
  links : List Nat := [0, 1]
  flrs : List (Nat × Nat) := []
  /-- Last reports of the sensors: panel junctions and HBM4 stacks in m°C, input power in W. -/
  panelMc : List (Nat × Nat) := []
  hbmMc : List (Nat × Nat) := []
  inputW : Option Nat := none
deriving DecidableEq, Repr, Inhabited

/-- The test access port (22_module.md R602): 0 BYPASS, 1 IDCODE, 2 SAMPLE/PRELOAD, 3 EXTEST; the bits of the selected register,
next out first. -/
structure Tap where
  ir : Nat := 1
  shift : List Bool := []
deriving DecidableEq, Repr, Inhabited

/-- A firmware update's stage (20_faults.md R556, R557). -/
structure Flash where
  /-- The flash bank that the running firmware was loaded from. -/
  bank : Nat := 0
  otherValid : Bool := true
  /-- Bytes written to the inactive bank: offset and chunk, newest first. -/
  image : List (Nat × List Nat) := []
  version : Option (List Nat) := none
  /-- Security version of the running image; 0 at reset (log entry 2). -/
  security : Nat := 0
  microcode : List Nat := []
deriving DecidableEq, Repr, Inhabited

structure Halyard where
  mgmt : Mgmt := {}
  /-- The last complete mirror epoch (R553). -/
  mirror : Mgmt := {}
  /-- The epoch being copied. -/
  copying : Option Mgmt := none
  epoch : Nat := 0
  acked : Nat := 0
  /-- Responses held for an acknowledgement: the epoch that records the request, the request's path and REQ_ID, the
  response. -/
  held : List (Nat × MgmtPath × List Nat) := []
  active : Nat := 0
  outA : Bool := false
  outB : Bool := false
  /-- Halyard links of edge dies 2 and 0 that have failed (01_cabinet.md R18). -/
  linksDown : List Nat := []
  faults : List FaultRec := []
  faultSeq : Nat := 0
  /-- SERVICE records acknowledged so far, and the newest SERVICE record (22_module.md R601). -/
  serviceSeq : Nat := 0
  ackSeq : Nat := 0
  /-- TENANT request buckets (R532): partition, tokens, time of the last refill. -/
  buckets : List (Nat × Nat × Nat) := []
  flash : Flash := {}
  /-- User calibration kept in the boot flash (R516). -/
  savedCal : List (ObjAddr × List Nat) := []
  /-- Telemetry streams: partition, stream, sequence number, next record. -/
  telem : List (Nat × Nat × Nat × Role) := []
  /-- Doorbell and done words of the mailboxes (19_dictionary.md R530). -/
  mailbox : List (Src × Nat × Nat) := []
deriving DecidableEq, Repr, Inhabited

/-- The state. -/
structure State where
  /-- Commands that wait, first in, first out. -/
  pending : List Instr := []
  /-- Global time in ns (21_clocks_power.md R565). -/
  time : Nat := 0
  /-- Registers whose value is not their reset value, by BAR0 offset, ascending. -/
  regs : List (Nat × Reg) := []
  /-- Bytes of T0 to T3 that are not zero, by local address (01_cabinet.md R31), ascending. -/
  mem : List Host.Cell := []
  /-- Code units that read as uncorrectable, by first address, ascending (14_integrity.md R615). -/
  poison : List Nat := []
  jig : Jig := {}
  cache : Cache := {}
  dram : Dram := {}
  kv : KvPools := {}
  mmu : Mmu := {}
  mit : Mitre := {}
  fab : Fabric := {}
  pen : Pennant := {}
  clk : Clocks := {}
  med : Media := {}
  hal : Halyard := {}
  pwr : Power := {}
  tap : Tap := {}
  /-- Units in retention or on their way: panel, unit, phase (11_drawers_tiers.md R306). -/
  retention : List (Nat × RetUnit × RetPhase) := []
  /-- Spare map: panel, logical bench, physical bench where it differs from the identity; retired and taking-over benches
  (20_faults.md R545). -/
  spareMap : List (Nat × Nat × Option Nat) := []
  retiredBench : List (Nat × Nat) := []
  takingOver : List (Nat × Nat × Nat) := []
  takeovers : List (Nat × Nat) := []
  /-- What has left the block, newest first. -/
  sent : List Out := []
  /-- The model's own counter of free values (log entry 11). -/
  freeCtr : Nat := 1
deriving DecidableEq, Repr, Inhabited

/-- The block after a COLD reset and its cold start, in state READY (21_clocks_power.md R580, R582; log entry 4). -/
def State.reset : State := {}

end Sys2Proof.Machine
end

