-- ==== Sys2Proof/Machine/Ops.lean ====
section
/-!
DEFINITION. The named operations over memory, registers and the dictionary: bytes (01_cabinet.md R31), registers (00_scope.md
R8 to R14), objects (19_dictionary.md R518), frames and their owners (18_partitions.md R488), code units
(14_integrity.md R615).
-/
namespace Sys2Proof.Machine

/-! Memory: strictly rising addresses, no zero byte listed; an unlisted byte is zero (log entry 3). -/

/-- The canonical form. -/
def Memory.wf : List Host.Cell → Bool
  | [] => true
  | [c] => c.2 != 0
  | c :: d :: l => c.2 != 0 && decide (c.1 < d.1) && Memory.wf (d :: l)

/-- One byte. -/
def Memory.byte (m : List Host.Cell) (a : Nat) : Nat :=
  match m.find? (fun c => c.1 == a) with
  | some c => c.2.toNat
  | none => 0

/-- The cells of a byte string that lies from `a`. -/
def Memory.cells : Nat → List Nat → List Host.Cell
  | _, [] => []
  | a, b :: bs =>
    if b % 256 == 0 then Memory.cells (a + 1) bs
    else (a, BitVec.ofNat 8 b) :: Memory.cells (a + 1) bs

/-- Write a byte string from `a`. -/
def Memory.write (m : List Host.Cell) (a : Nat) (bs : List Nat) : List Host.Cell :=
  m.filter (fun c => decide (c.1 < a)) ++ (Memory.cells a bs ++ m.filter (fun c => decide (a + bs.length ≤ c.1)))

/-- Lay out `n` bytes from `a` out of rising cells. -/
def Memory.lay : Nat → Nat → List Host.Cell → List Nat
  | 0, _, _ => []
  | n + 1, a, [] => 0 :: Memory.lay n (a + 1) []
  | n + 1, a, c :: l =>
    if c.1 == a then c.2.toNat :: Memory.lay n (a + 1) l else 0 :: Memory.lay n (a + 1) (c :: l)

/-- `n` bytes from `a`. -/
def Memory.read (m : List Host.Cell) (a n : Nat) : List Nat :=
  Memory.lay n a (m.filter fun c => decide (a ≤ c.1) && decide (c.1 < a + n))

/-! Registers. -/

/-- A list of keyed values in rising order: the value put at `k`, or dropped where `keep` is false. -/
def sortedPut {α : Type} (l : List (Nat × α)) (k : Nat) (v : α) (keep : Bool) : List (Nat × α) :=
  l.filter (fun c => decide (c.1 < k)) ++ ((if keep then [(k, v)] else []) ++ l.filter (fun c => decide (k < c.1)))

/-- The reset value of the register at a BAR0 offset. -/
def resetAt (off : Nat) : Nat := match regOf off with | some a => regReset a | none => 0

/-- The stored bits of the register at a BAR0 offset. -/
def regStored (s : State) (off : Nat) : Nat :=
  match s.regs.find? (fun c => c.1 == off) with
  | some c => c.2.toNat
  | none => resetAt off

/-- Set the stored bits of the register at a BAR0 offset. -/
def regStore (s : State) (off v : Nat) : State :=
  { s with regs := sortedPut s.regs off (BitVec.ofNat 64 v) (v % 2 ^ 64 != resetAt off) }

/-- The stored bits of a register. -/
def rget (s : State) (a : RegAddr) : Nat := regStored s (regOffset a)

def rset (s : State) (a : RegAddr) (v : Nat) : State := regStore s (regOffset a) v

/-- A stored field. -/
def rfield (s : State) (a : RegAddr) (hi lo : Nat) : Nat := bits (rget s a) hi lo

def rbit (s : State) (a : RegAddr) (i : Nat) : Bool := bit (rget s a) i

def rsetField (s : State) (a : RegAddr) (hi lo v : Nat) : State := rset s a (setBits (rget s a) hi lo v)

/-- A saturating count in a field (R9, "saturates"). -/
def rbump (s : State) (a : RegAddr) (hi lo n : Nat) : State :=
  rsetField s a hi lo (satAdd (hi + 1 - lo) (rfield s a hi lo) n)

/-- A counter that wraps at its width. -/
def rwrap (s : State) (a : RegAddr) (hi lo n : Nat) : State := rsetField s a hi lo (rfield s a hi lo + n)

def panelReg (id : RegId) (p i : Nat) : RegAddr := { id := id, loc := .panel p, i := i }
def benchReg (id : RegId) (p b i : Nat) : RegAddr := { id := id, loc := .bench p b, i := i }
def edgeReg (id : RegId) (e i : Nat) : RegAddr := { id := id, loc := .edge e, i := i }
def halReg (id : RegId) : RegAddr := { id := id, loc := .halyard }

/-! The dictionary. -/

/-- The value listed for an object, or its default (R518). -/
def objIn (l : List (ObjAddr × List Nat)) (o : ObjAddr) : List Nat :=
  match l.find? (fun e => e.1 == o) with
  | some e => e.2
  | none => objDefault o.id

/-- An object's active value. -/
def dget (s : State) (o : ObjAddr) : List Nat := objIn s.hal.mgmt.dict o

/-- An object's active value as a number. -/
def dnum (s : State) (id : ObjId) (i part : Nat) : Nat := leVal (dget s { id := id, i := i, part := part })

/-- A partition's object. -/
def pnum (s : State) (id : ObjId) (part : Nat) : Nat := dnum s id 0 part

/-- The device's own object. -/
def gnum (s : State) (id : ObjId) : Nat := dnum s id 0 0

/-- Set an object's active value. -/
def dset (s : State) (o : ObjAddr) (v : List Nat) : State :=
  { s with hal := { s.hal with mgmt := { s.hal.mgmt with
      dict := upsert (fun e => e.1 == o) (o, v) s.hal.mgmt.dict } } }

/-- Set an integer object of `n` bytes. -/
def dsetNum (s : State) (id : ObjId) (i part n v : Nat) : State :=
  dset s { id := id, i := i, part := part } (leBytes n v)

/-- The copy of an object that the panels hold (19_dictionary.md R533): the value in the last acknowledged epoch
(20_faults.md R553). -/
def panelCopy (s : State) (id : ObjId) (part : Nat) : Nat :=
  leVal (objIn s.hal.mirror.dict { id := id, i := 0, part := part })

/-! Flights. -/

def findFlight (s : State) (mi : Nat) : Option Flight := s.jig.flights.find? (·.mi == mi)

def putFlight (s : State) (f : Flight) : State :=
  { s with jig := { s.jig with flights := upsert (fun g => g.mi == f.mi) f s.jig.flights } }

/-! Outputs. -/

def emit (s : State) (o : Out) : State := { s with sent := o :: s.sent }

/-- A fresh free value (log entry 11). -/
def fresh (s : State) (k : Nat) : Nat × State :=
  (Config.openValue s.freeCtr k, { s with freeCtr := s.freeCtr + 1 })

/-! Partitions and what they own (18_partitions.md R488). -/

/-- Does a partition own bench pair `k` of panel `p`? -/
def ownsPair (s : State) (part p k : Nat) : Bool := bit (pnum s .partitionBenches part) (16 * p + k)

/-- Does a partition own logical bench `l` of panel `p`? -/
def ownsBench (s : State) (part p l : Nat) : Bool := ownsPair s part p (l / 2)

/-- Logical benches of a panel that a partition owns, ascending. -/
def benchesOf (s : State) (part p : Nat) : List Nat := (List.range 32).filter (ownsBench s part p)

/-- Frame ranges of a partition: first frame and count (R490). -/
def frameRanges (s : State) (part : Nat) : List (Nat × Nat) :=
  let bs := dget s { id := .partitionFrames, part := part }
  (List.range (bs.length / 8)).map fun i => (leAt bs (8 * i) 4, leAt bs (8 * i + 4) 4)

/-- Does a partition own a frame? -/
def ownsFrame (s : State) (part f : Nat) : Bool :=
  (frameRanges s part).any fun r => r.1 ≤ f && f < r.1 + r.2

/-- The first frame of LPDDR5X (R488). -/
def lpFrame0 : Nat := 196608

/-- The frame of a T2 or T3 local address (R488). -/
def frameOf (a : Nat) : Option Nat :=
  if a < 0x006000000000 then (if a / 0x200000 < lpFrame0 then some (a / 0x200000) else none)
  else if 0x010000000000 ≤ a && a < 0x01F000000000 then some (lpFrame0 + (a - 0x010000000000) / 0x200000)
  else none

/-- The owner of a frame, if any. -/
def frameOwner (s : State) (f : Nat) : Option Nat := (List.range 256).find? fun p => ownsFrame s p f

/-- The spare map: the physical bench of a logical bench (20_faults.md R545); the identity until it changes (log entry
2). -/
def physOf (s : State) (p l : Nat) : Option Nat :=
  match s.spareMap.find? (fun e => e.1 == p && e.2.1 == l) with
  | some e => e.2.2
  | none => some l

/-- The logical bench bound to a physical bench. -/
def logicalOf (s : State) (p b : Nat) : Option Nat :=
  (List.range 32).find? fun l => physOf s p l == some b

/-- The owner of a logical bench. -/
def benchOwner (s : State) (p l : Nat) : Option Nat :=
  (List.range 256).find? fun part => ownsBench s part p l

/-- Is a unit of a panel held in retention, or on its way out of it (11_drawers_tiers.md R306)? -/
def unitHeld (s : State) (p : Nat) (u : RetUnit) : Bool :=
  s.retention.any fun e => e.1 == p && e.2.1 == u && e.2.2 != .entering

/-- MXU_BENCH_ID.STATE of a physical bench (01_cabinet.md, MXU_BENCH_ID). -/
def benchState (s : State) (p b : Nat) : Nat :=
  if s.retiredBench.contains (p, b) then 3
  else if s.takingOver.any (fun e => e.1 == p && e.2.1 == b) then 2
  else if (logicalOf s p b).isNone then 1
  else if unitHeld s p (.bench b) then 4
  else 0

/-- The partition whose number MXU_BENCH_ID.PARTITION shows: the running member of a time-slice group, else the owner
(18_partitions.md R488, R501). -/
def benchPart (s : State) (p b : Nat) : Option Nat :=
  match (match s.takingOver.find? (fun e => e.1 == p && e.2.1 == b) with
      | some e => some e.2.2
      | none => logicalOf s p b) with
  | none => none
  | some l =>
    match s.mmu.tslice.find? (fun t => ownsBench s t.running p l) with
    | some t => some t.running
    | none => benchOwner s p l

/-- Is the partition a time-slice member that is out (18_partitions.md R503)? -/
def memberOut (s : State) (part : Nat) : Bool :=
  let g := pnum s .partitionTsliceGroup part
  g != 0 && s.mmu.tslice.any fun t => t.group == g && t.running != part

/-- Do queues and benches work: the device is ready (21_clocks_power.md R582), and not in retain or on the way to or from it
(R577)? -/
def awake (s : State) : Bool := s.pwr.state == 0 && s.pwr.stage == 6

/-- Spare benches left on a panel (20_faults.md, FLT_PANEL). -/
def sparesLeft (s : State) (p : Nat) : Nat := ((List.range 34).filter fun b => benchState s p b == 1).length

/-! The map (01_cabinet.md R31, R32). -/

inductive Region where
  | hbm
  | lpddr
  | sideboard (p : Nat)
  | drawer (p b : Nat)
  | neighbor
  | registers
  | unmapped
deriving DecidableEq, Repr, Inhabited

/-- The range that holds a local address. -/
def regionOf (a : Nat) : Region :=
  if a < 0x006000000000 then .hbm
  else if a < 0x010000000000 then .unmapped
  else if a < 0x01F000000000 then .lpddr
  else if a < 0x020000000000 then .unmapped
  else if a < 0x020400000000 then .sideboard ((a - 0x020000000000) / 0x40000000)
  else if a < 0x021000000000 then .unmapped
  else if a < 0x021100000000 then
    (let o := (a - 0x021000000000) % 0x10000000
     if o < 0x08800000 then .drawer ((a - 0x021000000000) / 0x10000000) (o / 0x400000) else .unmapped)
  else if a < 0x030000000000 then .unmapped
  else if a < 0x030100000000 then .registers
  else if a < 0x800000000000 then .unmapped
  else if a < 0x1000000000000 then .neighbor
  else .unmapped

/-- The range that holds every byte of an access (R614); an access of no byte is judged by its address. -/
def accessRegion (a n : Nat) : Region :=
  if regionOf a == regionOf (a + n - 1) || n == 0 then regionOf a else .unmapped

def drawerBase (p b : Nat) : Nat := 0x021000000000 + p * 0x10000000 + b * 0x400000
def sideboardBase (p : Nat) : Nat := 0x020000000000 + p * 0x40000000

/-! DRAM location (12_hbm_lpddr.md R338 to R341). -/

/-- Mask `i` of a drawn set: 18 bits for HBM4 (i below 13), 19 bits for LPDDR5X (kept from 16). -/
def drawnMask (draw i w : Nat) : Nat :=
  (Config.randomByte draw (3 * i) + 256 * Config.randomByte draw (3 * i + 1) +
    65536 * Config.randomByte draw (3 * i + 2)) % 2 ^ w

/-- Does a frame lie in the lendable range (11_drawers_tiers.md R321)? -/
def inLendRange (s : State) (a : Nat) : Bool :=
  let b := gnum s .lendBase
  b ≤ a && a < b + gnum s .lendSize

/-- The draw of the mask set that hashes an address; none is the identity (R341). -/
def maskDraw (s : State) (a : Nat) : Option Nat :=
  match (frameOf a).bind (frameOwner s) with
  | some p => (s.dram.masks.find? (fun m => m.1 == p)).map (·.2)
  | none => if inLendRange s a then some s.dram.lendDraw else none

/-- S xor H_K(U) (R340). -/
def hashSelect (draw : Option Nat) (base n w u sel : Nat) : Nat :=
  match draw with
  | none => sel
  | some d =>
    sel ^^^ ((List.range n).foldl
      (fun h i => if parity w (Nat.land u (drawnMask d (base + i) w)) then h + 2 ^ i else h) 0)

/-- An HBM4 location: stack, channel, pseudo-channel, bank group, bank, SID, row, column (R338, R340). -/
structure HbmLoc where
  stack : Nat
  ch : Nat
  pc : Nat
  bg : Nat
  bank : Nat
  sid : Nat
  row : Nat
  col : Nat
deriving DecidableEq, Repr, Inhabited

def hbmLocation (draw : Option Nat) (a : Nat) : HbmLoc :=
  let u := bits a 38 21
  let x := hashSelect draw 0 13 18 u (bits a 20 8)
  { stack := bits x 2 0, ch := bits x 7 3, pc := bits x 8 8, bg := bits x 10 9, bank := bits x 12 11
    sid := bits a 38 37, row := bits a 36 23, col := bits a 22 21 * 4 + bits a 7 6 }

/-- An LPDDR5X location: package, channel, bank group, bank, data row, column (R339, R340). -/
structure LpLoc where
  pkg : Nat
  ch : Nat
  bg : Nat
  bank : Nat
  row : Nat
  col : Nat
  /-- The physical row of the data, and the check row and its byte where the granule's 4 check bytes lie (R333, R339). -/
  physRow : Nat
  checkRow : Nat
  checkByte : Nat
deriving DecidableEq, Repr, Inhabited

def lpLocation (draw : Option Nat) (a : Nat) : LpLoc :=
  let o := a - 0x010000000000
  let u := bits o 39 21
  let x := hashSelect draw 16 10 19 u (bits o 20 11)
  { pkg := bits x 3 0, ch := bits x 5 4, bg := bits x 7 6, bank := bits x 9 8, row := u, col := bits o 10 6
    physRow := 16 * (u / 15) + u % 15, checkRow := 16 * (u / 15) + 15, checkByte := 128 * (u % 15) + 4 * bits o 10 6 }

/-- The channel that holds a DRAM address under a mask set. -/
def chanAt (draw : Option Nat) (a : Nat) : Option DramChan :=
  match regionOf a with
  | .hbm => let l := hbmLocation draw a; some (.hbm l.stack l.ch l.pc)
  | .lpddr => let l := lpLocation draw a; some (.lpddr l.pkg l.ch)
  | _ => none

/-! The home of a retired channel's granules (20_faults.md R548). -/

/-- The number of a granule of an HBM4 channel, in the order pseudo-channel, SID, bank group, bank, row and column. -/
def granuleNumber (l : HbmLoc) : Nat := ((((l.pc * 3 + l.sid) * 4 + l.bg) * 4 + l.bank) * 16384 + l.row) * 16 + l.col

/-- The `n`-th granule from `a` that the hash places in none of the retired channels `bad`. -/
def nthGranule (s : State) (bad : List (Nat × Nat)) : Nat → Nat → Nat → Option Nat
  | 0, _, _ => none
  | fuel + 1, n, a =>
    let l := hbmLocation (maskDraw s a) a
    if bad.contains (l.stack, l.ch) then nthGranule s bad fuel n (a + 64)
    else match n with
      | 0 => some a
      | n + 1 => nthGranule s bad fuel n (a + 64)

/-- Where a granule lies: itself, or its home in the 800 frames that its channel's retirement withdrew. Retirement number k has pool
frames 196,608 − 800 × (k + 1) on (log entry 149). -/
def homeFrom (s : State) : Nat → Nat → Nat
  | 0, a => a
  | fuel + 1, a =>
    let l := hbmLocation (maskDraw s a) a
    match s.dram.retired.findIdx? (fun r => r.1 == l.stack && r.2.1 == l.ch && r.2.2.2) with
    | none => a
    | some k =>
      match nthGranule s ((s.dram.retired.take (k + 1)).map fun r => (r.1, r.2.1)) (800 * 32768) (granuleNumber l)
          ((196608 - 800 * (k + 1)) * 0x200000) with
      | some h => homeFrom s fuel (h + a % 64)
      | none => a

def homeOf (s : State) (a : Nat) : Nat :=
  if s.dram.retired.isEmpty || regionOf a != .hbm then a else homeFrom s 8 a

/-- The channel that holds a DRAM address. -/
def dramChanOf (s : State) (a : Nat) : Option DramChan := chanAt (maskDraw s (homeOf s a)) (homeOf s a)

/-! Code units and poison (14_integrity.md R615). -/

/-- The code unit that holds an address: its length. -/
def unitSize (r : Region) : Nat :=
  match r with | .drawer _ _ => 8 | .sideboard _ => 16 | _ => 64

/-- The first frame of the spare pool (20_faults.md R546). -/
def poolFirst (s : State) : Nat := 196608 - gnum s .memHbmSpareFrames

/-- Resources under scrub that a partition owns: its queues deal to none of them before the scrub ends (18_partitions.md
R491). -/
def underScrub (s : State) (part : Nat) : Bool :=
  s.mmu.scrubs.any fun x =>
    match x.kind with
    | .pair => ownsPair s part (x.first / 16) (x.first % 16)
    | .slice => bit (leVal (dget s { id := .partitionSlices, part := part })) x.first
    | .frames => (frameRanges s part).any fun r => r.1 < x.first + x.count && x.first < r.1 + r.2
    | .lent => false

/-- Is a code unit uncorrectable: marked so, in a frame filled for the spare pool and never written since, or in an HBM4 channel that lost its data
or is fenced (20_faults.md R546, R549, R550)? -/
def isPoison (s : State) (u : Nat) : Bool :=
  s.poison.contains u ||
  (match regionOf u with
   | .hbm =>
     let pool := s.dram.poolLow ≤ u / 0x200000
     if pool || !s.dram.retired.isEmpty || !s.dram.fenced.isEmpty then
       let l := hbmLocation (maskDraw s u) u
       s.dram.fenced.contains (l.stack, l.ch) ||
       ((pool || s.dram.retired.any (fun r => r.1 == l.stack && r.2.1 == l.ch && r.2.2.1)) &&
         !(s.dram.healed.contains u))
     else false
   | _ => false)

/-- Is a granule in a fenced channel (20_faults.md R550)? -/
def isFenced (s : State) (u : Nat) : Bool :=
  !s.dram.fenced.isEmpty &&
  (match regionOf u with
   | .hbm => let l := hbmLocation (maskDraw s u) u; s.dram.fenced.contains (l.stack, l.ch)
   | _ => false)

/-- First addresses of the code units that bytes `a` to `a + n − 1` touch. -/
def unitsOf (a n : Nat) : List Nat :=
  let z := unitSize (regionOf a)
  if n == 0 then [] else (List.range ((a + n - 1) / z - a / z + 1)).map fun i => (a / z + i) * z

def insertNat (l : List Nat) (k : Nat) : List Nat :=
  if l.contains k then l else l.filter (· < k) ++ (k :: l.filter (k < ·))

/-- Does any code unit that an access touches read as uncorrectable? -/
def readsPoison (s : State) (a n : Nat) : Bool := (unitsOf a n).any (isPoison s)

/-- The bytes of a read, zero in each code unit that is uncorrectable (12_hbm_lpddr.md R334). -/
def goodBytes (s : State) (a n : Nat) : List Nat :=
  let z := unitSize (regionOf a)
  (unitsOf a n).flatMap fun u =>
    let lo := max a u
    let k := min (a + n) (u + z) - lo
    if isPoison s u then List.replicate k 0 else Memory.read s.mem lo k

/-- The data of a read below every check: zeros where a code unit is uncorrectable (12_hbm_lpddr.md R334). -/
def physRead (s : State) (a n : Nat) : List Nat :=
  if readsPoison s a n then goodBytes s a n else Memory.read s.mem a n

/-- May the drawer words, sideboard lines and granules of the machine need R615's care? False in the common case. -/
def poisonFree (s : State) (a n : Nat) : Bool :=
  s.poison.isEmpty && s.dram.retired.isEmpty && s.dram.fenced.isEmpty &&
  !(match regionOf a with | .hbm => decide (s.dram.poolLow ≤ (a + n) / 0x200000) | _ => false)

/-- Hold a write of a granule in its channel's batch; at 32 held writes the batch drains (R345). -/
def holdWrite (time : Nat) (l : List (DramChan × List (Nat × Nat))) (ch : DramChan) (u : Nat) : List (DramChan × List (Nat × Nat)) :=
  let old := ((l.find? (·.1 == ch)).map (·.2)).getD []
  let rest := l.filter (·.1 != ch)
  if 32 ≤ old.length + 1 then rest else (ch, (u, time) :: old) :: rest

/-- The batches after a write of the granules that `n` bytes from `a` touch. -/
def heldAfter (s : State) (a n : Nat) : List (DramChan × List (Nat × Nat)) :=
  let draw := maskDraw s a
  (unitsOf a n).foldl (fun l u =>
    match (if s.dram.retired.isEmpty then chanAt (if frameOf u == frameOf a then draw else maskDraw s u) u else dramChanOf s u) with
    | some ch => holdWrite s.time l ch u
    | none => l) s.dram.held

/-- Note that DRAM granules received a write: it is held in a batch (R345), and drops a queued write-back (R335). -/
def noteWrite (s : State) (a n : Nat) : State :=
  match regionOf a with
  | .hbm | .lpddr =>
    { s with dram := { s.dram with
        held := heldAfter s a n
        writeBack := s.dram.writeBack.filter fun u => !((unitsOf a n).contains u) } }
  | _ => s

/-- A batch drains: every write that a channel holds is performed, and with them its queued write-backs (R335, R345). -/
def drainWrites (ch : DramChan) (s : State) : State :=
  { s with dram := { s.dram with
      held := s.dram.held.filter (·.1 != ch)
      writeBack := s.dram.writeBack.filter fun u => dramChanOf s u != some ch } }

/-- Every batch drains: a completion needs the writes to be visible, or a MOVE ends (R345). -/
def drainAll (s : State) : State := { s with dram := { s.dram with held := [], writeBack := [] } }

/-- A write below every check, code unit by code unit (R615): a unit covered whole becomes readable; a partly covered
uncorrectable unit keeps its state and the bytes are not stored; a fenced granule discards the write (20_faults.md
R550). -/
def physWrite (s : State) (a : Nat) (bs : List Nat) : State :=
  let n := bs.length
  let s := noteWrite s a n
  if poisonFree s a n then { s with mem := Memory.write s.mem a bs }
  else
    let z := unitSize (regionOf a)
    (unitsOf a n).foldl (fun s u =>
      let lo := max a u
      let hi := min (a + n) (u + z)
      let part := (bs.drop (lo - a)).take (hi - lo)
      if isFenced s u then s
      else if hi - lo == z then
        { s with mem := Memory.write s.mem lo part
                 poison := s.poison.filter (· != u)
                 dram := if (regionOf u == .hbm) && isPoison { s with poison := [] } u
                         then { s.dram with healed := insertNat s.dram.healed u } else s.dram }
      else if isPoison s u then s
      else { s with mem := Memory.write s.mem lo part }) s

/-- Mark code units as uncorrectable, their bytes lost. -/
def markPoison (s : State) (a n : Nat) : State :=
  (unitsOf a n).foldl (fun s u => { s with poison := insertNat s.poison u }) s

/-- Write zeros and fresh check bits over a whole range (R617); the writes drop what was queued for its granules (12_hbm_lpddr.md
R335). -/
def scrubRange (s : State) (a n : Nat) : State :=
  { s with mem := s.mem.filter (fun c => decide (c.1 < a) || decide (a + n ≤ c.1))
           poison := s.poison.filter (fun u => decide (u < a) || decide (a + n ≤ u))
           dram := { s.dram with writeBack := s.dram.writeBack.filter (fun u => decide (u < a) || decide (a + n ≤ u)) } }

/-! A frame whose hash key changes (12_hbm_lpddr.md R340, R341). -/

/-- What the select of an address in a frame changes by when its mask set does, as an exclusive-or with the address. -/
def hashShift (d0 d1 : Option Nat) (f : Nat) : Nat :=
  if f < lpFrame0 then Nat.xor (hashSelect d0 0 13 18 f 0) (hashSelect d1 0 13 18 f 0) * 256
  else Nat.xor (hashSelect d0 16 10 19 (f - lpFrame0) 0) (hashSelect d1 16 10 19 (f - lpFrame0) 0) * 2048

/-- The bytes of a frame stay where they lie in DRAM and so appear at other addresses of it; likewise its uncorrectable granules. -/
def moveGranules (s : State) (f x : Nat) : State :=
  let here (a : Nat) : Bool := frameOf a == some f
  let there (l : List Nat) : List Nat := (l.filter here).foldl (fun m u => insertNat m (Nat.xor u x)) (l.filter fun u => !(here u))
  { s with
    mem := (s.mem.filter fun c => here c.1).foldl (fun m c => Memory.write m (Nat.xor c.1 x) [c.2.toNat])
      (s.mem.filter fun c => !(here c.1))
    poison := there s.poison
    dram := { s.dram with healed := there s.dram.healed } }

/-- The frames with something in them whose mask set differs from what it was in `s0` take the new one (R341). -/
def rehash (s0 s : State) : State :=
  let fs := ((s.mem.map (·.1) ++ s.poison ++ s.dram.healed).filterMap frameOf).eraseDups
  fs.foldl (fun t f =>
    let a := if f < lpFrame0 then f * 0x200000 else 0x010000000000 + (f - lpFrame0) * 0x200000
    let d0 := maskDraw s0 a
    let d1 := maskDraw s a
    if d0 == d1 then t else moveGranules t f (hashShift d0 d1 f)) s

end Sys2Proof.Machine
end

