-- ==== Sys2Proof/Machine/Wire.lean ====
section
/-!
DEFINITION. The fabric below the requests of an MI (15_azoer.md): packets and flits as bytes (R406, R409, R410), the credits and the
replay buffer of a port (R407, R408), routing (R420 to R425), and what leaves this device.
-/
namespace Sys2Proof.Machine

/-! Bytes. -/

/-- The 32 header bytes of a packet (R410). -/
def packetHeader (p : Packet) : List Nat :=
  leBytes 2 p.dst ++ leBytes 2 p.src ++ leBytes 2 (p.vc + (if p.order then 512 else 0) + (p.rsvd % 64) * 1024) ++
  [p.op + 16 * p.aop, p.hopsLeft] ++ leBytes 2 p.len ++ leBytes 2 p.flow ++ leBytes 2 p.fseq ++ leBytes 2 p.tag ++
  leBytes 6 p.addr ++ [p.status, 0] ++ leBytes 4 p.lease ++ [0, 0, 0, 0]

/-- The CRC-32C that a packet carries (R410). -/
def packetCrc (p : Packet) : Nat := crc 0 (packetHeader p ++ p.payload)

def packetBytes (p : Packet) : List Nat := packetHeader p ++ p.payload ++ leBytes 4 p.crc

/-- Flits that a packet takes (R406). -/
def packetFlits (p : Packet) : Nat := ceilDiv (36 + p.payload.length) 244

/-- The bodies of a packet's flits. -/
def packetBodies : Nat → List Nat → List (List Nat)
  | 0, _ => []
  | n + 1, bs => (bs.take 244 ++ List.replicate (244 - min 244 bs.length) 0) :: packetBodies n (bs.drop 244)

/-- The 256 bytes of a flit (R406). -/
def flitBytes (kind seq ack : Nat) (ackValid : Bool) (cvc ccnt : Nat) (body : List Nat) : List Nat :=
  let head := leBytes 8 (kind + seq <<< 4 + ack <<< 16 + (if ackValid then 1 else 0) <<< 28 + cvc <<< 32 + ccnt <<< 41)
  let bs := head ++ (body ++ List.replicate 244 0).take 244
  bs ++ leBytes 4 (crc 1 bs)

/-! Ports. -/

def portAt (s : State) (p : Nat) : Port := s.fab.ports.getD p {}

def setPort (s : State) (p : Nat) (v : Port) : State :=
  { s with fab := { s.fab with ports := s.fab.ports.set p v } }

/-- The register of a port on its edge die (R435). -/
def portReg (id : RegId) (p : Nat) : RegAddr := edgeReg id (p / 3) (p % 3)

/-- AZF_PSTATi.STATE: SLOW shows in place of UP or DEGRADED (R435). -/
def portState (v : Port) : Nat := if 2 ≤ v.state && v.slow then 4 else v.state

/-- A value kept per VC. -/
def vcGet (l : List (Nat × Nat)) (vc : Nat) : Nat := ((l.find? (·.1 == vc)).map (·.2)).getD 0
def vcSet (l : List (Nat × Nat)) (vc n : Nat) : List (Nat × Nat) := upsert (fun e => e.1 == vc) (vc, n) l

/-- The highest SEQ received in order. -/
def ackOf (v : Port) : Nat := (v.rxSeq + 4095) % 4096

/-- Send one flit: it takes the next SEQ and enters the replay buffer; credits owed for one VC return with it (R407,
R408). -/
def sendFlit (s : State) (p kind : Nat) (body : List Nat) : State :=
  let v := portAt s p
  let (cvc, ccnt) := match v.owed.find? (fun e => e.2 != 0) with | some e => e | none => (0, 0)
  let bytes := flitBytes kind v.txSeq (ackOf v) v.rxAny cvc ccnt body
  let v := { v with
    txSeq := (v.txSeq + 1) % 4096
    replay := v.replay ++ [{ seq := v.txSeq, kind := kind, body := body }]
    owed := vcSet v.owed cvc 0 |>.filter (fun e => e.2 != 0) }
  emit (setPort s p v) (.flit p bytes)

/-- Flits that the replay buffer of a port has room for (R407). -/
def replayRoom (v : Port) : Nat := 2048 - v.replay.length

/-- A link control message (R409): its code at byte 8, its fields from byte 10. It waits while the replay buffer is full. -/
def sendControl (s : State) (p code : Nat) (fields : List Nat) : State :=
  let v := portAt s p
  if replayRoom v == 0 || !v.ctl.isEmpty then setPort s p { v with ctl := v.ctl ++ [[code, 0] ++ fields] }
  else sendFlit s p 3 ([code, 0] ++ fields)

/-- May a VC transmit on a port now (R427, R430, R431)? -/
def slotAllows (s : State) (v : Port) (vc : Nat) : Bool :=
  if s.fab.plan.isSome && s.fab.sched != 3 && !v.exited then (if v.slotOpen then vc == 257 else vc != 257) else true

/-- Can a packet leave now: a trained link, credits and replay room for all its flits, no control message waiting, its slot (R407, R408,
R427)? -/
def canSend (s : State) (p : Nat) (k : Packet) : Bool :=
  let v := portAt s p
  2 ≤ v.state && packetFlits k ≤ vcGet v.credits k.vc && packetFlits k ≤ replayRoom v && v.ctl.isEmpty && slotAllows s v k.vc

/-- Put a packet on the link. -/
def putOnLink (s : State) (p : Nat) (k : Packet) : State :=
  let n := packetFlits k
  let v := portAt s p
  let s := setPort s p { v with credits := vcSet v.credits k.vc (vcGet v.credits k.vc - n) }
  ((packetBodies n (packetBytes k)).zipIdx).foldl (fun s b => sendFlit s p (if b.2 == 0 then 1 else 2) b.1) s

/-- Send a packet from a port, or leave it in its VC's queue (R408). -/
def transmit (s : State) (p : Nat) (k : Packet) : State :=
  let v := portAt s p
  if canSend s p k && !(v.queue.any fun q => q.vc == k.vc) then putOnLink s p k
  else setPort s p { v with queue := v.queue ++ [k] }

/-- Send the control messages that wait and now find room (R407). -/
def drainControl (s : State) (p : Nat) : State :=
  let v := portAt s p
  let k := min (replayRoom v) v.ctl.length
  (v.ctl.take k).foldl (fun s b => sendFlit s p 3 b) (setPort s p { v with ctl := v.ctl.drop k })

/-- Send what can now be sent: control messages first; a packet waits behind the earlier packets of its VC. -/
def drainPort (s : State) (p : Nat) : State :=
  let s := if (portAt s p).state < 2 then s else drainControl s p
  let q := (portAt s p).queue
  let s0 := setPort s p { portAt s p with queue := [] }
  (q.foldl (fun (acc : State × List Nat) k =>
    if !(acc.2.contains k.vc) && canSend acc.1 p k then (putOnLink acc.1 p k, acc.2)
    else (setPort acc.1 p { portAt acc.1 p with queue := (portAt acc.1 p).queue ++ [k] }, k.vc :: acc.2)) (s0, [])).1

/-- A packet that has arrived by a port leaves its receive buffer: its VC's credits go back (R408). -/
def freeBuffer (s : State) (p : Nat) (k : Packet) : State :=
  let v := portAt s p
  let n := min (packetFlits k) (vcGet v.held k.vc)
  if n == 0 then s
  else setPort s p { v with held := (vcSet v.held k.vc (vcGet v.held k.vc - n)).filter (fun e => e.2 != 0)
                            owed := vcSet v.owed k.vc (vcGet v.owed k.vc + n) }

/-! Routing. -/

def selfAddr (s : State) : Nat := gnum s .fabAddress

/-- The routing entry of an address (R420, R433). -/
def routeEntry (s : State) (dst : Nat) : Nat :=
  let b := (dget s { id := .fabRouteBlockB, i := dst / 512 }).getD (dst % 512 / 2) 0
  if dst % 2 == 0 then b % 16 else b / 16

/-- The position and dimension fields of an address (R422). -/
def dimField (s : State) (i addr : Nat) : Nat × Nat :=
  let pb := gnum s .fabDimPosBits
  let w0 := gnum s .fabDimW0
  let w1 := gnum s .fabDimW1
  match i with
  | 0 => (addr / 2 ^ pb % 2 ^ w0, w0)
  | 1 => (addr / 2 ^ (pb + w0) % 2 ^ w1, w1)
  | _ => (addr % 2 ^ pb, pb)

/-- default_port of R422: none for this device. -/
def defaultPort (s : State) (dst : Nat) : Option Nat :=
  let self := selfAddr s
  let ports := dget s { id := .fabDimPorts }
  let dim (i : Nat) : Option Nat :=
    let (a, w) := dimField s i dst
    let (b, _) := dimField s i self
    if a == b then none
    else
      let d := (a + 2 ^ w - b) % 2 ^ w
      some (ports.getD (2 * i + (if d ≤ 2 ^ (w - 1) then 0 else 1)) 0xFF)
  match dim 0 with
  | some p => some p
  | none =>
    match dim 1 with
    | some p => some p
    | none =>
      let (a, _) := dimField s 2 dst
      let (b, _) := dimField s 2 self
      if a == b then none else some ((dget s { id := .fabDimFramePorts }).getD a 0xFF)

/-- Is a port eligible for a route through a port whose DETOUR_SLOW is `noSlow` (R416, R423)? -/
def eligible (s : State) (noSlow : Bool) (q : Nat) : Bool :=
  let v := portAt s q
  2 ≤ v.state && v.nbrValid && !(noSlow && v.slow)

/-- Flits in a port's transmit queue (R424). -/
def queueFlits (s : State) (q : Nat) : Nat := ((portAt s q).queue.map packetFlits).sum

/-- The member of a group that a packet takes (R423, R424); none when no member is eligible. -/
def groupMember (s : State) (p : Nat) (k : Packet) : Option Nat :=
  let cfg := rget s (portReg .azfPcfg p)
  let mask := Nat.lor (bits cfg 11 0) (2 ^ p)
  let ms := (setPositions 12 mask).filter (eligible s (bit cfg 24))
  if ms.isEmpty then none
  else
    let key := dget s { id := .fabHashKey }
    let h := crc 0 (key ++ leBytes 2 k.src ++ leBytes 2 k.dst ++ leBytes 2 k.vc ++ leBytes 2 k.flow)
    let m := ms.getD (h % ms.length) p
    if gnum s .fabAdaptiveEnable == 1 && k.vc ≤ 256 && gnum s .fabAdaptiveThreshold < queueFlits s m then
      some (ms.foldl (fun b q => if queueFlits s q < queueFlits s b then q else b) (ms.headD m) |>
        fun b => if queueFlits s b < queueFlits s m then b else m)
    else some m

/-- Where a packet goes: this device, a port, or nowhere (R420 to R425). -/
inductive RouteTo where
  | here
  | port (p : Nat)
  | nowhere
deriving DecidableEq, Repr, Inhabited

def routeTo (s : State) (k : Packet) : RouteTo :=
  if k.dst == selfAddr s then .here
  else
    let e := routeEntry s k.dst
    let primary : Option Nat := if e < 12 then some e else if e == 0xD then defaultPort s k.dst else none
    if e == 0xC || (e == 0xD && primary.isNone) then .here
    else
      match primary with
      | none => .nowhere
      | some p =>
        if 12 ≤ p then .nowhere
        else
          match groupMember s p k with
          | some q => .port q
          | none =>
            let cfg := rget s (portReg .azfPcfg p)
            let dets := [bits cfg 15 12, bits cfg 19 16, bits cfg 23 20]
            match dets.find? (fun q => q < 12 && eligible s (bit cfg 24) q) with
            | some q => .port q
            | none => .nowhere

/-- A response packet to a request (R411): status and DETAIL, ORDER clear (R413). A refusal's DETAIL travels as a two-byte
payload (log entry 21). -/
def answer (s : State) (k : Packet) (op status detail : Nat) (data : List Nat) : Packet :=
  let payload := if status == 0 || status == 6 then data else leBytes 2 detail
  let p : Packet := { dst := k.src, src := selfAddr s, vc := k.vc, op := op, hopsLeft := 32, len := payload.length
                      flow := k.flow, tag := k.tag, status := status, lease := 0, payload := payload, detail := detail }
  { p with crc := packetCrc p }

/-- A packet that no route takes is discarded, and a request's source hears UNREACHABLE (R425). The edge die that counts it
is die 0 for the device's own packets (log entry 21). -/
def unreachableCount (s : State) (e : Nat) : State := rbump s (edgeReg .azfRtctl e 0) 63 48 1

/-- May a device take or send a packet at all (R414)? -/
def addressed (s : State) (k : Packet) : Bool := selfAddr s != 0xFFFF || k.vc == 256

/-- Send a packet of this device: false where no route takes it, or where the device has no address for its VC (R414; log entry
125). -/
def sendPacket (s : State) (k : Packet) : State × Bool :=
  if !(addressed s k) then (s, false)
  else
    match routeTo s k with
    | .port p => (transmit s p k, true)
    | _ => (unreachableCount s 0, false)

/-- The number that the next packet of a flow of this device takes (R410). -/
def nextFseq (s : State) (k : Packet) : Nat :=
  ((s.fab.txFlows.find? fun e => e.1 == k.dst && e.2.1 == k.vc && e.2.2.1 == k.flow).map (·.2.2.2)).getD 0

/-- Give a packet of this device its FSEQ and its CRC (R410). -/
def numberPacket (s : State) (k : Packet) : State × Packet :=
  let n := nextFseq s k
  let k := { k with fseq := n }
  let mine (e : Nat × Nat × Nat × Nat) : Bool := e.1 == k.dst && e.2.1 == k.vc && e.2.2.1 == k.flow
  let flows := upsert mine (k.dst, k.vc, k.flow, (n + 1) % 65536) s.fab.txFlows
  ({ s with fab := { s.fab with txFlows := flows } }, { k with crc := packetCrc k })

/-- Answer a request: the answer takes its place in its own flow and leaves (R410, R411). A request whose SRC is no address gets none
(log entry 125). -/
def sendAnswer (s : State) (a : Packet) : State × Packet :=
  if a.dst == 0xFFFF then (s, a)
  else
    let (s, a) := numberPacket s a
    ((sendPacket s a).1, a)

/-- Answer a request and keep the answer for a repetition (R412). -/
def keepAnswer (s : State) (k a : Packet) : State :=
  let (s, a) := sendAnswer s a
  { s with fab := { s.fab with served :=
    (k, a) :: (s.fab.served.filter fun e => !(e.1.src == k.src && e.1.tag == k.tag)) } }

/-- The answer already given to a request that arrives a second time. -/
def servedBefore (s : State) (k : Packet) : Option Packet :=
  (s.fab.served.find? fun e => { e.1 with hopsLeft := 0, crc := 0 } == { k with hopsLeft := 0, crc := 0 }).map (·.2)

/-! Requests of this device (R411 to R413). -/

/-- Packets of a request's flow that are outstanding (R413). -/
def outstanding (s : State) (k : Packet) : Nat :=
  (s.fab.requests.filter fun r => r.pkt.dst == k.dst && r.pkt.vc == k.vc && r.pkt.flow == k.flow).length

/-- Send a request that its flow has room for: false where it finds no route (R425). -/
def launch (s : State) (r : Request) : State × Bool :=
  let tag := s.fab.nextTag % 65536
  let k := { r.pkt with src := selfAddr s, tag := tag, hopsLeft := 32
                        len := if r.pkt.op == 0 then r.pkt.len else r.pkt.payload.length }
  let (s, k) := numberPacket { s with fab := { s.fab with nextTag := s.fab.nextTag + 1 } } k
  let (s, ok) := sendPacket s k
  if ok then
    ({ s with fab := { s.fab with requests := s.fab.requests ++ [{ r with tag := tag, pkt := k, sent := s.time }] } }, true)
  else (s, false)

/-- What an unroutable request ends with (R425). -/
def unrouted (va : Nat) : Cond := { status := 2, detail := 0x0901, aux := va }

/-- Make a request: it leaves, waits while its flow has 256 packets outstanding (R413), or ends at once for want of a route. -/
def makeRequest (s : State) (r : Request) : State × Option Cond :=
  if 256 ≤ outstanding s r.pkt then ({ s with fab := { s.fab with backlog := s.fab.backlog ++ [r] } }, none)
  else
    let (s, ok) := launch s r
    (s, if ok then none else some (unrouted r.va))

/-- Pieces of an access that cross no 4 KiB boundary of the remote address (R411). -/
def remotePieces : Nat → Nat → Nat → List (Nat × Nat)
  | 0, _, _ => []
  | fuel + 1, a, n =>
    if n == 0 then []
    else
      let k := min n (4096 - a % 4096)
      (a, k) :: remotePieces fuel (a + k) (n - k)

/-- The active lease slot whose window covers an access: of a partition, or of any for a requester that carries none (01_cabinet.md
R33; 11_drawers_tiers.md R320, R326; log entry 126). -/
def leaseFor (s : State) (part : Option Nat) (a n : Nat) : Option Nat :=
  (List.range 256).find? fun k =>
    let st := dnum s .leaseState k 0
    let w := 0x800000000000 + dnum s .leaseWindow k 0
    (st == 3 || st == 4) && (match part with | some q => dnum s .leasePartition k 0 == q | none => true) &&
      decide (w ≤ a ∧ a + n ≤ w + dnum s .leaseSize k 0)

/-- The lease, and the remote address, behind a neighbour-window access (11_drawers_tiers.md R320, R326). -/
def leaseTarget (s : State) (part : Option Nat) (pa n : Nat) : Option (Lease × Nat) :=
  (leaseFor s part pa n).bind fun k =>
    (s.fab.leases.find? fun l => l.side == .borrower && l.slot == k).map fun l =>
      (l, l.remoteBase + (pa - 0x800000000000 - dnum s .leaseWindow k 0))

/-- Send the packets of a neighbour access within one page: READ of `n` bytes, or WRITE of `bs`, on the VC of the lease's partition;
`va` is the address that the requester used (11_drawers_tiers.md R326, R411). -/
def sendNeighbor (s : State) (mi job part : Option Nat) (op pa va n : Nat) (bs : List Nat) : State × Option Cond :=
  match leaseTarget s part pa n with
  | none => (s, some { status := 2, detail := 0x0101, aux := va })
  | some (l, ra) =>
    (remotePieces (n / 4096 + 2) ra n).foldl (fun x p =>
      let k : Packet := { dst := l.peer, vc := dnum s .leasePartition l.slot 0, op := op, addr := p.1, len := p.2
                          lease := dnum s .leaseId l.slot 0
                          payload := if op == 0 then [] else (bs.drop (p.1 - ra)).take p.2 }
      let y := makeRequest x.1 { tag := 0, pkt := k, mi := mi, job := job, va := va + (p.1 - ra), sent := 0 }
      (y.1, match x.2 with | some c => some c | none => y.2)) (s, none)

end Sys2Proof.Machine
end

