-- ==== Sys2Proof/Machine/Access.lean ====
section
/-!
DEFINITION. Checked accesses: fault records and event records (20_faults.md R536 to R538, R613, R616;
05_macro_instructions.md R159 to R162), translation (18_partitions.md R495 to R498), drawer regions and sideboard slices
(11_drawers_tiers.md R299 to R305), leases (01_cabinet.md R33), the tile cache (11_drawers_tiers.md R309 to R313).
-/
namespace Sys2Proof.Machine

/-! Sync home and event rings. -/

/-- The panel that holds a partition's event rings and salvage contexts (R164): none while FREE. -/
def syncHome (s : State) (part : Nat) : Option Nat :=
  let p := pnum s .partitionSyncHome part
  if p < 16 then some p else none

/-- The enabled context of ring `r` of a partition on its sync home panel (R163). -/
def ringCtx (s : State) (part r : Nat) : Option (Nat × Nat) :=
  (syncHome s part).bind fun p =>
    ((List.range 64).find? fun c =>
      let v := rget s (panelReg .jigErbase p c)
      bit v 0 && bits v 3 2 == r && bits v 11 4 == part).map fun c => (p, c)

/-- Is a ring context full (R161)? -/
def ringFull (s : State) (p c : Nat) : Bool :=
  let size := 2 ^ rfield s (panelReg .jigErbase p c) 51 48
  let ptr := rget s (panelReg .jigErptr p c)
  (bits ptr 31 16 + 1) % size == bits ptr 15 0 % size

/-- A ring's PHASE and interrupt state. -/
def ringState (s : State) (p c : Nat) : Ring :=
  (s.jig.rings.find? fun r => r.panel == p && r.c == c).getD { panel := p, c := c }

def setRing (s : State) (r : Ring) : State :=
  { s with jig := { s.jig with rings := upsert (fun x => x.panel == r.panel && x.c == r.c) r s.jig.rings } }

/-- The VF of a partition on a link, 0 for none (R490). -/
def partVf (s : State) (part l : Nat) : Nat := leAt (dget s { id := .partitionVfs, part := part }) (2 * l) 2

/-- The PCIe function that owns a partition for its interrupts (R621). -/
def partFn (s : State) (part : Nat) : Src :=
  if partVf s part 0 != 0 then .vf 0 (partVf s part 0)
  else if partVf s part 1 != 0 then .vf 1 (partVf s part 1)
  else .pf 0

/-- Vectors in a function's MSI-X table (R493). -/
def msixVectors : Src → Nat
  | .vf _ _ => 64
  | _ => 2048

/-- The 32 bytes of an event record (R159). -/
def eventBytes (e : Event) (phase : Bool) (time : Nat) : List Nat :=
  [e.type, e.status, e.opcode, e.queue % 64 + (if e.stopped then 64 else 0) + (if phase then 128 else 0)] ++
  leBytes 2 e.slot ++ [e.panel % 16, e.part] ++ leBytes 4 e.tag ++ leBytes 2 e.detail ++ [0, 0] ++
  leBytes 8 time ++ leBytes 8 e.aux

/-- The 64 bytes of a fault record (20_faults.md R536). -/
def faultBytes (r : FaultRec) : List Nat :=
  [r.cls, r.sev] ++ leBytes 2 r.detail ++ leBytes 4 r.seq ++ leBytes 8 r.time ++
  [r.die, r.unit, r.sub, r.part.getD 0,
   (if r.part.isSome then 1 else 0) + (if r.addr.isSome then 2 else 0), 0, 0, 0] ++
  leBytes 8 (r.addr.getD 0) ++ (r.info ++ List.replicate 32 0).take 32

/-- INFO with the master or 0xFF in byte 32, the direction in byte 33 and a number in bytes 47:40 (R616, ACCESS). -/
def accessInfo (master : Nat) (write : Bool) (pa : Nat) : List Nat :=
  [master, if write then 1 else 0, 0, 0, 0, 0, 0, 0] ++ leBytes 8 pa

/-- INFO of a CONFIG record: local address of the register, value written (R616). -/
def configInfo (addr v : Nat) : List Nat := leBytes 8 addr ++ leBytes 8 v

/-! Translation (R495 to R498). -/

/-- Does a page lie wholly in frames, or in one slice, that a partition owns, or in the neighbour window (R497)? -/
def pageOwned (s : State) (part pa size : Nat) : Bool :=
  match regionOf pa with
  | .hbm | .lpddr =>
    (List.range ((pa + size - 1) / 0x200000 - pa / 0x200000 + 1)).all fun i =>
      match frameOf ((pa / 0x200000 + i) * 0x200000) with
      | some f => ownsFrame s part f
      | none => false
  | .sideboard p =>
    let k := (pa - sideboardBase p) / 0x4000000
    (pa + size - 1 - sideboardBase p) / 0x4000000 == k &&
      bit (leVal (dget s { id := .partitionSlices, part := part })) (16 * p + k)
  | .neighbor => regionOf (pa + size - 1) == .neighbor
  | _ => false

/-- Does a table lie in T2 frames without an owner (R496)? -/
def tableOk (s : State) (a size : Nat) : Bool :=
  regionOf a == .hbm && regionOf (a + size - 1) == .hbm &&
  (match frameOf a with | some f => (frameOwner s f).isNone | none => false) &&
  (match frameOf (a + size - 1) with | some f => (frameOwner s f).isNone | none => false)

/-- The address of the entry that the walk reads in a table of a level. -/
def walkEntry (va level table : Nat) : Nat :=
  table + 8 * (if level == 0 then bits va 47 39 else if level == 1 then bits va 38 30
    else if level == 2 then bits va 29 21 else bits va 20 16)

/-- The walk of R496 from a table at `level` (0 to 3): the page, or the DETAIL of R497. `fuel` bounds the levels. -/
def walkFrom (s : State) (part va : Nat) : Nat → Nat → Nat → Except Nat TlbEntry
  | 0, _, _ => .error 0x0C01
  | fuel + 1, level, table =>
    if !(tableOk s table (if level == 3 then 256 else 4096)) then .error 0x0C03
    else
      let e := leVal (physRead s (walkEntry va level table) 8)
      let leaf := bit e 1
      let addr := bits e 47 8 * 256
      let page (size : Nat) : Except Nat TlbEntry :=
        if addr % size != 0 then .error 0x0C01
        else if !(pageOwned s part addr size) then .error 0x0C03
        else .ok { part := part, va := va / size * size, size := size, pa := addr, read := bit e 2, write := bit e 3 }
      if !(bit e 0) || bits e 7 4 != 0 || bits e 63 48 != 0 then .error 0x0C01
      else if level == 3 then (if leaf then page 0x10000 else .error 0x0C01)
      else if leaf then (if level == 2 then page 0x200000 else .error 0x0C01)
      else if level ≤ 1 && addr % 4096 != 0 then .error 0x0C01
      else walkFrom s part va fuel (level + 1) addr

def walk (s : State) (part va : Nat) : Except Nat TlbEntry :=
  walkFrom s part va 4 0 (pnum s .partitionMmuRoot part)

/-- The uncorrectable granules that the walk reads: the last of them ends it, as its data are zero (12_hbm_lpddr.md R334). -/
def walkBadFrom (s : State) (part va : Nat) : Nat → Nat → Nat → List Nat
  | 0, _, _ => []
  | fuel + 1, level, table =>
    let a := walkEntry va level table
    if !(tableOk s table (if level == 3 then 256 else 4096)) then []
    else if readsPoison s a 8 then [a / 64 * 64]
    else
      let e := leVal (physRead s a 8)
      if level == 3 || bit e 1 || !(bit e 0) then [] else walkBadFrom s part va fuel (level + 1) (bits e 47 8 * 256)

def walkBad (s : State) (part va : Nat) : List Nat := walkBadFrom s part va 4 0 (pnum s .partitionMmuRoot part)

/-- The cached translation of a page (R498). -/
def cached (s : State) (part va : Nat) : Option TlbEntry :=
  s.mmu.tlb.find? fun e => e.part == part && e.va ≤ va && va < e.va + e.size

/-- Capture the first failed translation (PRT_XFAULT). -/
def captureXfault (s : State) (part va detail : Nat) : State :=
  let a := halReg .prtXfault
  if rbit s a 63 then s
  else rset s a (va % 2 ^ 48 + part <<< 48 + (detail % 4) <<< 56 + 1 <<< 63)

/-- Translate one address of a partition for a read or a write: the device-physical address, or the DETAIL of R497. A
walked page is cached until an invalidation covers it (R498; log entry 16). The records of uncorrectable entries are `translate`'s. -/
def translateQuiet (s : State) (part va : Nat) (write : Bool) : Except Nat Nat × State :=
  let found : Except Nat TlbEntry × State :=
    match cached s part va with
    | some e => (.ok e, s)
    | none =>
      match walk s part va with
      | .ok e => (.ok e, { s with mmu := { s.mmu with tlb := e :: s.mmu.tlb } })
      | .error d => (.error d, s)
  match found with
  | (.error d, s) => (.error d, captureXfault s part va d)
  | (.ok e, s) =>
    if (if write then e.write else e.read) then (.ok (e.pa + (va - e.va)), s)
    else (.error 0x0C02, captureXfault s part va 0x0C02)

/-- The pieces of an access that lie in one 64 KiB page each: address and length. -/
def pagePieces : Nat → Nat → Nat → List (Nat × Nat)
  | 0, _, _ => []
  | fuel + 1, a, n =>
    if n == 0 then []
    else
      let k := min n (0x10000 - a % 0x10000)
      (a, k) :: pagePieces fuel (a + k) (n - k)

def pieces (a n : Nat) : List (Nat × Nat) := pagePieces (n / 0x10000 + 2) a n

/-! Requests (R299). -/

/-- Who makes an access: its partition, if it carries one; its master; the panel whose benches, bunting or Inlay
pairs issue it, which its tile caches serve (R310); whether it uses a partition address (20_faults.md R616); the MI, or the job, behind
a neighbour access. -/
structure Req where
  part : Option Nat := none
  master : Nat := 4
  panel : Option Nat := none
  byVa : Bool := false
  mi : Option Nat := none
  job : Option Nat := none
deriving DecidableEq, Repr, Inhabited

/-- Does an enabled region of the master allow a drawer access (R300)? -/
def regionAllows (s : State) (r : Req) (p b off n : Nat) (write : Bool) : Bool :=
  (List.range 8).any fun i =>
    let v := rget s (benchReg .drwRegion p b (8 * r.master + i))
    let base := bits v 21 16
    let limit := bits v 29 24
    bit v 0 && (if write then bit v 2 else bit v 1) &&
    decide (base * 0x10000 ≤ off ∧ off + n ≤ (limit + 1) * 0x10000) &&
    (bit v 3 || (match r.part with | some q => bits v 15 8 == q | none => false))

/-- Do the slices that an access touches allow it (R305)? -/
def sliceAllows (s : State) (r : Req) (p off n : Nat) : Bool :=
  match r.part with
  | none => true
  | some q =>
    (List.range ((off + n - 1) / 0x4000000 - off / 0x4000000 + 1)).all fun i =>
      let v := rget s (panelReg .sbdSlice p (off / 0x4000000 + i))
      bit v 0 && bits v 15 8 == q

/-- Is a range lent out, or not yet scrubbed after its lease ended (R327, R328; log entry 146)? -/
def inLentRange (s : State) (a n : Nat) : Bool :=
  (List.range 64).any fun k =>
    let st := dnum s .lentState k 0
    let b := dnum s .lentBase k 0
    let z := dnum s .lentSize k 0
    (st == 3 || st == 4 || st == 8) && decide (a < b + z) && decide (b < a + n)

/-- What an access below translation is refused for: the ACCESS cause (R616) and the MI's DETAIL; none when allowed. -/
def physRefusal (s : State) (r : Req) (a n : Nat) (write : Bool) : Option (Nat × Nat) :=
  match accessRegion a n with
  | .unmapped | .registers => some (3, 0x0101)
  | .drawer p b => if regionAllows s r p b (a - drawerBase p b) n write then none else some (1, 0x0100)
  | .sideboard p => if sliceAllows s r p (a - sideboardBase p) n then none else some (2, 0x0100)
  | .neighbor => if (leaseFor s r.part a n).isSome then none else some (3, 0x0101)
  | .hbm | .lpddr => if r.part.isNone && inLentRange s a n then some (3, 0x0101) else none

/-- Count and capture a refused drawer access (DRW_RVIOL). -/
def logRviol (s : State) (r : Req) (p b off : Nat) (write : Bool) : State :=
  let a := benchReg .drwRviol p b 0
  let s := rbump s a 55 40 1
  if rbit s a 63 then s
  else
    let v := rget s a
    let v := setBits (setBits (setBits (setBits v 21 0 off) 26 24 r.master) 27 27 (if write then 1 else 0))
      39 32 (r.part.getD 0)
    rset s a (setBits v 63 63 1)

/-! Waking held units (11_drawers_tiers.md R307). -/

/-- The units that an access reaches, of those that can be in retention. -/
def retUnitsOf (a n : Nat) : List (Nat × RetUnit) :=
  match regionOf a with
  | .drawer p b => [(p, .bench b)]
  | .sideboard p =>
    let o := a - sideboardBase p
    (List.range ((o + max n 1 - 1) / 0x4000000 - o / 0x4000000 + 1)).map fun i => (p, .slice (o / 0x4000000 + i))
  | _ => []

def retBit : RetUnit → Nat
  | .bench b => b
  | .slice k => 36 + k

/-- A request or tile reaches a unit that is held or entering: its PWR_RET bit clears and the wake is counted; a held unit starts to
wake, and one that is entering stays awake (R307; log entry 17). -/
def wakeUnit (s : State) (p : Nat) (u : RetUnit) : State :=
  match s.retention.find? (fun e => e.1 == p && e.2.1 == u) with
  | none => s
  | some e =>
    if e.2.2 == .waking then s
    else
      let a := panelReg .pwrRet p 0
      let i := retBit u
      let s := rbump (rsetField s a i i 0) (panelReg .pwrRetstat p 0) 63 52 1
      let others := s.retention.filter fun x => !(x.1 == p && x.2.1 == u)
      { s with retention := if e.2.2 == .held then (p, u, .waking) :: others else others }

/-- Wake what an access of `n` bytes reaches. -/
def wakeFor (s : State) (a n : Nat) : State := (retUnitsOf a n).foldl (fun s u => wakeUnit s u.1 u.2) s

/-! Posting. Fault records and events call on one another: a record that names a partition posts an event (R538), and a
refused event posts a record (R161). `fuel` bounds the chain, which is at most two links long. -/

inductive Post where
  | event (e : Event)
  | fault (r : FaultRec)
deriving Repr, Inhabited

/-- Write one record into an enabled ring with room (R160, R162): the new state, or the refusal's partition and
device-physical addresses. -/
def ringWrite (s : State) (p c : Nat) (e : Event) : Except (State × Nat × Option Nat) State :=
  let base := rget s (panelReg .jigErbase p c)
  let ptr := panelReg .jigErptr p c
  let size := 2 ^ bits base 51 48
  let prod := rfield s ptr 31 16
  let ring := ringState s p c
  let va := bits base 47 12 * 4096 + 32 * (prod % size)
  match translateQuiet s e.part va true with
  | (.error _, s) => .error (s, va, none)
  | (.ok pa, s) =>
    match physRefusal s { part := some e.part } pa 32 true with
    | some _ => .error (s, va, some pa)
    | none =>
      let s := if regionOf pa == .neighbor
        then (sendNeighbor s none none (some e.part) 2 pa va 32 (eventBytes e ring.phase s.time)).1
        else physWrite (wakeFor s pa 32) pa (eventBytes e ring.phase s.time)
      let next := (prod + 1) % size
      let s := rsetField s ptr 31 16 next
      .ok (setRing s { ring with phase := if next == 0 then !ring.phase else ring.phase })

/-- The uncorrectable table entries that a write into a ring meets (12_hbm_lpddr.md R334). -/
def ringBad (s : State) (p c part : Nat) : List Nat :=
  let base := rget s (panelReg .jigErbase p c)
  let va := bits base 47 12 * 4096 + 32 * (rfield s (panelReg .jigErptr p c) 31 16 % 2 ^ bits base 51 48)
  if (cached s part va).isSome then [] else walkBad s part va

/-- Is a function's link trained (21_clocks_power.md R581)? -/
def linkUp (s : State) : Src → Bool
  | .pf l => s.pwr.links.contains l
  | .vf l _ => s.pwr.links.contains l
  | .halyard => s.pwr.rails != .off

/-- Raise a function's vector, or answer none where the vector lies beyond its table (R493); nothing leaves a link that is down. -/
def raiseVector (s : State) (fn : Src) (v : Nat) : Option State :=
  if v < msixVectors fn then some (if linkUp s fn then emit s (.msix fn v) else s) else none

/-- Store a fault record (R536, R538, R613). -/
def storeFault (s : State) (r : FaultRec) : State × FaultRec :=
  let seq := if s.hal.faultSeq == 0xFFFFFFFF then 1 else s.hal.faultSeq + 1
  let r := { r with seq := seq, time := s.time }
  let s := { s with hal := { s.hal with
    faultSeq := seq
    faults := (r :: s.hal.faults).take 1024
    serviceSeq := if r.sev == 4 then seq else s.hal.serviceSeq } }
  let ring := gnum s .faultRing
  if ring == 0 then (s, r)
  else (physWrite s (ring + 64 * (seq % 2 ^ gnum s .faultRingLog2)) (faultBytes r), r)

/-- An event that finds no room: a completion waits, another record is counted or discarded (R161). -/
def holdEvent (s : State) (e : Event) : State :=
  if e.type == 1 then { s with jig := { s.jig with waiting := s.jig.waiting ++ [e] } }
  else
    match ringCtx s e.part e.ring with
    | some (p, c) => rbump s (panelReg .jigErptr p c) 47 32 1
    | none => s

/-- The controller's counts of an uncorrectable granule that a read met, and its fault record (12_hbm_lpddr.md R334, R352;
20_faults.md R616). -/
def ueRecord (s : State) (u : Nat) : State × Option FaultRec :=
  match dramChanOf s u with
  | none => (s, none)
  | some ch =>
    let owner := (frameOf u).bind (frameOwner s)
    let ues := (ch, s.time) :: s.dram.ues.filter (fun e => decide (s.time < e.2 + 1000000000))
    let n := (ues.filter fun e => match e.1, ch with
      | .hbm a b _, .hbm c d _ => a == c && b == d
      | x, y => x == y).length
    let s := { s with dram := { s.dram with ues := ues } }
    let (ecc, ead, off, die, unit, sub, det) : RegAddr × RegAddr × Nat × Nat × Nat × Nat × Nat :=
      match ch with
      | .hbm st c _ => (edgeReg .hbmEcc (st / 2) (st % 2), edgeReg .hbmEaddr (st / 2) (st % 2), u, 5, st, c, 1)
      | .lpddr pk c => (edgeReg .lpxEcc (pk / 4) 0, edgeReg .lpxEaddr (pk / 4) 0, u - 0x010000000000, 6, pk, c, 2)
    let s := rbump s ecc 47 32 1
    let s := if rbit s ecc 63 then s
      else rset (rsetField s ecc 63 63 1) ead (off % 2 ^ 40 + owner.getD 0 <<< 40)
    (s, some { cls := 3, detail := det, die := die, unit := unit, sub := sub, part := owner, addr := some u
               info := leBytes 4 n })

/-- Post an event or a fault record. -/
def post : Nat → State → Post → State
  | 0, s, _ => s
  | fuel + 1, s, .fault r =>
    let (s, r) := storeFault s r
    match r.part with
    | none => s
    | some q =>
      post fuel s (.event
        { ring := 0, type := 3, part := q, panel := if r.die == 0 then r.unit else 0
          detail := if r.cls == 0x0B then 0x0D20 else 0x0E00 + r.cls, aux := r.seq })
  | fuel + 1, s, .event e =>
    match ringCtx s e.part e.ring with
    | none => holdEvent s e
    | some (p, c) =>
      if ringFull s p c then holdEvent s e
      else
        let s := (ringBad s p c e.part).foldl (fun s u =>
          match ueRecord s u with
          | (s, some r) => post fuel s (.fault r)
          | (s, none) => s) s
        match ringWrite s p c e with
        | .error (s, va, pa) =>
          let s := rsetField s (panelReg .jigErbase p c) 0 0 0
          let s := post fuel s (.fault
            { cls := 7, detail := 7, die := 0, unit := p, part := some e.part, addr := pa
              info := accessInfo 0xFF true va })
          holdEvent s e
        | .ok s =>
          let base := rget s (panelReg .jigErbase p c)
          let ring := ringState s p c
          if bit base 1 && !ring.irq then
            let v := bits base 62 52
            match raiseVector s (partFn s e.part) v with
            | some s => setRing s { ring with irq := true }
            | none =>
              post fuel s (.fault
                { cls := 8, detail := 3, die := 0, unit := p, sub := c, part := some e.part
                  info := configInfo (0x030000000000 + regOffset (panelReg .jigErbase p c)) base })
          else s

/-- Post a fault record. -/
def postFault (s : State) (r : FaultRec) : State := post 6 s (.fault r)

/-- Post an event record: a completion waits behind earlier ones of its ring (R161). -/
def postEvent (s : State) (e : Event) : State :=
  if e.type == 1 && s.jig.waiting.any (fun w => w.part == e.part && w.ring == e.ring) then holdEvent s e
  else post 6 s (.event e)

/-- A refused access: its log and its fault record (R32, R301, R305, R614; log entry 49). `va` is the address that the requester
used. -/
def refuseAccess (s : State) (r : Req) (a : Nat) (write : Bool) (cause : Nat) (va : Nat) : State :=
  let s := match regionOf a with
    | .drawer p b => if cause == 1 then logRviol s r p b (a - drawerBase p b) write else s
    | _ => s
  let (die, unit, sub) : Nat × Nat × Nat := match regionOf a with
    | .drawer p b => (0, p, b) | .sideboard p => (0, p, 0) | _ => (4, 0, 0)
  postFault s { cls := 7, detail := cause, die := die, unit := unit, sub := sub, part := r.part, addr := some a
                info := accessInfo r.master write (if r.byVa then va else 0) }

/-! Physical accesses with every check below translation. -/

/-- What an access answers: the data of a read, whether it is POISON, and the condition that an MI behind it meets. -/
structure Got where
  s : State
  bytes : List Nat := []
  poison : Bool := false
  cond : Option Cond := none
deriving Repr, Inhabited

/-- The fault record of an uncorrectable granule and the controller's counts (12_hbm_lpddr.md R334, R352;
20_faults.md R616). -/
def noteUe (s : State) (u : Nat) : State :=
  match ueRecord s u with
  | (s, some r) => postFault s r
  | (s, none) => s

/-- Translate one address of a partition (R495 to R498); an uncorrectable table entry that the walk reads raises its record
(12_hbm_lpddr.md R334). -/
def translate (s : State) (part va : Nat) (write : Bool) : Except Nat Nat × State :=
  let s := if (cached s part va).isSome then s else (walkBad s part va).foldl noteUe s
  translateQuiet s part va write

/-- What a requester holds of a neighbour: the bytes that have arrived for it; 256 marks a byte that came as POISON. -/
def heldPieces (s : State) (r : Req) : List (Nat × List Nat) :=
  match r.mi with
  | some m => ((findFlight s m).map (·.remote)).getD []
  | none => (s.fab.arrived.filter (·.1 == r.part)).map fun e => (e.2.1, e.2.2.1)

/-- The condition that came in place of bytes which a requester without an MI asked for. -/
def heldCond (s : State) (r : Req) (va n : Nat) : Option Cond :=
  if r.mi.isSome then none
  else ((s.fab.arrived.find? fun e => e.1 == r.part && e.2.2.2.isSome && e.2.1 ≤ va + n && va < e.2.1 + e.2.2.1.length).map
    (·.2.2.2)).getD none

/-- The byte of an address among pieces that have arrived. -/
def pieceByte (l : List (Nat × List Nat)) (a : Nat) : Option Nat :=
  (l.find? fun p => p.1 ≤ a && a < p.1 + p.2.length).map fun p => p.2.getD (a - p.1) 0

/-- Read `n` bytes of a neighbour: those that have arrived, or none yet, and then they are asked for (01_cabinet.md R33). -/
def neighborGet (s : State) (r : Req) (pa n va : Nat) : Got :=
  let l := heldPieces s r
  let bs := (List.range n).map fun i => pieceByte l (va + i)
  if bs.all (·.isSome) then
    let vs := bs.map (·.getD 0)
    if vs.any (255 < ·) then { s := s, bytes := List.replicate n 0, poison := true, cond := some { status := 6 } }
    else { s := s, bytes := vs, cond := heldCond s r va n }
  else { s := { s with fab := { s.fab with asks := s.fab.asks ++ [(r.part, va, pa, n)] } }, bytes := List.replicate n 0 }

/-- Read device-physical bytes. -/
def physGet (s : State) (r : Req) (a n : Nat) (va : Nat) : Got :=
  match physRefusal s r a n false with
  | some (cause, detail) =>
    { s := refuseAccess s r a false cause va, bytes := List.replicate n 0, poison := detail == 0x0100
      cond := some { status := 2, detail := detail, aux := if detail == 0x0100 then a else va } }
  | none =>
    if regionOf a == .neighbor then neighborGet s r a n va
    else
      let s := wakeFor s a n
      let bad := (unitsOf a n).filter (isPoison s)
      if bad.isEmpty then { s := s, bytes := Memory.read s.mem a n }
      else
        { s := bad.foldl noteUe s, bytes := goodBytes s a n, poison := true, cond := some { status := 6 } }

/-- The drawer beats that an MI's writes lose (R296). -/
def beatDrops (s : State) (r : Req) : List (Nat × Nat) := ((r.mi.bind (findFlight s)).map (·.drops)).getD []

/-- What is left of a write outside dropped beats. -/
def keptPieces (ds : List (Nat × Nat)) (a : Nat) (bs : List Nat) : List (Nat × List Nat) :=
  ds.foldl (fun ps d => ps.flatMap fun p =>
    let z := p.1 + p.2.length
    if d.1 + d.2 ≤ p.1 || z ≤ d.1 then [p]
    else [(p.1, p.2.take (d.1 - p.1)), (d.1 + d.2, p.2.drop (d.1 + d.2 - p.1))].filter (fun q => !q.2.isEmpty)) [(a, bs)]

/-- Write device-physical bytes; to a neighbour they leave as WRITE packets (11_drawers_tiers.md R326). -/
def physPut (s : State) (r : Req) (a : Nat) (bs : List Nat) (va : Nat) : Got :=
  match physRefusal s r a bs.length true with
  | some (cause, detail) =>
    { s := refuseAccess s r a true cause va
      cond := some { status := 2, detail := detail, aux := if detail == 0x0100 then a else va } }
  | none =>
    if regionOf a == .neighbor then
      let (s, c) := sendNeighbor s r.mi r.job r.part 2 a va bs.length bs
      { s := s, cond := c }
    else
      let s := wakeFor s a bs.length
      match beatDrops s r with
      | [] => { s := physWrite s a bs }
      | ds => { s := (keptPieces ds a bs).foldl (fun s p => physWrite s p.1 p.2) s }

/-! The tile cache (11_drawers_tiers.md R309 to R313). -/

/-- The enabled cache context of a panel that serves a T2 address of a partition (R310). -/
def cacheCtx (s : State) (p part va : Nat) : Option Nat :=
  (List.range 8).find? fun n =>
    let c := rget s (panelReg .sbdCcfg p n)
    let w := rget s (panelReg .sbdCwin p n)
    let base := bits w 47 16 * 0x10000
    bit c 0 && bits c 15 8 == part && decide (base ≤ va ∧ va < base + 2 ^ bits w 5 0)

/-- Where a cache frame lies in the sideboard: frame set × 16 + way of the area (log entry 18). -/
def cacheFrameAddr (s : State) (f : CacheFrame) : Nat :=
  sideboardBase f.panel + (rfield s (panelReg .sbdCcfg f.panel f.n) 29 16 + f.set * 16 + f.way) * 0x10000

/-- Copy bytes between memories, the units in `bad` as uncorrectable. -/
def copyCells (s : State) (src dst n : Nat) (bad : List Nat) : State :=
  bad.foldl (fun t u => markPoison t (dst + (max u src - src)) (min (unitSize (regionOf src)) n))
    (physWrite s dst (Memory.read s.mem src n))

/-- Copy bytes between memories with their uncorrectable units: the units that it reaches wake (R307), and an uncorrectable granule of
DRAM raises its record (12_hbm_lpddr.md R334). -/
def copyPhys (s : State) (src dst n : Nat) : State :=
  let s := wakeFor (wakeFor s src n) dst n
  let bad := (unitsOf src n).filter (isPoison s)
  copyCells (bad.foldl noteUe s) src dst n bad

/-- The access of a cache to a frame of its area (R305): refused where the slice is not its partition's. -/
def frameRefused (s : State) (f : CacheFrame) (write : Bool) : Option State :=
  let r : Req := { part := some (rfield s (panelReg .sbdCcfg f.panel f.n) 15 8), master := 0xFF }
  let a := cacheFrameAddr s f
  (physRefusal s r a 0x10000 write).map fun x => refuseAccess s r a write x.1 0

def setFrame (s : State) (f : CacheFrame) : State :=
  { s with cache := { s.cache with
      frames := upsert (fun x => x.panel == f.panel && x.n == f.n && x.set == f.set && x.way == f.way) f s.cache.frames } }

def dropFrame (s : State) (f : CacheFrame) : State :=
  { s with cache := { s.cache with
      frames := s.cache.frames.filter fun x => !(x.panel == f.panel && x.n == f.n && x.set == f.set && x.way == f.way) } }

/-- Write back a DIRTY frame to HBM4; it becomes CLEAN (R311). -/
def writeBackFrame (s : State) (f : CacheFrame) : State :=
  if f.state == .dirty then
    let part := rfield s (panelReg .sbdCcfg f.panel f.n) 15 8
    match frameRefused s f false with
    | some s => setFrame s { f with state := .clean }
    | none =>
    match translate s part f.addr true with
    | (.ok pa, s) =>
      let s := copyPhys s (cacheFrameAddr s f) pa 0x10000
      rbump (setFrame s { f with state := .clean }) (panelReg .sbdCstat f.panel f.n) 47 32 1
    | (.error _, s) => setFrame s { f with state := .clean }
  else s

/-- The valid frame that holds a partition address. -/
def findFrame (s : State) (p n va : Nat) : Option CacheFrame :=
  s.cache.frames.find? fun f => f.panel == p && f.n == n && f.addr == va / 0x10000 * 0x10000

/-- Install a frame (R309): the INVALID way of its set, or the way least recently installed or hit, written back first when
DIRTY (R311). -/
def installFrame (s : State) (p n va : Nat) (st : FrameState) : State × CacheFrame :=
  let log2 := rfield s (panelReg .sbdCcfg p n) 35 32
  let addr := va / 0x10000 * 0x10000
  let set := (va / 0x10000) % 2 ^ (log2 - 4)
  let here := s.cache.frames.filter fun f => f.panel == p && f.n == n && f.set == set
  let free := (List.range 16).find? fun w => !(here.any fun f => f.way == w)
  let victim := here.foldl (fun (b : Option CacheFrame) f =>
    match b with | none => some f | some g => if f.used < g.used then some f else some g) none
  let way := match free with | some w => w | none => (match victim with | some v => v.way | none => 0)
  let s := match free, victim with
    | none, some v => dropFrame (writeBackFrame s v) v
    | _, _ => s
  let f : CacheFrame := { panel := p, n := n, set := set, way := way, addr := addr, state := st, used := s.cache.clock }
  let s := { s with cache := { s.cache with clock := s.cache.clock + 1 } }
  (rbump (setFrame s f) (panelReg .sbdCstat p n) 31 16 1, f)

/-- The fill of a FILLING frame from HBM4 completes (R311). -/
def fillFrame (s : State) (f : CacheFrame) : State × Option Cond :=
  let part := rfield s (panelReg .sbdCcfg f.panel f.n) 15 8
  match frameRefused s f true with
  | some t => (dropFrame t f, some { status := 2, detail := 0x0100, aux := cacheFrameAddr s f })
  | none =>
  match translate s part f.addr false with
  | (.ok pa, s) => (setFrame (copyPhys s pa (cacheFrameAddr s f) 0x10000) { f with state := .clean }, none)
  | (.error d, s) => (dropFrame s f, some { status := 2, detail := d, aux := f.addr })

/-- A hit: counted, and the frame becomes the most recent. -/
def touchFrame (s : State) (f : CacheFrame) : State :=
  let f := { f with used := s.cache.clock }
  let s := { s with cache := { s.cache with clock := s.cache.clock + 1 } }
  rbump (setFrame s f) (panelReg .sbdCstat f.panel f.n) 15 0 1

/-- The frame that serves an access, present and filled (R311). `whole` says that a write covers the frame. -/
def cacheServe (s : State) (p n va : Nat) (whole : Bool) : State × Option CacheFrame × Option Cond :=
  match findFrame s p n va with
  | some f =>
    if f.state == .filling then
      let (s, c) := fillFrame s f
      (s, findFrame s p n va, c)
    else (touchFrame s f, findFrame (touchFrame s f) p n va, none)
  | none =>
    let (s, f) := installFrame s p n va .filling
    if whole then (setFrame s { f with state := .clean }, some { f with state := .clean }, none)
    else
      let (s, c) := fillFrame s f
      (s, findFrame s p n va, c)

/-! Accesses by partition address. -/

/-- One piece of a read, in one 64 KiB page. -/
def partGet1 (s : State) (r : Req) (part va n : Nat) : Got :=
  match translate s part va false with
  | (.error d, s) =>
    { s := s, bytes := List.replicate n 0, cond := some { status := 2, detail := d, aux := va } }
  | (.ok pa, s) =>
    match r.panel.bind (fun p => (cacheCtx s p part va).map fun c => (p, c)), regionOf pa with
    | some (p, c), .hbm =>
      (match cacheServe s p c va false with
       | (s, some f, none) => physGet s { r with part := some part } (cacheFrameAddr s f + va % 0x10000) n va
       | (s, _, cond) => { s := s, bytes := List.replicate n 0, cond := cond })
    | _, _ => physGet s { r with byVa := true } pa n va

/-- One piece of a write. -/
def partPut1 (s : State) (r : Req) (part va : Nat) (bs : List Nat) : Got :=
  match translate s part va true with
  | (.error d, s) => { s := s, cond := some { status := 2, detail := d, aux := va } }
  | (.ok pa, s) =>
    match r.panel.bind (fun p => (cacheCtx s p part va).map fun c => (p, c)), regionOf pa with
    | some (p, c), .hbm =>
      (match cacheServe s p c va (bs.length == 0x10000) with
       | (s, some f, none) =>
         let g := physPut s { r with part := some part } (cacheFrameAddr s f + va % 0x10000) bs va
         if g.cond.isSome then g else { g with s := setFrame g.s { f with state := .dirty } }
       | (s, _, cond) => { s := s, cond := cond })
    | _, _ => physPut s { r with byVa := true } pa bs va

/-- The first condition of two. -/
def firstCond (a b : Option Cond) : Option Cond := match a with | some c => some c | none => b

/-! Accesses that are checked as a whole (01_cabinet.md R614). -/

/-- The pieces of an access by partition address, in one page each, translated and checked together: partition address, length and
device-physical address; or why it is refused, and then none of its bytes is touched. -/
def wholeAccess (s : State) (r : Req) (part va n : Nat) (write : Bool) : State × Except Cond (List (Nat × Nat × Nat)) :=
  let x := (pieces va n).foldl (fun (x : State × Except Cond (List (Nat × Nat × Nat))) p =>
    match x.2 with
    | .error c => (x.1, .error c)
    | .ok l =>
      match translate x.1 part p.1 write with
      | (.error d, s) => (s, .error { status := 2, detail := d, aux := p.1 })
      | (.ok pa, s) => (s, .ok (l ++ [(p.1, p.2, pa)]))) (s, .ok [])
  match x.2 with
  | .error c => (x.1, .error c)
  | .ok l =>
    let s := x.1
    let r := { r with byVa := true }
    let first := (l.headD (va, n, 0)).2.2
    if !(l.all fun p => accessRegion p.2.2 p.2.1 == regionOf first) then
      (refuseAccess s r first write 3 va, .error { status := 2, detail := 0x0101, aux := va })
    else
      match l.find? fun p => (physRefusal s r p.2.2 p.2.1 write).isSome with
      | some p =>
        let x := (physRefusal s r p.2.2 p.2.1 write).getD (3, 0x0101)
        (refuseAccess s r p.2.2 write x.1 p.1,
         .error { status := 2, detail := x.2, aux := if x.2 == 0x0100 then p.2.2 else p.1 })
      | none => (s, .ok l)

/-- A read of another device, or of a function, by partition address. -/
def wholeGet (s : State) (r : Req) (part va n : Nat) : Got :=
  match wholeAccess s r part va n false with
  | (s, .error c) => { s := s, bytes := List.replicate n 0, poison := c.detail == 0x0100, cond := some c }
  | (s, .ok l) =>
    l.foldl (fun g p =>
      let h := physGet g.s { r with byVa := true } p.2.2 p.2.1 p.1
      { s := h.s, bytes := g.bytes ++ h.bytes, poison := g.poison || h.poison, cond := firstCond g.cond h.cond }) { s := s }

/-- A write of another device, or of a function, by partition address. -/
def wholePut (s : State) (r : Req) (part va : Nat) (bs : List Nat) : Got :=
  match wholeAccess s r part va bs.length true with
  | (s, .error c) => { s := s, cond := some c }
  | (s, .ok l) =>
    l.foldl (fun g p =>
      let h := physPut g.s { r with byVa := true } p.2.2 ((bs.drop (p.1 - va)).take p.2.1) p.1
      { s := h.s, cond := firstCond g.cond h.cond }) { s := s }

/-- Read `n` bytes of a partition's address space. -/
def partGet (s : State) (r : Req) (part va n : Nat) : Got :=
  (pieces va n).foldl (fun g p =>
    let h := partGet1 g.s r part p.1 p.2
    { s := h.s, bytes := g.bytes ++ h.bytes, poison := g.poison || h.poison, cond := firstCond g.cond h.cond })
    { s := s }

/-- Write bytes into a partition's address space. -/
def partPut (s : State) (r : Req) (part va : Nat) (bs : List Nat) : Got :=
  (pieces va bs.length).foldl (fun g p =>
    let h := partPut1 g.s r part p.1 ((bs.drop (p.1 - va)).take p.2)
    { s := h.s, cond := firstCond g.cond h.cond })
    { s := s }

end Sys2Proof.Machine
end

