-- ==== Sys2Proof/Machine/Aes.lean ====
section
/-!
DEFINITION. The ciphers of the sealed container (13_inlay.md R369, R371): AES-256 (FIPS 197), XTS over whole 16-byte blocks
(IEEE 1619) and the GMAC of AES-256-GCM. The standards are named by the spec; the tables are computed from their
definitions.
-/
namespace Sys2Proof.Machine

/-- Multiplication by x in GF(2^8) modulo x^8 + x^4 + x^3 + x + 1 (FIPS 197). -/
def xtime (b : Nat) : Nat := if b < 128 then 2 * b else ((2 * b) % 256) ^^^ 0x1B

/-- Multiplication in GF(2^8), eight bits of `b`. -/
def gmulGo : Nat → Nat → Nat → Nat
  | 0, _, _ => 0
  | n + 1, a, b => (if b % 2 == 1 then a else 0) ^^^ gmulGo n (xtime a) (b / 2)

def gmul (a b : Nat) : Nat := gmulGo 8 a b

/-- The inverse in GF(2^8), a^254, with 0 for 0. -/
def ginv (a : Nat) : Nat :=
  let a2 := gmul a a
  let a4 := gmul a2 a2
  let a8 := gmul a4 a4
  let a16 := gmul a8 a8
  let a32 := gmul a16 a16
  let a64 := gmul a32 a32
  let a128 := gmul a64 a64
  gmul a128 (gmul a64 (gmul a32 (gmul a16 (gmul a8 (gmul a4 a2)))))

def rotl8 (b k : Nat) : Nat := ((b <<< k) % 256) ||| (b >>> (8 - k))

/-- SubBytes on one byte (FIPS 197). -/
def sbox (a : Nat) : Nat :=
  let b := ginv a
  b ^^^ rotl8 b 1 ^^^ rotl8 b 2 ^^^ rotl8 b 3 ^^^ rotl8 b 4 ^^^ 0x63

/-- Inverse of `sbox`. -/
def invSbox (a : Nat) : Nat :=
  ginv (rotl8 a 1 ^^^ rotl8 a 3 ^^^ rotl8 a 6 ^^^ 0x05)

def xorBytes (a b : List Nat) : List Nat := List.zipWith (fun x y => x ^^^ y) a b

/-- ShiftRows on the 16-byte state held column by column. -/
def shiftRows (s : List Nat) : List Nat :=
  (List.range 16).map fun i => s.getD ((i % 4) + 4 * ((i / 4 + i % 4) % 4)) 0

def invShiftRows (s : List Nat) : List Nat :=
  (List.range 16).map fun i => s.getD ((i % 4) + 4 * ((i / 4 + 4 - i % 4) % 4)) 0

/-- One column times the circulant of a row (MixColumns and its inverse). -/
def mixWith (c0 c1 c2 c3 : Nat) (s : List Nat) : List Nat :=
  (List.range 16).map fun i =>
    let col := 4 * (i / 4)
    let r := i % 4
    let at' (k : Nat) := s.getD (col + (r + k) % 4) 0
    gmul c0 (at' 0) ^^^ gmul c1 (at' 1) ^^^ gmul c2 (at' 2) ^^^ gmul c3 (at' 3)

/-- One more word of the AES-256 key schedule; `ws` holds the words so far, newest first. -/
def nextKeyWord (i : Nat) (rcon : Nat) (ws : List (List Nat)) : List Nat :=
  let prev := ws.getD 0 []
  let back := ws.getD 7 []
  let t :=
    if i % 8 == 0 then
      match prev with
      | [a, b, c, d] => [sbox b ^^^ rcon, sbox c, sbox d, sbox a]
      | l => l
    else if i % 8 == 4 then prev.map sbox
    else prev
  xorBytes back t

/-- The 60 schedule words of a 32-byte key, newest first. -/
def keyWords (key : List Nat) : List (List Nat) :=
  let ws0 := ((List.range 8).map fun i => (key.drop (4 * i)).take 4).reverse
  ((List.range 52).foldl
    (fun (st : List (List Nat) × Nat) k =>
      let i := k + 8
      let w := nextKeyWord i st.2 st.1
      (w :: st.1, if i % 8 == 0 then xtime st.2 else st.2))
    (ws0, 1)).1

/-- The 15 round keys. -/
def roundKeys (key : List Nat) : List (List Nat) :=
  let ws := (keyWords key).reverse
  (List.range 15).map fun r => ((ws.drop (4 * r)).take 4).flatten

/-- AES-256 encryption of one 16-byte block (FIPS 197). -/
def aesEncrypt (rks : List (List Nat)) (blk : List Nat) : List Nat :=
  let s0 := xorBytes blk (rks.getD 0 [])
  let s := (List.range 13).foldl
    (fun s r => xorBytes (mixWith 2 3 1 1 (shiftRows (s.map sbox))) (rks.getD (r + 1) [])) s0
  xorBytes (shiftRows (s.map sbox)) (rks.getD 14 [])

/-- AES-256 decryption of one 16-byte block (FIPS 197). -/
def aesDecrypt (rks : List (List Nat)) (blk : List Nat) : List Nat :=
  let s0 := (invShiftRows (xorBytes blk (rks.getD 14 []))).map invSbox
  let s := (List.range 13).foldl
    (fun s r => (invShiftRows (mixWith 14 11 13 9 (xorBytes s (rks.getD (13 - r) [])))).map invSbox) s0
  xorBytes s (rks.getD 0 [])

/-- Multiplication of an XTS tweak by x in GF(2^128), little-endian (IEEE 1619). -/
def xtsDouble (t : Nat) : Nat :=
  if t < 2 ^ 127 then 2 * t else ((2 * t) % 2 ^ 128) ^^^ 0x87

/-- The 16-byte blocks of a string whose length is a multiple of 16. -/
def blocks16 (bs : List Nat) : List (List Nat) :=
  (List.range (bs.length / 16)).map fun i => (bs.drop (16 * i)).take 16

/-- XTS over one data unit of whole blocks (R369). `key` is the 64-byte key pair: data key, then tweak key. -/
def xts (enc : Bool) (key tweak data : List Nat) : List Nat :=
  let k1 := roundKeys (key.take 32)
  let k2 := roundKeys (key.drop 32)
  let t0 := leVal (aesEncrypt k2 tweak)
  ((blocks16 data).foldl
    (fun (st : List Nat × Nat) b =>
      let t := leBytes 16 st.2
      let x := xorBytes b t
      let y := if enc then aesEncrypt k1 x else aesDecrypt k1 x
      (st.1 ++ xorBytes y t, xtsDouble st.2))
    ([], t0)).1

/-- A 16-byte block as the bit string of GHASH: the first bit is the most significant bit of byte 0. -/
def beVal (bs : List Nat) : Nat := bs.foldl (fun s b => s * 256 + b % 256) 0

def beBytes (n x : Nat) : List Nat := (leBytes n x).reverse

/-- Multiplication in GF(2^128) of GCM, `n` bits of `x` left, from its first bit. -/
def ghashMulGo : Nat → Nat → Nat → Nat → Nat
  | 0, _, _, z => z
  | n + 1, x, v, z =>
    let z := if bit x n then z ^^^ v else z
    let v' := if v % 2 == 1 then (v / 2) ^^^ (0xE1 <<< 120) else v / 2
    ghashMulGo n x v' z

def ghashMul (x y : Nat) : Nat := ghashMulGo 128 x y 0

/-- Zero bytes up to a multiple of 16. -/
def pad16 (bs : List Nat) : List Nat := bs ++ List.replicate (roundUp bs.length 16 - bs.length) 0

/-- The GMAC tag of R371: AES-256-GCM with an empty plaintext, a 96-bit IV and additional data. -/
def gmac (key iv aad : List Nat) : List Nat :=
  let rks := roundKeys key
  let h := beVal (aesEncrypt rks (List.replicate 16 0))
  let lens := beBytes 8 (8 * aad.length) ++ beBytes 8 0
  let s := (blocks16 (pad16 aad ++ lens)).foldl (fun y b => ghashMul (y ^^^ beVal b) h) 0
  xorBytes (beBytes 16 s) (aesEncrypt rks (iv ++ [0, 0, 0, 1]))

end Sys2Proof.Machine
end

