-- ==== Sys2Proof/Machine/RegAccess.lean ====
section
/-!
DEFINITION. Register accesses: the access codes (00_scope.md R8 to R13), who may reach a register through a VF
(18_partitions.md R492 to R494), which fields a VF leaves unchanged, and the check of an ENABLE bit
(20_faults.md R616, CONFIG).
-/
namespace Sys2Proof.Machine

/-! Roles and functions (18_partitions.md R492). -/

/-- The partition that a function is bound to. -/
def vfPart (s : State) : Src → Option Nat
  | .vf l n => (List.range 256).find? fun p => partVf s p l == n
  | _ => none

def isVf : Src → Bool | .vf _ _ => true | _ => false

/-! Stored bits (R9). -/

/-- A write of `v` to the stored bits, field by field. -/
def writeFields (fs : List FieldSpec) (old v : Nat) : Nat :=
  fs.foldl (fun x f =>
    match f.acc with
    | .rw => setBits x f.hi f.lo (bits v f.hi f.lo)
    | .w1c => setBits x f.hi f.lo (bits old f.hi f.lo - Nat.land (bits old f.hi f.lo) (bits v f.hi f.lo))
    | .w1s => setBits x f.hi f.lo (Nat.lor (bits old f.hi f.lo) (bits v f.hi f.lo))
    | _ => x) old

/-- A read of bits `hi` to `lo` clears the RC fields that lie wholly in them (R8, R9). -/
def clearRc (fs : List FieldSpec) (x hi lo : Nat) : Nat :=
  fs.foldl (fun x f => if f.acc == .rc && lo ≤ f.lo && f.hi ≤ hi then setBits x f.hi f.lo 0 else x) x

/-! Contexts and their PARTITION fields (R494). -/

/-- The register that holds the PARTITION field of a register's context, and the field. -/
def ctxHolder (a : RegAddr) : Option (RegAddr × Nat × Nat) :=
  match a.id with
  | .cenCtx | .cenSum => some ({ a with id := .cenCtx }, 15, 8)
  | .ldgCtx => some (a, 15, 8)
  | .jigQbase | .jigQdesc | .jigQcfg | .jigQptr => some ({ a with id := .jigQcfg }, 15, 8)
  | .jigErbase | .jigErptr => some ({ a with id := .jigErbase }, 11, 4)
  | .kvpPcfg | .kvpPbase | .kvpPmap | .kvpPctn | .kvpPstat => some ({ a with id := .kvpPcfg }, 15, 8)
  | .jigSalv | .jigSalvb => some ({ a with id := .jigSalv }, 15, 8)
  | .jigRetcfg | .jigRetstat | .jigRetdrop => some ({ a with id := .jigRetcfg }, 15, 8)
  | .sbdCcfg | .sbdCwin | .sbdCstat => some ({ a with id := .sbdCcfg }, 15, 8)
  | .chkCtl | .chkState | .chkCnt | .chkLog => some ({ a with id := .chkCtl }, 15, 8)
  | .mitCtx | .mitCtxb => some ({ a with id := .mitCtx }, 15, 8)
  | .medCtx | .medCptr => some ({ a with id := .medCtx }, 15, 8)
  | .ingPipe | .ingRptr | .ingQstat | .ingSkip => some ({ a with id := .ingPipe }, 15, 8)
  | .sbdSlice => some (a, 15, 8)
  | _ => none

/-- Fields that only the OWNER and the HOST physical function write (R302; the PARTITION fields, "Writable as
JIG_QCFGq.PARTITION"): the mask of bits that a write through a VF leaves unchanged. -/
def hostOnly : RegId → Nat
  | .jigQcfg => 0xFF00 + 0xFFFF0000
  | .jigErbase => 0xFF0
  | .drwRegion | .sbdSlice | .azfPcfg => 2 ^ 64 - 1
  | .pwrRet => 2 ^ 34 - 1
  | .kvpPcfg | .jigSalv | .jigRetcfg | .sbdCcfg | .chkCtl | .mitCtx | .medCtx | .ingPipe => 0xFF00
  | _ => 0

/-- The value that a write of `v` by `src` amounts to: the host-only bits keep what they hold. -/
def effectiveValue (s : State) (src : Src) (a : RegAddr) (v : Nat) : Nat :=
  if isVf src then
    let m := hostOnly a.id
    Nat.lor (Nat.land (rget s a) m) (v - Nat.land v m)
  else v

/-- Is a context index assigned to a partition (R494)? -/
def assignedTo (s : State) (a : RegAddr) (part : Nat) : Bool :=
  match ctxHolder a with
  | none => false
  | some (h, hi, lo) =>
    rfield s h hi lo == part && (if h.id == .sbdSlice then rbit s h 0 else s.mmu.assigned.contains (regOffset h, part))

/-- Does a VF's access reach a register (R494)? -/
def vfReaches (s : State) (part : Nat) (a : RegAddr) (write : Bool) : Bool :=
  (match a.loc with
   | .bench p b => (match logicalOf s p b with | some l => ownsBench s part p l | none => false)
   | _ => false) ||
  assignedTo s a part || (!write && (a.id == .mxuBenchId || a.id == .sfuCap))

/-- A refused VF access (PRT_VIOL, and an ACCESS record under 20_faults.md R616). -/
def logViol (s : State) (src : Src) (part off : Nat) (write : Bool) : State :=
  match src with
  | .vf l n =>
    let a := halReg .prtViol
    let s := rbump s a 59 48 1
    let s := if rbit s a 63 then s
      else
        let keep := bits (rget s a) 59 48
        rset s a (off + n <<< 32 + l <<< 39 + (if write then 1 else 0) <<< 40 + keep <<< 48 + 1 <<< 63)
    postFault s { cls := 7, detail := 4, die := 4, part := some part, addr := some (0x030000000000 + off)
                  info := accessInfo 0xFF write 0 }
  | _ => s

/-- Registers of a spare idle or retired bench read zero and discard writes (01_cabinet.md R38). -/
def benchHidden (s : State) (a : RegAddr) : Bool :=
  match a.loc with
  | .bench p b => a.id != .mxuBenchId && (benchState s p b == 1 || benchState s p b == 3)
  | _ => false

/-- Note that a write of a PARTITION field by the OWNER or the HOST assigns its index (R494). -/
def noteAssigned (s : State) (src : Src) (a : RegAddr) (v : Nat) : State :=
  match ctxHolder a with
  | some (h, hi, lo) =>
    if h == a && !(isVf src) then
      { s with mmu := { s.mmu with assigned := sortedPut s.mmu.assigned (regOffset a) (bits v hi lo) true } }
    else s
  | none => s

/-- Set the stored bits as a write of `v` does (R9). -/
def plainWrite (s : State) (a : RegAddr) (v : Nat) : State :=
  rset s a (writeFields (regFields a.id) (rget s a) v)

/-- The die of a register for a CONFIG record (20_faults.md R616): kind and number. -/
def locDie : Loc → Nat × Nat
  | .bench p _ => (0, p) | .panel p => (0, p) | .edge e => (1, e) | .media m => (2, m)
  | .ingest => (3, 0) | .halyard => (4, 0)

/-- The partition that a CONFIG record of a register names. -/
def locPart (s : State) (a : RegAddr) : Option Nat :=
  (ctxHolder a).map fun h => rfield s h.1 h.2.1 h.2.2

/-- Hardware clears an ENABLE bit and posts a CONFIG record (20_faults.md R616). `v` is the value written. -/
def refuseEnable (s : State) (a : RegAddr) (v : Nat) : State :=
  let s := rsetField s a 0 0 0
  let d := locDie a.loc
  postFault s { cls := 8, detail := 1, die := d.1, unit := d.2, sub := a.i, part := locPart s a
                info := configInfo (0x030000000000 + regOffset a) v }

/-- Does an area of a sideboard, in bytes, lie wholly in slices whose owner is `part` (R305)? -/
def inSlicesOf (s : State) (p part off n : Nat) : Bool :=
  decide (off + n ≤ 0x40000000) && sliceAllows s { part := some part } p off n

/-- Is another context of a set, over the given panels and indices, enabled and serving the same thing (R618)? `same`
compares stored values. -/
def otherServes (s : State) (id : RegId) (panels : List Nat) (count : Nat) (self : RegAddr) (same : Nat → Bool) : Bool :=
  panels.any fun p => (List.range count).any fun i =>
    let a := panelReg id p i
    a != self && (let v := rget s a; bit v 0 && same v)

def allPanels : List Nat := List.range 16

end Sys2Proof.Machine
end

