-- ==== Sys2Proof/Machine/Capability.lean ====
section
/-!
DEFINITION. The capability objects, whole and cut to a partition (19_dictionary.md R513), and what follows a change of them (R514).
-/
namespace Sys2Proof.Machine

/-- A mask of `n` bits. -/
def maskOf (n : Nat) (p : Nat → Bool) : Nat := (List.range n).foldl (fun m i => if p i then m + 2 ^ i else m) 0

/-- Is a register context of a partition assigned on a die? -/
def hasContext (s : State) (id : RegId) (loc : Loc) (n part : Nat) : Bool :=
  (List.range n).any fun i => assignedTo s { id := id, loc := loc, i := i } part

/-- Does a partition own an HBM4 or an LPDDR5X frame? -/
def ownsHbm (s : State) (part : Nat) : Bool := (frameRanges s part).any fun r => r.2 != 0 && r.1 < lpFrame0
def ownsLp (s : State) (part : Nat) : Bool := (frameRanges s part).any fun r => lpFrame0 < r.1 + r.2

/-- Is an HBM4 channel out of service (20_faults.md R549, R550)? -/
def hbmOut (s : State) (st c : Nat) : Bool :=
  s.dram.retired.any (fun r => r.1 == st && r.2.1 == c) || s.dram.fenced.contains (st, c)

/-- The value of a capability object: `part` cuts it to a partition. -/
def capValue (s : State) (id : ObjId) (part : Option Nat) : List Nat :=
  let all (p : Nat → Bool) : Bool := match part with | none => true | some q => p q
  match id with
  | .capPanels => leBytes 2 (maskOf 16 fun p => all fun q => !(benchesOf s q p).isEmpty)
  | .capBenches =>
    (List.range 16).flatMap fun p => leBytes 4 (maskOf 32 fun l => (physOf s p l).isSome && all fun q => ownsBench s q p l)
  | .capSpares => (List.range 16).map (sparesLeft s)
  | .capHbmChannels =>
    (List.range 8).flatMap fun st => leBytes 4 (maskOf 32 fun c => !(hbmOut s st c) && all (ownsHbm s))
  | .capLpddr => leBytes 2 (maskOf 16 fun _ => all (ownsLp s))
  | .capFabricPorts =>
    leBytes 2 (maskOf 12 fun p => (s.fab.ports.getD p {}).state != 0 && all fun q => pnum s .partitionFabricWeight q != 0)
  | .capEdgeUnits => leBytes 4 (maskOf 12 fun i =>
      if i < 4 then all (hasContext s .mitCtx (.edge i) 64)
      else if i < 8 then i < 6 && all fun q => partVf s q (i - 4) != 0
      else all fun q => ownsHbm s q || ownsLp s q)
  | .capMedia => [maskOf 3 fun i =>
      if i < 2 then all (hasContext s .medCtx (.media i) 48) else all (hasContext s .ingPipe .ingest 16)]
  | .capSfuLegacy => [if (List.range 16).all (fun p => (List.range 32).all fun l =>
      match physOf s p l with
      | some b => Config.sfuLegacy p b || !(all fun q => ownsBench s q p l)
      | none => true) then 1 else 0]
  | _ => []

/-- Those whose value can change after a start. -/
def capLive : List ObjId := [.capPanels, .capBenches, .capHbmChannels, .capLpddr, .capFabricPorts, .capEdgeUnits, .capMedia]

/-- The partitions that some object names. -/
def knownParts (s : State) : List Nat := (s.hal.mgmt.dict.map (·.1.part)).eraseDups

/-- What a partition sees of the capabilities, and what the OWNER sees. -/
def capView (s : State) (part : Nat) : List Nat := capLive.flatMap fun id => capValue s id (some part)
def ownerView (s : State) : List Nat := (ObjId.capSpares :: capLive).flatMap fun id => capValue s id none

/-- After a step from `old` that may have changed capabilities: the CAPABILITY record and the partitions' events (R514). -/
def capNote (old s : State) : State :=
  let moved := (knownParts old ++ knownParts s).eraseDups.filter fun q => capView old q != capView s q
  if moved.isEmpty && ownerView old == ownerView s then s
  else
    let s := postFault s { cls := 0x0B }
    moved.foldl (fun s q => postEvent s
      { ring := 0, type := 3, part := q, detail := 0x0D20, aux := s.hal.faultSeq }) s

end Sys2Proof.Machine
end

