-- ==== Sys2Proof/Machine/Val.lean ====
section
/-!
DEFINITION. Exact values and the eleven storage formats: encodings of 02_formats.md R41 to R52, the five rounding modes
R59 and R60, overflow R61, special values R63, underflow R64, and the A48 format R72. A value is exact (a sign, a natural
significand and a power of two); every rounding goes through `roundK` once.
-/
namespace Sys2Proof.Machine

/-- An exact value: NaN, an infinity, or ± m × 2^e. A zero keeps its sign (R43). -/
inductive Val where
  | nan
  | inf (neg : Bool)
  | fin (neg : Bool) (m : Nat) (e : Int)
deriving DecidableEq, Repr, Inhabited

/-- The formats of R41. -/
inductive Fmt where
  | fp32 | bf16 | fp16 | fp12 | e5m2 | e4m3 | e3m2 | e2m3 | e2m1 | int8 | int4 | a48
deriving DecidableEq, Repr, Inhabited

/-- The format of a code (R41); none for the reserved codes 0xB to 0xE. -/
def fmtOfCode : Nat → Option Fmt
  | 0x0 => some .fp32 | 0x1 => some .bf16 | 0x2 => some .fp16 | 0x3 => some .fp12
  | 0x4 => some .e5m2 | 0x5 => some .e4m3 | 0x6 => some .e3m2 | 0x7 => some .e2m3
  | 0x8 => some .e2m1 | 0x9 => some .int8 | 0xA => some .int4 | 0xF => some .a48
  | _ => none

def fmtCode : Fmt → Nat
  | .fp32 => 0x0 | .bf16 => 0x1 | .fp16 => 0x2 | .fp12 => 0x3 | .e5m2 => 0x4 | .e4m3 => 0x5
  | .e3m2 => 0x6 | .e2m3 => 0x7 | .e2m1 => 0x8 | .int8 => 0x9 | .int4 => 0xA | .a48 => 0xF

/-- Bits per element (R41, R72). -/
def fmtBits : Fmt → Nat
  | .fp32 => 32 | .bf16 => 16 | .fp16 => 16 | .fp12 => 12 | .e5m2 => 8 | .e4m3 => 8
  | .e3m2 => 6 | .e2m3 => 6 | .e2m1 => 4 | .int8 => 8 | .int4 => 4 | .a48 => 48

/-- Exponent bits (R43). -/
def fmtE : Fmt → Nat
  | .fp32 => 8 | .bf16 => 8 | .fp16 => 5 | .fp12 => 6 | .e5m2 => 5 | .e4m3 => 4
  | .e3m2 => 3 | .e2m3 => 2 | .e2m1 => 2 | .int8 => 0 | .int4 => 0 | .a48 => 11

/-- Fraction bits (R43). -/
def fmtF : Fmt → Nat
  | .fp32 => 23 | .bf16 => 7 | .fp16 => 10 | .fp12 => 5 | .e5m2 => 2 | .e4m3 => 3
  | .e3m2 => 2 | .e2m3 => 3 | .e2m1 => 1 | .int8 => 0 | .int4 => 0 | .a48 => 36

/-- Exponent bias (R43). -/
def fmtBias : Fmt → Nat
  | .fp32 => 127 | .bf16 => 127 | .fp16 => 15 | .fp12 => 31 | .e5m2 => 15 | .e4m3 => 7
  | .e3m2 => 3 | .e2m3 => 1 | .e2m1 => 1 | .int8 => 0 | .int4 => 0 | .a48 => 1023

def fmtIsInt : Fmt → Bool
  | .int8 | .int4 => true
  | _ => false

/-- The formats that hold infinities (R44). -/
def fmtHasInf : Fmt → Bool
  | .fp32 | .bf16 | .fp16 | .fp12 | .e5m2 | .a48 => true
  | _ => false

/-- The formats that hold NaN (R44). -/
def fmtHasNan : Fmt → Bool
  | .fp32 | .bf16 | .fp16 | .fp12 | .e5m2 | .e4m3 | .a48 => true
  | _ => false

/-- Canonical NaN with the sign bit clear (R44); 0 where the format holds none (R63). -/
def fmtNan : Fmt → Nat
  | .fp32 => 0x7FC00000 | .bf16 => 0x7FC0 | .fp16 => 0x7E00 | .fp12 => 0x7F0 | .e5m2 => 0x7E
  | .e4m3 => 0x7F | .a48 => 0x7FF800000000 | _ => 0

/-- Code of the largest finite value, sign bit clear (R44). -/
def fmtMaxCode : Fmt → Nat
  | .fp32 => 0x7F7FFFFF | .bf16 => 0x7F7F | .fp16 => 0x7BFF | .fp12 => 0x7DF | .e5m2 => 0x7B
  | .e4m3 => 0x7E | .e3m2 => 0x1F | .e2m3 => 0x1F | .e2m1 => 0x7 | .int8 => 0x7F | .int4 => 0x7
  | .a48 => 0x7FEFFFFFFFFF

/-- Code of infinity, sign bit clear (R44); meaningful where `fmtHasInf`. -/
def fmtInfCode (f : Fmt) : Nat := (2 ^ fmtE f - 1) <<< fmtF f

/-- The sign bit's weight. -/
def fmtSign (f : Fmt) : Nat := 2 ^ (fmtBits f - 1)

/-- The binary point of an integer element: 2^-6 for INT8 and 2^-2 for INT4 under MX32, otherwise 2^0 (R52). -/
def intPoint (f : Fmt) (mx : Bool) : Int :=
  if mx then (match f with | .int8 => -6 | .int4 => -2 | _ => 0) else 0

/-- The value that an element code denotes before scales (R43, R44, R52). `mx` says that the scaling mode is MX32 or
MX32 with tensor. -/
def decodeElem (f : Fmt) (mx : Bool) (code : Nat) : Val :=
  if fmtIsInt f then
    let n := toSigned (fmtBits f) code
    .fin (n < 0) n.natAbs (intPoint f mx)
  else
    let fr := bits code (fmtF f - 1) 0
    let ex := bits code (fmtF f + fmtE f - 1) (fmtF f)
    let neg := bit code (fmtBits f - 1)
    let top := 2 ^ fmtE f - 1
    if fmtHasInf f && ex == top then (if fr == 0 then .inf neg else .nan)
    else if f == .e4m3 && ex == top && fr == 7 then .nan
    else if ex == 0 then .fin neg fr (1 - (fmtBias f : Int) - fmtF f)
    else .fin neg (2 ^ fmtF f + fr) ((ex : Int) - fmtBias f - fmtF f)

namespace Val

def isNan : Val → Bool | .nan => true | _ => false
def isInf : Val → Bool | .inf _ => true | _ => false
def isFin : Val → Bool | .fin _ _ _ => true | _ => false
def isZero : Val → Bool | .fin _ m _ => m == 0 | _ => false
def isNeg : Val → Bool | .nan => false | .inf n => n | .fin n _ _ => n
def zero : Val := .fin false 0 0
def one : Val := .fin false 1 0
def ofNat (n : Nat) : Val := .fin false n 0

def neg : Val → Val
  | .nan => .nan
  | .inf n => .inf (!n)
  | .fin n m e => .fin (!n) m e

def abs : Val → Val
  | .nan => .nan
  | .inf _ => .inf false
  | .fin _ m e => .fin false m e

/-- The significand at exponent `q`, for `q` at most the value's own exponent. -/
def sigAt (m : Nat) (e q : Int) : Nat := m <<< (e - q).toNat

/-- Exact sum with IEEE 754 treatment of NaN, infinities and the sign of zero under RNE (R83). -/
def add : Val → Val → Val
  | .nan, _ => .nan
  | _, .nan => .nan
  | .inf a, .inf b => if a == b then .inf a else .nan
  | .inf a, _ => .inf a
  | _, .inf b => .inf b
  | .fin s1 m1 e1, .fin s2 m2 e2 =>
    if m1 == 0 && m2 == 0 then .fin (s1 && s2) 0 0
    else if m1 == 0 then .fin s2 m2 e2
    else if m2 == 0 then .fin s1 m1 e1
    else
      let q := min e1 e2
      let a := sigAt m1 e1 q
      let b := sigAt m2 e2 q
      if s1 == s2 then .fin s1 (a + b) q
      else if a == b then .fin false 0 0
      else if a < b then .fin s2 (b - a) q
      else .fin s1 (a - b) q

def sub (a b : Val) : Val := add a b.neg

/-- Exact product; an infinity times zero is NaN (IEEE 754). -/
def mul : Val → Val → Val
  | .nan, _ => .nan
  | _, .nan => .nan
  | .inf a, .inf b => .inf (a != b)
  | .inf a, .fin b m _ => if m == 0 then .nan else .inf (a != b)
  | .fin a m _, .inf b => if m == 0 then .nan else .inf (a != b)
  | .fin a m1 e1, .fin b m2 e2 => .fin (a != b) (m1 * m2) (e1 + e2)

/-- `v × 2^k`, exact. -/
def scale2 (v : Val) (k : Int) : Val :=
  match v with
  | .fin n m e => .fin n m (e + k)
  | v => v

/-- Numeric order of two values neither of which is NaN; −0 equals +0. -/
def lt : Val → Val → Bool
  | .nan, _ => false
  | _, .nan => false
  | .inf a, .inf b => a && !b
  | .inf a, _ => a
  | _, .inf b => !b
  | .fin s1 m1 e1, .fin s2 m2 e2 =>
    let q := min e1 e2
    let a : Int := if s1 then -(sigAt m1 e1 q : Int) else (sigAt m1 e1 q : Int)
    let b : Int := if s2 then -(sigAt m2 e2 q : Int) else (sigAt m2 e2 q : Int)
    a < b

def le (a b : Val) : Bool := !a.isNan && !b.isNan && !(lt b a)

/-- MAX of R207 and R214: NaN when either is NaN, +0 above −0. -/
def max (a b : Val) : Val :=
  if a.isNan || b.isNan then .nan
  else if lt a b then b else if lt b a then a
  else if a.isNeg then b else a

/-- MIN of R207 and R214: NaN when either is NaN, −0 below +0. -/
def min (a b : Val) : Val :=
  if a.isNan || b.isNan then .nan
  else if lt a b then a else if lt b a then b
  else if a.isNeg then a else b

/-- floor of a finite value. -/
def floorInt : Val → Int
  | .fin s m e =>
    if e ≥ 0 then (let n : Int := (m <<< e.toNat : Nat); if s then -n else n)
    else
      let d := 2 ^ (-e).toNat
      if s then -(((m + d - 1) / d : Nat) : Int) else ((m / d : Nat) : Int)
  | _ => 0

def ofInt (i : Int) : Val := .fin (i < 0) i.natAbs 0

end Val

/-- The rounding modes of R59. -/
inductive RMode where
  | rne | rtz | rup | rdn | sr
deriving DecidableEq, Repr, Inhabited

/-- The mode of a code; none for the reserved codes (R59). -/
def rmodeOfCode : Nat → Option RMode
  | 0 => some .rne | 1 => some .rtz | 2 => some .rup | 3 => some .rdn | 4 => some .sr
  | _ => none

/-- One rounding decision: `k` units are kept and `r / d` of a unit is discarded. `u` is the 24-bit draw of SR (R59,
R60). -/
def roundK (mode : RMode) (neg : Bool) (u k r d : Nat) : Nat :=
  let up : Bool :=
    match mode with
    | .rne => d < 2 * r || (2 * r == d && k % 2 == 1)
    | .rtz => false
    | .rup => !neg && 0 < r
    | .rdn => neg && 0 < r
    | .sr => u < (r <<< 24) / d
  if up then k + 1 else k

/-- floor(log2 (num / den × 2^e)) for positive `num` and `den`. -/
def flog2 (num den : Nat) (e : Int) : Int :=
  let l : Int := (Nat.log2 num : Int) - Nat.log2 den
  let ok : Bool := if l ≥ 0 then den <<< l.toNat ≤ num else den ≤ num <<< (-l).toNat
  (if ok then l else l - 1) + e

/-- `num / den × 2^e` in units of 2^q, rounded to a whole number of units. -/
def roundAt (mode : RMode) (neg : Bool) (u : Nat) (num den : Nat) (e q : Int) : Nat :=
  let n := if e ≥ q then num <<< (e - q).toNat else num
  let d := if e ≥ q then den else den <<< (q - e).toNat
  roundK mode neg u (n / d) (n % d) d

/-- Exponent of the destination's unit in the last place at a magnitude whose log2 is `l` (R61): the subnormal spacing
at the bottom, the integer step for INT formats. -/
def ulpExp (f : Fmt) (mx : Bool) (l : Int) : Int :=
  if fmtIsInt f then intPoint f mx
  else max (l - fmtF f) (1 - (fmtBias f : Int) - fmtF f)

/-- The largest finite magnitude, in units of 2^q (0 units beyond it when `q` is above its own exponent). -/
def maxFinite (f : Fmt) (mx : Bool) : Val :=
  match decodeElem f mx (fmtMaxCode f) with
  | v => v

/-- A rounded conversion: the stored code and what the census sees of it (04_rounding_census_ledger.md R109). -/
structure Conv where
  code : Nat := 0
  ovfInf : Bool := false
  sat : Bool := false
  nanProd : Bool := false
  nanProp : Bool := false
  subn : Bool := false
  under : Bool := false
deriving DecidableEq, Repr, Inhabited

/-- The code of the largest finite value of a sign, or the INT minimum (R61). -/
def satCode (f : Fmt) (neg : Bool) : Nat :=
  if fmtIsInt f then (if neg then fmtSign f else fmtMaxCode f)
  else (if neg then fmtSign f else 0) + fmtMaxCode f

/-- Overflow result of R61 and its record of R62. -/
def overflowResult (f : Fmt) (neg : Bool) (mode : RMode) (sat : Bool) : Conv :=
  let toMax : Conv := { code := satCode f neg, sat := true }
  if sat || !(fmtHasNan f) then toMax
  else
    let keep : Bool :=
      match mode with
      | .rne => false | .rtz => true | .rup => neg | .rdn => !neg | .sr => false
    if keep then toMax
    else if fmtHasInf f then
      { code := (if neg then fmtSign f else 0) + fmtInfCode f, ovfInf := true }
    else { code := fmtNan f, nanProd := true }

/-- The largest finite value of a sign, or the INT minimum, recorded as saturation (R61, R71). -/
def satResult (f : Fmt) (neg : Bool) : Conv := { code := satCode f neg, sat := true }

/-- An infinite source of R63: exact where the format holds infinities. -/
def infResult (f : Fmt) (neg : Bool) (sat : Bool) : Conv :=
  if f == .e4m3 then
    (if sat then { code := satCode f neg, sat := true } else { code := fmtNan f, nanProd := true })
  else if fmtHasInf f then { code := (if neg then fmtSign f else 0) + fmtInfCode f }
  else { code := satCode f neg, sat := true }

/-- Encode `k` units of 2^q, already rounded to the format and inside its range (R43, R52). -/
def encodeUnits (f : Fmt) (neg : Bool) (k : Nat) (q : Int) : Nat :=
  if fmtIsInt f then ofSigned (fmtBits f) (if neg then -(k : Int) else k)
  else
    let s := if neg then fmtSign f else 0
    let (k, q) := if k == 2 ^ (fmtF f + 1) then (2 ^ fmtF f, q + 1) else (k, q)
    if k < 2 ^ fmtF f then s + k
    else s + ((q + fmtF f + fmtBias f).toNat <<< fmtF f) + (k - 2 ^ fmtF f)

/-- Is `k` units of 2^q, with sign, above the format's largest finite value (R61)? -/
def overflows (f : Fmt) (mx neg : Bool) (k : Nat) (q : Int) : Bool :=
  if fmtIsInt f then (if neg then fmtSign f else fmtSign f - 1) < k
  else Val.lt (maxFinite f mx) (.fin false k q)

/-- The conversion of R66 of the exact value `v / den` without scales: NaN, infinity, or one rounding under R59 to R65.
`u` is the SR draw. -/
def convertTo (f : Fmt) (mx : Bool) (mode : RMode) (sat : Bool) (u : Nat) (v : Val) (den : Nat) : Conv :=
  match v with
  | .nan => { code := fmtNan f, nanProp := true }
  | .inf n => infResult f n sat
  | .fin neg m e =>
    if m == 0 then { code := if fmtIsInt f then 0 else (if neg then fmtSign f else 0) }
    else
      let q := ulpExp f mx (flog2 m den e)
      let k := roundAt mode neg u m den e q
      if overflows f mx neg k q then overflowResult f neg mode sat
      else if k == 0 then
        { code := if fmtIsInt f then 0 else (if neg then fmtSign f else 0), under := true }
      else
        { code := encodeUnits f neg k q
          subn := !(fmtIsInt f) && k < 2 ^ fmtF f }

/-- Round `v / den` to a format as a value (working formats FP32 and A48); overflow goes to the result of R61. -/
def roundVal (f : Fmt) (mode : RMode) (sat : Bool) (v : Val) (den : Nat) : Val :=
  match v with
  | .fin neg m e =>
    if m == 0 then .fin neg 0 0
    else
      let q := ulpExp f false (flog2 m den e)
      let k := roundAt mode neg 0 m den e q
      if overflows f false neg k q then decodeElem f false (overflowResult f neg mode sat).code
      else .fin neg k q
  | v => v

/-- RNE into A48 (R83). -/
def rne48 (v : Val) : Val := roundVal .a48 .rne false v 1
/-- RNE into FP32. -/
def rne32 (v : Val) : Val := roundVal .fp32 .rne false v 1
/-- RNE of a quotient into FP32. -/
def rne32q (v : Val) (den : Nat) : Val := roundVal .fp32 .rne false v den
/-- Toward +∞ into A48 and FP32 (08_attention_kv.md R247). -/
def rup48 (v : Val) : Val := roundVal .a48 .rup false v 1
def rup32 (v : Val) : Val := roundVal .fp32 .rup false v 1

/-- The FP32 value of a 32-bit code. -/
def f32 (code : Nat) : Val := decodeElem .fp32 false code
/-- The FP32 code of a value that FP32 holds; others round RNE. -/
def enc32 (v : Val) : Nat := (convertTo .fp32 false .rne false 0 v 1).code
/-- The A48 code of a value that A48 holds; others round RNE. -/
def enc48 (v : Val) : Nat := (convertTo .a48 false .rne false 0 v 1).code
def dec48 (code : Nat) : Val := decodeElem .a48 false code

/-- The A48 sum of R83. -/
def add48 (a b : Val) : Val := rne48 (a.add b)

/-- An E8M0 block scale (R54): a power of two, or NaN for 0xFF. -/
def e8m0 (code : Nat) : Val := if code == 0xFF then .nan else .fin false 1 ((code : Int) - 127)

/-- The element's largest power for MX32 output (R69). -/
def mxElemPow : Fmt → Int
  | .e5m2 => 15 | .e4m3 => 8 | .e3m2 => 4 | .e2m3 => 2 | .e2m1 => 2 | _ => 0

end Sys2Proof.Machine
end

