-- ==== Sys2Proof/Machine/Sums.lean ====
section
/-!
DEFINITION. Exact block sums and the canonical reduction order: operand groups R76, the block register R77 to R81, wide
and single blocks R82, A48 addition R83, the tree R85, the carry stack R86 to R88, and combiners R89 to R93
(03_exact_sums.md); the Philox generator of 04_rounding_census_ledger.md R100 to R102.
-/
namespace Sys2Proof.Machine

/-- The operand groups of R76. -/
inductive PairKind where
  | narrow | wide | single
deriving DecidableEq, Repr, Inhabited

def fmtNarrow : Fmt → Bool
  | .e5m2 | .e4m3 | .e3m2 | .e2m3 | .e2m1 | .int8 | .int4 => true
  | _ => false

def fmtWide : Fmt → Bool
  | .bf16 | .fp16 | .fp12 => true
  | _ => false

/-- The group that two operand formats share, or none (R76). -/
def pairKind (a b : Fmt) : Option PairKind :=
  if fmtNarrow a && fmtNarrow b then some .narrow
  else if fmtWide a && fmtWide b then some .wide
  else if (a == .fp32 && (b == .fp32 || fmtWide b)) || (b == .fp32 && fmtWide a) then some .single
  else none

/-- A value on its way to an output, with what the census needs of its history: whether a contributing operand element or
scale is NaN (R109), and whether a step before the final conversion turned finite values infinite or a non-zero value
to zero (R612). -/
structure Acc where
  v : Val := .fin false 0 0
  /-- The exact value is `v / den`: a mean is an exact quotient until its conversion. -/
  den : Nat := 1
  nanIn : Bool := false
  ovf : Bool := false
  under : Bool := false
  /-- Overflow, saturation and underflow that the census records whatever the element becomes (02_formats.md R68,
  07_row_functions.md R198). -/
  recOvf : Bool := false
  recSat : Bool := false
  recUnder : Bool := false
  /-- An element that updates no census (09_sliding_window.md R268). -/
  mute : Bool := false
deriving DecidableEq, Repr, Inhabited

/-- The history of a value formed from two others. -/
def Acc.join (a b : Acc) (v : Val) : Acc :=
  { v := v, nanIn := a.nanIn || b.nanIn, ovf := a.ovf || b.ovf, under := a.under || b.under
    recOvf := a.recOvf || b.recOvf, recSat := a.recSat || b.recSat, recUnder := a.recUnder || b.recUnder }

/-- A step that rounds a value: overflow and underflow noted for R612. -/
def Acc.step (a : Acc) (exact v : Val) : Acc :=
  { a with v := v, ovf := a.ovf || (exact.isFin && v.isInf), under := a.under || (v.isZero && !exact.isZero) }

/-- The A48 sum of two partial values (R83, R612). -/
def addAcc (a b : Acc) : Acc :=
  (a.join b (a.v.add b.v)).step (a.v.add b.v) (add48 a.v b.v)

/-- The block register of R77 and R78: the exact sum of the products, in units of 2^-32. -/
def blockRegister (ps : List (Val × Val)) : Int :=
  ps.foldl (fun s p =>
    match p.1.mul p.2 with
    | .fin n m e => let k : Int := (m <<< (e + 32).toNat : Nat); if n then s - k else s + k
    | _ => s) 0

/-- A block value of a narrow pair (R78 to R81). `ps` holds the block's in-bound element pairs before any scale; the block is
completed to 32 with exact zeros. For R80 a zero product counts as −0 by the exclusive or of its factors' signs, that of an integer
element being its number's: DESIGN CHOICE, log entry 127. -/
def narrowBlock (ps : List (Val × Val)) (xa xb : Val) : Acc :=
  if xa.isNan || xb.isNan || ps.any (fun p => p.1.isNan || p.2.isNan) then { v := .nan, nanIn := true }
  else
    let prods := ps.map fun p => p.1.mul p.2
    let bad := prods.any Val.isNan
    let pinf := prods.contains (.inf false)
    let ninf := prods.contains (.inf true)
    if bad || (pinf && ninf) then { v := .nan }
    else if pinf then { v := .inf false }
    else if ninf then { v := .inf true }
    else
      let s := blockRegister ps
      if s == 0 then { v := .fin (ps.length == 32 && prods.all Val.isNeg) 0 0 }
      else
        { v := rne48 (((Val.fin (s < 0) s.natAbs (-32)).mul xa).mul xb) }

/-- One level of the tree of R85: neighbours are added, a last node without a sibling passes up unchanged. -/
def pairUp : List Acc → List Acc
  | a :: b :: rest => addAcc a b :: pairUp rest
  | l => l

/-- The tree of R85 over its leaves, `fuel` levels at most. -/
def treeGo : Nat → List Acc → Acc
  | _, [] => {}
  | _, [a] => a
  | 0, a :: _ => a
  | fuel + 1, l => treeGo fuel (pairUp l)

/-- The root of R85; +0 without leaves. -/
def treeRoot (l : List Acc) : Acc := treeGo l.length l

/-- A block value of a wide or single pair (R82): each product in A48, then the tree over element index 0 to 31. -/
def wideBlock (ps : List (Val × Val)) : Acc :=
  let leaf (p : Val × Val) : Acc :=
    { v := rne48 (p.1.mul p.2), nanIn := p.1.isNan || p.2.isNan }
  treeRoot (ps.map leaf ++ List.replicate (32 - ps.length) ({} : Acc))

/-- The block value of a pair of a group. Block scales act only on narrow pairs (R41, R79, R82). -/
def blockValue (k : PairKind) (ps : List (Val × Val)) (xa xb : Val) : Acc :=
  match k with
  | .narrow => narrowBlock ps xa xb
  | _ => wideBlock ps

/-! The carry stack (R86 to R88). -/

/-- A stack entry: level, absolute index of its first block, value. -/
structure CarryEntry where
  level : Nat
  first : Nat
  acc : Acc
deriving DecidableEq, Repr, Inhabited

/-- Merge true siblings at the top (the loop of carry_push). The head of the list is the top of the stack. -/
def carryMerge : Nat → List CarryEntry → List CarryEntry
  | 0, st => st
  | fuel + 1, t :: b :: rest =>
    if t.level == b.level && b.first % 2 ^ (b.level + 1) == 0 then
      carryMerge fuel ({ level := b.level + 1, first := b.first, acc := addAcc b.acc t.acc } :: rest)
    else t :: b :: rest
  | _ + 1, st => st

def carryPush (st : List CarryEntry) (e : CarryEntry) : List CarryEntry :=
  carryMerge (st.length + 1) (e :: st)

/-- carry_finish: fold from the top. -/
def carryFold : List CarryEntry → Acc
  | [] => {}
  | t :: rest => rest.foldl (fun a b => addAcc b.acc a) t.acc

/-- The root that a bench's carry stack returns for block values in ascending absolute index. -/
def carryRoot (blocks : List Acc) : Acc :=
  carryFold ((blocks.zipIdx).foldl (fun st p => carryPush st { level := 0, first := p.2, acc := p.1 }) [])

/-! Combiners (R89 to R93). -/

/-- Is the range of a partial a node of the tree over `nb` blocks (R89)? -/
def isNodeRange (nb first count : Nat) (aligned : Bool) : Bool :=
  aligned || (first + count == nb && first % 2 ^ clog2 count == 0)

/-- Does a range, by its numbers alone, form an aligned node: what FLAGS.ALIGNED says (02_formats.md R73). -/
def rangeAligned (first count : Nat) : Bool :=
  2 ^ clog2 count == count && first % count == 0

/-- N(j, i) of R85 when the values at hand are `es` (first block, count, value), with `add` for its additions: a value whose
range is the node's, else the sum of the children, else the one child present (promotion, R90; absent blocks, R91). -/
def nodeBy (add : Acc → Acc → Acc) (nb : Nat) (es : List (Nat × Nat × Acc)) : Nat → Nat → Option Acc
  | j, i =>
    let lo := i * 2 ^ j
    let hi := min ((i + 1) * 2 ^ j) nb
    if nb ≤ lo then none
    else
      match es.find? (fun e => e.1 == lo && e.2.1 == hi - lo) with
      | some e => some e.2.2
      | none =>
        match j with
        | 0 => none
        | j + 1 =>
          match nodeBy add nb es j (2 * i), nodeBy add nb es j (2 * i + 1) with
          | some a, some b => some (add a b)
          | some a, none => some a
          | none, some b => some b
          | none, none => none

/-- What a combiner returns for one output element: the tree over the canonical values, plus the irregular sum (R90,
R91). `irr` are the non-canonical values in arrival order. -/
def combineBy (add : Acc → Acc → Acc) (nb : Nat) (canon : List (Nat × Nat × Acc)) (irr : List Acc) : Acc :=
  let root : Acc := (nodeBy add nb canon (clog2 nb) 0).getD {}
  match irr with
  | [] => root
  | a :: rest => add root (rest.foldl add a)

/-- The combination in A48. -/
def combineElem : Nat → List (Nat × Nat × Acc) → List Acc → Acc := combineBy addAcc

/-- Do ranges (first, count) cover blocks 0 to nb − 1 exactly once (R93)? -/
def coverageOk (nb : Nat) (ranges : List (Nat × Nat)) : Bool :=
  ranges.all (fun r => 0 < r.2 && r.1 + r.2 ≤ nb) &&
  (ranges.map (·.2)).sum == nb &&
  (List.range ranges.length).all (fun i => (List.range ranges.length).all (fun j =>
    i == j ||
      (match ranges[i]?, ranges[j]? with
       | some a, some b => decide (a.1 + a.2 ≤ b.1) || decide (b.1 + b.2 ≤ a.1)
       | _, _ => true)))

/-! Philox-4×32-10 (04_rounding_census_ledger.md R100 to R102). -/

/-- One round of R101. -/
def philoxRound (c : Nat × Nat × Nat × Nat) (k : Nat × Nat) : Nat × Nat × Nat × Nat :=
  let p0 := 0xD2511F53 * c.1
  let p1 := 0xCD9E8D57 * c.2.2.1
  ((p1 / 2 ^ 32) ^^^ c.2.1 ^^^ k.1, p1 % 2 ^ 32, (p0 / 2 ^ 32) ^^^ c.2.2.2 ^^^ k.2, p0 % 2 ^ 32)

/-- The function of R101. -/
def philox (c : Nat × Nat × Nat × Nat) (k : Nat × Nat) : Nat × Nat × Nat × Nat :=
  (List.range 10).foldl (fun c r =>
    philoxRound c ((k.1 + r * 0x9E3779B9) % 2 ^ 32, (k.2 + r * 0xBB67AE85) % 2 ^ 32)) c

/-- The 24-bit draw of R60 for one element: key and counter words of R100, bits [31:8] of output word 0 (R102). -/
def srDraw (seed index step tensorId : Nat) : Nat :=
  let o := philox (index % 2 ^ 32, index / 2 ^ 32 % 2 ^ 32, step, tensorId)
    (seed % 2 ^ 32, seed / 2 ^ 32 % 2 ^ 32)
  o.1 / 256

end Sys2Proof.Machine
end

