-- ==== Sys2Proof/Machine/Census.lean ====
section
/-!
DEFINITION. The overflow census and the scale ledger (04_rounding_census_ledger.md R109 to R123, R612).
-/
namespace Sys2Proof.Machine

/-! Records (R113). -/

/-- A census: of a tile, of an MI on a panel, or of a record. `amax` is an FP32 code. -/
structure Cen where
  ovfInf : Bool := false
  sat : Bool := false
  nanProd : Bool := false
  nanProp : Bool := false
  subn : Bool := false
  nonCanon : Bool := false
  mixed : Bool := false
  valid : Bool := false
  under : Nat := 0
  amax : Nat := 0
  tensorId : Nat := 0
  elements : Nat := 0
  satCnt : Nat := 0
  nanCnt : Nat := 0
deriving DecidableEq, Repr, Inhabited

/-- The larger of two FP32 codes of values that are not negative. -/
def maxCode32 (a b : Nat) : Nat := if Val.lt (f32 a) (f32 b) then b else a

/-- The merge of R112. -/
def cenMerge (a b : Cen) : Cen :=
  if !a.valid then (if b.valid then b else {})
  else if !b.valid then a
  else
    { ovfInf := a.ovfInf || b.ovfInf, sat := a.sat || b.sat, nanProd := a.nanProd || b.nanProd
      nanProp := a.nanProp || b.nanProp, subn := a.subn || b.subn, nonCanon := a.nonCanon || b.nonCanon
      mixed := a.mixed || b.mixed || a.tensorId != b.tensorId
      valid := true
      under := satAdd 32 a.under b.under
      amax := maxCode32 a.amax b.amax
      tensorId := min a.tensorId b.tensorId
      elements := (a.elements + b.elements) % 2 ^ 64
      satCnt := satAdd 32 a.satCnt b.satCnt
      nanCnt := satAdd 32 a.nanCnt b.nanCnt }

def boolBit (b : Bool) (i : Nat) : Nat := if b then 2 ^ i else 0

def cenFlags (c : Cen) : Nat :=
  boolBit c.ovfInf 0 + boolBit c.sat 1 + boolBit c.nanProd 2 + boolBit c.nanProp 3 + boolBit c.subn 4 +
  boolBit c.nonCanon 5 + boolBit c.mixed 6 + boolBit c.valid 7

/-- The 64 bytes of a record (R113). -/
def cenBytes (c : Cen) : List Nat :=
  leBytes 4 (cenFlags c) ++ leBytes 4 c.under ++ leBytes 4 c.amax ++ leBytes 4 c.tensorId ++ leBytes 8 c.elements ++
  leBytes 4 c.satCnt ++ leBytes 4 c.nanCnt ++ List.replicate 32 0

def cenOfBytes (bs : List Nat) : Cen :=
  let f := leAt bs 0 4
  { ovfInf := bit f 0, sat := bit f 1, nanProd := bit f 2, nanProp := bit f 3, subn := bit f 4, nonCanon := bit f 5
    mixed := bit f 6, valid := bit f 7, under := leAt bs 4 4, amax := leAt bs 8 4, tensorId := leAt bs 12 4
    elements := leAt bs 16 8, satCnt := leAt bs 24 4, nanCnt := leAt bs 28 4 }

/-- AMAX of one exact value (R111): its magnitude rounded toward +∞ to FP32. -/
def amaxOf (a : Acc) : Nat :=
  match a.v with
  | .nan => 0
  | .inf _ => 0x7F800000
  | .fin _ m e => (convertTo .fp32 false .rup false 0 (.fin false m e) a.den).code

/-- The census of one written element (R109, R111, R612): the value `a` before scales with its history, the conversion `c`
into format `f`. A NaN in a format that holds one counts by its origin: NAN_PROP when an operand was NaN, NAN_PROD when an operation
of the MI made it; in a format without NaN it is NAN_PROP, as the NaN row of R63 reads: DESIGN CHOICE, log entry 105. -/
def cenElem (f : Fmt) (tensorId : Nat) (a : Acc) (c : Conv) : Cen :=
  let wasInf := fmtHasInf f && c.code % fmtSign f == fmtInfCode f
  let isZero := c.code % fmtSign f == 0 && (!(fmtIsInt f) || c.code == 0)
  let prop := c.nanProp && (a.nanIn || !(fmtHasNan f))
  let prod := c.nanProd || (c.nanProp && !prop)
  let under := c.under || (a.under && isZero) || a.recUnder
  let sat := c.sat || a.recSat
  { ovfInf := c.ovfInf || (a.ovf && wasInf) || (a.recOvf && !(c.sat || prod || prop)), sat := sat, nanProd := prod, nanProp := prop, subn := c.subn
    valid := true, under := if under then 1 else 0, amax := amaxOf a, tensorId := tensorId, elements := 1
    satCnt := if sat then 1 else 0, nanCnt := if prod || prop then 1 else 0 }

/-! Areas (R115, R118, R120). -/

/-- The enabled context of a set that names a partition on a panel. -/
def areaCtx (s : State) (id : RegId) (p part : Nat) : Option Nat :=
  (List.range 16).find? fun n => let v := rget s (panelReg id p n); bit v 0 && bits v 15 8 == part

/-- The address of record `e` of `size` bytes of an area context, or none where the area does not hold it. -/
def areaAddr (s : State) (id : RegId) (p n size e : Nat) : Option Nat :=
  let v := rget s (panelReg id p n)
  if e ≤ bits v 27 16 then some (sideboardBase p + bits v 45 32 * 0x10000 + size * e) else none

/-- Raise summary bits, with the events of R118. `e` is the census entry of the merge. -/
def raiseSummary (s : State) (p n part e bitsUp : Nat) : State :=
  (List.range 8).foldl (fun s k =>
    let a := panelReg .cenSum p n
    if bit bitsUp k && !(rbit s a k) then
      let s := rsetField s a k k 1
      if rbit s a (16 + k) then
        postEvent s { ring := 0, type := 2, panel := p, part := part, detail := k, aux := e }
      else s
    else s) s

/-- The summary bits of a merge (CEN_SUMn). -/
def summaryBits (c : Cen) : Nat :=
  boolBit c.ovfInf 0 + boolBit c.sat 1 + boolBit c.nanProd 2 + boolBit c.nanProp 3 + boolBit c.subn 4 +
  boolBit c.nonCanon 5 + boolBit (c.under != 0) 6

/-- Count a merge or a summary update that finds no context (CEN_ORPHAN). -/
def orphan (s : State) (part p : Nat) : State :=
  let a := panelReg .cenOrphan p 0
  let s := rbump s a 47 32 1
  if rbit s a 63 then s else rsetField (rsetField s a 7 0 part) a 63 63 1

/-- The device's own request for a partition's census or ledger records, checked as every sideboard request is
(11_drawers_tiers.md R305). -/
def areaReq (part : Nat) : Req := { part := some part, master := 0xFF }

/-- The bytes of a record; none where the slice is refused, with the state that records it. -/
def recordGet (s : State) (part a n : Nat) : State × Option (List Nat) :=
  let g := physGet s (areaReq part) a n a
  (g.s, if (g.cond.map (·.status)) == some 2 then none else some g.bytes)

/-- Write a record; a refused slice keeps its bytes. -/
def recordPut (s : State) (part a : Nat) (bs : List Nat) : State := (physPut s (areaReq part) a bs a).s

/-- Merge a tile's census on one panel into entry `e` (R114, R115): the state, and whether the merge was discarded because
the area does not hold the entry. -/
def mergeRecord (s : State) (part p e : Nat) (c : Cen) : State × Bool :=
  if !c.valid then (s, false)
  else
    match areaCtx s .cenCtx p part with
    | none => (orphan s part p, false)
    | some n =>
      match areaAddr s .cenCtx p n 64 e with
      | none => (s, true)
      | some a =>
        match recordGet s part a 64 with
        | (s, some old) => (recordPut s part a (cenBytes (cenMerge (cenOfBytes old) c)), false)
        | (s, none) => (s, false)

/-- Update the summary of one panel, with the events of R118. -/
def mergeSummary (s : State) (part p e up : Nat) : State :=
  match areaCtx s .cenCtx p part with
  | none => orphan s part p
  | some n => raiseSummary s p n part e up

/-- The merged record of an entry over every panel that holds it (R117), and the state with each record emptied when
`clear` is set. -/
def readCensus (s : State) (part e : Nat) (clear : Bool) : Cen × State :=
  allPanels.foldl (fun st p =>
    match (areaCtx st.2 .cenCtx p part).bind (fun n => areaAddr st.2 .cenCtx p n 64 e) with
    | none => st
    | some a =>
      match recordGet st.2 part a 64 with
      | (s, some old) => (cenMerge st.1 (cenOfBytes old), if clear then recordPut s part a (List.replicate 64 0) else s)
      | (s, none) => (st.1, s)) ({}, s)

/-- The OR of a partition's summaries (R117). -/
def summaryOr (s : State) (part : Nat) : Nat :=
  allPanels.foldl (fun x p =>
    match areaCtx s .cenCtx p part with
    | some n => Nat.lor x (rfield s (panelReg .cenSum p n) 7 0)
    | none => x) 0

/-! The ledger (R119 to R122). -/

/-- A partition's ledger: home panel and context (R120). -/
def ledgerHome (s : State) (part : Nat) : Option (Nat × Nat) :=
  allPanels.findSome? fun p => (areaCtx s .ldgCtx p part).map fun n => (p, n)

/-- Entries of a partition's ledger (R141); 0 without a home panel. -/
def ledgerSize (s : State) (part : Nat) : Nat :=
  match ledgerHome s part with
  | some (p, n) => rfield s (panelReg .ldgCtx p n) 27 16 + 1
  | none => 0

/-- The address of a ledger entry. -/
def ledgerAddr (s : State) (part e : Nat) : Option Nat :=
  (ledgerHome s part).bind fun (p, n) => areaAddr s .ldgCtx p n 128 e

/-- A ledger entry (R119). -/
structure Ledger where
  history : List Nat
  scale : Nat
  proposed : Nat
  avg : Nat
  scaleE : Nat
  proposedE : Nat
  head : Nat
  count : Nat
  format : Nat
  margin : Nat
  policy : Nat
  flags : Nat
  alpha : Nat
  updates : Nat
  rest : List Nat
deriving DecidableEq, Repr, Inhabited

def ledgerOfBytes (b : List Nat) : Ledger :=
  { history := (List.range 16).map fun i => leAt b (4 * i) 4
    scale := leAt b 64 4, proposed := leAt b 68 4, avg := leAt b 72 4, scaleE := b.getD 76 0
    proposedE := b.getD 77 0, head := b.getD 78 0, count := b.getD 79 0, format := b.getD 80 0
    margin := b.getD 81 0, policy := b.getD 82 0, flags := b.getD 83 0, alpha := leAt b 84 4
    updates := leAt b 88 8, rest := b.drop 96 }

def ledgerBytes (l : Ledger) : List Nat :=
  l.history.flatMap (leBytes 4) ++ leBytes 4 l.scale ++ leBytes 4 l.proposed ++ leBytes 4 l.avg ++
  [l.scaleE, l.proposedE, l.head, l.count, l.format, l.margin, l.policy, l.flags] ++ leBytes 4 l.alpha ++
  leBytes 8 l.updates ++ l.rest

/-- Is an FP32 code a finite value that is not negative, −0 counted as zero? -/
def goodAmax (c : Nat) : Bool :=
  match f32 c with
  | .fin neg m _ => !neg || m == 0
  | _ => false

def goodAlpha (c : Nat) : Bool := Val.lt Val.zero (f32 c) && Val.le (f32 c) Val.one

/-- Does an entry meet a condition of R121 that makes LEDGER_UPDATE malformed? -/
def ledgerBad (l : Ledger) : Bool :=
  (fmtOfCode l.format).isNone || l.format == 0xF || 31 < l.margin || 1 < l.policy || 15 < l.head || 16 < l.count ||
  (l.history.take l.count).any (fun h => !(goodAmax h)) ||
  (l.policy == 1 && (!(goodAlpha l.alpha) || (l.updates != 0 && !(goodAmax l.avg))))

/-- L of R122: the format's largest finite value divided by 2^MARGIN. -/
def ledgerLimit (l : Ledger) : Val :=
  match fmtOfCode l.format with
  | some f => (maxFinite f false).scale2 (-(l.margin : Int))
  | none => Val.zero

/-- The largest p with basis × 2^p ≤ L, both positive. -/
def largestPow (basis limit : Val) : Int :=
  match basis, limit with
  | .fin _ m e, .fin _ n k =>
    let l := flog2 n 1 k - flog2 m 1 e
    if Val.le (basis.scale2 l) limit then l else l - 1
  | _, _ => 0

/-- The step that ends R122: adoption. -/
def ledgerAdopt (adopt : Bool) (l : Ledger) : Ledger :=
  if adopt && bit l.flags 0 then { l with scale := l.proposed, scaleE := l.proposedE } else l

/-- ledger_update of R122 on an entry, from a record. -/
def ledgerUpdate (adopt : Bool) (c : Cen) (l : Ledger) : Ledger :=
  if !c.valid then l
  else
    let keep := l.flags - Nat.land l.flags 0xE
    if c.amax == 0x7F800000 then ledgerAdopt adopt { l with flags := keep + 2 }
    else
      let hist := l.history.set l.head c.amax
      let count := min (l.count + 1) 16
      let a := f32 c.amax
      let alpha := f32 l.alpha
      let avg :=
        if l.updates == 0 then c.amax
        else if goodAlpha l.alpha && (f32 l.avg).isFin then
          enc32 (rne32 ((alpha.mul a).add ((Val.one.sub alpha).mul (f32 l.avg))))
        else l.avg
      let l := { l with history := hist, head := (l.head + 1) % 16, count := count, avg := avg
                        updates := (l.updates + 1) % 2 ^ 64, flags := keep }
      let basis := if l.policy == 0 then f32 ((hist.take count).foldl maxCode32 0) else f32 avg
      if basis.isZero then ledgerAdopt adopt { l with flags := keep + 4 }
      else
        let p := largestPow basis (ledgerLimit l)
        let q := max (-127) (min 127 p)
        let flags := Nat.lor (keep + (if p != q then 8 else 0)) 1
        ledgerAdopt adopt
          { l with proposed := enc32 (.fin false 1 q), proposedE := (q + 127).toNat, flags := flags }

/-! Context enabling (R618, CEN_CTXn, LDG_CTXn). -/

/-- A write of CEN_CTXn or LDG_CTXn: ENABLE is refused when the area does not lie wholly in one slice of PARTITION, or when
a second context would serve the same (R618). -/
def areaCtxWrite (s : State) (a : RegAddr) (v : Nat) : State :=
  let s := plainWrite s a v
  match a.loc with
  | .panel p =>
    let x := rget s a
    if !(bit x 0) then s
    else
      let size := (bits x 27 16 + 1) * (if a.id == .ldgCtx then 128 else 64)
      let off := bits x 45 32 * 0x10000
      let oneSlice := off / 0x4000000 == (off + size - 1) / 0x4000000
      let panels := if a.id == .ldgCtx then allPanels else [p]
      if oneSlice && inSlicesOf s p (bits x 15 8) off size &&
          !(otherServes s a.id panels 16 a (fun y => bits y 15 8 == bits x 15 8)) then s
      else refuseEnable s a v
  | _ => s

end Sys2Proof.Machine
end

