-- ==== Sys2Proof/Machine/Inflate.lean ====
section
/-!
DEFINITION. A raw DEFLATE stream (RFC 1951), as the sub-streams of an Inlay-G container hold it (13_inlay.md R379), decoded to
a known number of bytes, with the three failures of R381.
-/
namespace Sys2Proof.Machine

/-- How a sub-stream fails (R381, orders 7 to 9). -/
inductive SubFail where
  | code
  | overrun
  | underrun
deriving DecidableEq, Repr, Inhabited

/-- A bitstream: the bits as a number, how many there are, the next one's place. Bit 0 of each byte comes first. -/
structure BitStream where
  x : Nat
  len : Nat
  pos : Nat := 0
deriving Repr, Inhabited

/-- The stream over a byte string. -/
def bitStream (bs : List Nat) : BitStream := { x := leVal bs, len := 8 * bs.length }

/-- `n` bits, least significant first. -/
def getBits (s : BitStream) (n : Nat) : Except SubFail (Nat × BitStream) :=
  if s.len < s.pos + n then .error .underrun
  else .ok ((s.x >>> s.pos) % 2 ^ n, { s with pos := s.pos + n })

/-- A canonical prefix code: symbols per length 0 to 15, and the symbols in code order. -/
structure Huffman where
  counts : List Nat
  symbols : List Nat
deriving Repr, Inhabited

def huffman (lens : List Nat) : Huffman :=
  { counts := (List.range 16).map fun l => lens.countP (· == l)
    symbols := (List.range 15).flatMap fun l =>
      (List.range lens.length).filter fun i => lens.getD i 0 == l + 1 }

/-- Codes left unused at length 15; none when a length has more codes than it can hold. -/
def huffmanLeft (h : Huffman) : Option Nat :=
  (List.range 15).foldl
    (fun left l => match left with
      | none => none
      | some n => let c := h.counts.getD (l + 1) 0; if 2 * n < c then none else some (2 * n - c))
    (some 1)

/-- A complete code, or one with a single symbol of one bit (RFC 1951 section 3.2.7). -/
def huffmanOk (single : Bool) (h : Huffman) (n : Nat) : Bool :=
  match huffmanLeft h with
  | none => false
  | some 0 => true
  | some _ => single && h.counts.getD 0 0 + h.counts.getD 1 0 == n && h.counts.getD 1 0 ≤ 1

/-- One symbol. `rem` lengths are left to try; the code of the current length is `code`. Bits that begin no code are invalid as soon
as no longer code is left. -/
def decodeSym (h : Huffman) : Nat → Nat → Nat → Nat → Nat → BitStream → Except SubFail (Nat × BitStream)
  | 0, _, _, _, _, _ => .error .code
  | rem + 1, len, code, first, index, s =>
    match getBits s 1 with
    | .error e => .error e
    | .ok (b, s) =>
      let code := 2 * code + b
      let c := h.counts.getD len 0
      if code < first + c then .ok (h.symbols.getD (index + (code - first)) 0, s)
      else if (h.counts.drop (len + 1)).sum == 0 then .error .code
      else decodeSym h rem (len + 1) code (2 * (first + c)) (index + c) s

def getSym (h : Huffman) (s : BitStream) : Except SubFail (Nat × BitStream) :=
  if (h.counts.drop 1).sum == 0 then .error .code else decodeSym h 15 1 0 0 0 s

def lenBase : List Nat :=
  [3, 4, 5, 6, 7, 8, 9, 10, 11, 13, 15, 17, 19, 23, 27, 31, 35, 43, 51, 59, 67, 83, 99, 115, 131, 163, 195, 227, 258]
def lenExtra : List Nat :=
  [0, 0, 0, 0, 0, 0, 0, 0, 1, 1, 1, 1, 2, 2, 2, 2, 3, 3, 3, 3, 4, 4, 4, 4, 5, 5, 5, 5, 0]
def distExtra (sym : Nat) : Nat := if sym < 4 then 0 else sym / 2 - 1
def distBase (sym : Nat) : Nat :=
  if sym < 4 then sym + 1 else (2 + sym % 2) * 2 ^ (sym / 2 - 1) + 1

/-- The output so far, newest byte first, and how many bytes it holds. -/
structure InflateOut where
  rev : List Nat := []
  n : Nat := 0
deriving Repr, Inhabited

/-- Copy `k` bytes from distance `d`. -/
def copyBack (d : Nat) : Nat → InflateOut → InflateOut
  | 0, o => o
  | k + 1, o => copyBack d k { rev := o.rev.getD (d - 1) 0 :: o.rev, n := o.n + 1 }

/-- A failure to read once the byte range is complete is a code that RFC 1951 does not end, hence CODE (log entry 13). -/
def afterRange (target : Nat) (o : InflateOut) (e : SubFail) : SubFail :=
  if e == .underrun && o.n == target then .code else e

/-- The symbols of one compressed block. -/
def inflateCodes (lit dist : Huffman) (target : Nat) :
    Nat → BitStream → InflateOut → Except SubFail (BitStream × InflateOut)
  | 0, _, _ => .error .code
  | fuel + 1, s, o =>
    match getSym lit s with
    | .error e => .error (afterRange target o e)
    | .ok (sym, s) =>
      if sym < 256 then
        if o.n == target then .error .overrun
        else inflateCodes lit dist target fuel s { rev := sym :: o.rev, n := o.n + 1 }
      else if sym == 256 then .ok (s, o)
      else if 285 < sym then .error .code
      else
        match getBits s (lenExtra.getD (sym - 257) 0) with
        | .error e => .error (afterRange target o e)
        | .ok (lx, s) =>
          match getSym dist s with
          | .error e => .error (afterRange target o e)
          | .ok (dsym, s) =>
            if 29 < dsym then .error .code
            else
              match getBits s (distExtra dsym) with
              | .error e => .error (afterRange target o e)
              | .ok (dx, s) =>
                let d := distBase dsym + dx
                let l := lenBase.getD (sym - 257) 0 + lx
                if o.n < d then .error .code
                else if target < o.n + l then .error .overrun
                else inflateCodes lit dist target fuel s (copyBack d l o)

/-- The code lengths of a dynamic block (RFC 1951 section 3.2.7), newest first. -/
def readLens (h : Huffman) (want : Nat) : Nat → BitStream → List Nat → Except SubFail (List Nat × BitStream)
  | 0, _, _ => .error .code
  | fuel + 1, s, acc =>
    if want == acc.length then .ok (acc, s)
    else
      match getSym h s with
      | .error e => .error e
      | .ok (sym, s) =>
        if sym < 16 then readLens h want fuel s (sym :: acc)
        else
          let (nb, base) := if sym == 16 then (2, 3) else if sym == 17 then (3, 3) else (7, 11)
          match getBits s nb with
          | .error e => .error e
          | .ok (k, s) =>
            let n := base + k
            if (sym == 16 && acc.isEmpty) || want < acc.length + n then .error .code
            else
              let v := if sym == 16 then acc.headD 0 else 0
              readLens h want fuel s (List.replicate n v ++ acc)

def clOrder : List Nat := [16, 17, 18, 0, 8, 7, 9, 6, 10, 5, 11, 4, 12, 3, 13, 2, 14, 1, 15]

/-- `n` three-bit lengths. -/
def read3 : Nat → BitStream → List Nat → Except SubFail (List Nat × BitStream)
  | 0, s, acc => .ok (acc.reverse, s)
  | n + 1, s, acc =>
    match getBits s 3 with
    | .error e => .error e
    | .ok (v, s) => read3 n s (v :: acc)

/-- The two codes of a dynamic block. -/
def readTables (s : BitStream) : Except SubFail (Huffman × Huffman × BitStream) :=
  match getBits s 14 with
  | .error e => .error e
  | .ok (v, s) =>
    let nlen := v % 32 + 257
    let ndist := v / 32 % 32 + 1
    let ncl := v / 1024 + 4
    if 286 < nlen then .error .code
    else
      match read3 ncl s [] with
      | .error e => .error e
      | .ok (cl, s) =>
        let lens := (List.range 19).map fun i => cl.getD (clOrder.idxOf i) 0
        let h := huffman lens
        if !(huffmanOk false h 19) then .error .code
        else
          match readLens h (nlen + ndist) (nlen + ndist + 1) s [] with
          | .error e => .error e
          | .ok (rev, s) =>
            let all := rev.reverse
            let ll := all.take nlen
            let dl := all.drop nlen
            let lit := huffman ll
            let dist := huffman dl
            if ll.getD 256 0 == 0 || !(huffmanOk true lit nlen) || !(huffmanOk true dist ndist) then .error .code
            else .ok (lit, dist, s)

def fixedLit : Huffman :=
  huffman (List.replicate 144 8 ++ List.replicate 112 9 ++ List.replicate 24 7 ++ List.replicate 8 8)
def fixedDist : Huffman := huffman (List.replicate 32 5)

/-- The stored bytes of a block. -/
def readStored (target : Nat) : Nat → BitStream → InflateOut → Except SubFail (BitStream × InflateOut)
  | 0, s, o => .ok (s, o)
  | n + 1, s, o =>
    if o.n == target then .error .overrun
    else
      match getBits s 8 with
      | .error e => .error e
      | .ok (b, s) => readStored target n s { rev := b :: o.rev, n := o.n + 1 }

/-- One block's content after its three header bits. -/
def inflateBlock (target btype : Nat) (s : BitStream) (o : InflateOut) : Except SubFail (BitStream × InflateOut) :=
  if btype == 0 then
    let s := { s with pos := roundUp s.pos 8 }
    match getBits s 32 with
    | .error e => .error (afterRange target o e)
    | .ok (v, s) =>
      if v % 65536 + v / 65536 != 65535 then .error .code else readStored target (v % 65536) s o
  else if btype == 1 then inflateCodes fixedLit fixedDist target (s.len + 1) s o
  else if btype == 2 then
    match readTables s with
    | .error e => .error (afterRange target o e)
    | .ok (lit, dist, s) => inflateCodes lit dist target (s.len + 1) s o
  else .error .code

/-- Blocks until the final one. -/
def inflateGo (target : Nat) : Nat → BitStream → InflateOut → Except SubFail (BitStream × InflateOut)
  | 0, _, _ => .error .code
  | fuel + 1, s, o =>
    match getBits s 3 with
    | .error e => .error (afterRange target o e)
    | .ok (h, s) =>
      match inflateBlock target (h / 2) s o with
      | .error e => .error e
      | .ok (s, o) => if h % 2 == 1 then .ok (s, o) else inflateGo target fuel s o

/-- What remains after the last field of a sub-stream: zero bits to the byte boundary, then nothing (R362, R381). -/
def streamEnd (s : BitStream) : Option SubFail :=
  let e := roundUp s.pos 8
  if (s.x >>> s.pos) % 2 ^ (e - s.pos) != 0 then some .code
  else if e < s.len then some .overrun
  else none

/-- A sub-stream of an Inlay-G container to its `target` bytes (R379, R381, R382). -/
def inflate (bs : List Nat) (target : Nat) : Except SubFail (List Nat) :=
  if target == 0 then (if bs.isEmpty then .ok [] else .error .overrun)
  else
    let s := bitStream bs
    match inflateGo target (s.len + 1) s {} with
    | .error e => .error e
    | .ok (s, o) =>
      match streamEnd s with
      | some e => .error (if o.n < target && e == .overrun then .underrun else e)
      | none => if o.n < target then .error .underrun else .ok o.rev.reverse

end Sys2Proof.Machine
end

