-- ==== Sys2Proof/Machine/Inlay.lean ====
section
/-!
DEFINITION. Inlay coding and the sealed container, as functions of bytes (13_inlay.md R355 to R371, R379 to R382), and the
packing of elements into bytes (02_formats.md R47, R48).
-/
namespace Sys2Proof.Machine

/-! Packing (R47, R48). -/

/-- Elements per group and bytes per group (R47). -/
def groupElems : Fmt → Nat
  | .fp12 => 2 | .e3m2 => 4 | .e2m3 => 4 | .e2m1 => 2 | .int4 => 2 | _ => 1
def groupBytes : Fmt → Nat
  | .fp32 => 4 | .bf16 => 2 | .fp16 => 2 | .fp12 => 3 | .e3m2 => 3 | .e2m3 => 3 | .a48 => 6 | _ => 1

/-- Bytes of a row of `n` elements (R48). -/
def rowBytes (f : Fmt) (n : Nat) : Nat := ceilDiv n (groupElems f) * groupBytes f

/-- The elements of one group. -/
def groupSplit (w : Nat) : Nat → Nat → List Nat
  | 0, _ => []
  | n + 1, x => x % 2 ^ w :: groupSplit w n (x / 2 ^ w)

/-- The element codes in a byte string of whole groups, pad slots included. -/
def unpackGo (f : Fmt) : Nat → List Nat → List Nat
  | 0, _ => []
  | n + 1, bs =>
    groupSplit (fmtBits f) (groupElems f) (leVal (bs.take (groupBytes f))) ++ unpackGo f n (bs.drop (groupBytes f))

def unpack (f : Fmt) (bs : List Nat) : List Nat := unpackGo f (bs.length / groupBytes f) bs

/-- The value of one group. -/
def groupJoin (w : Nat) : List Nat → Nat
  | [] => 0
  | c :: cs => c % 2 ^ w + 2 ^ w * groupJoin w cs

/-- The bytes that hold the element codes; pad slots are zero. -/
def packGo (f : Fmt) : Nat → List Nat → List Nat
  | 0, _ => []
  | n + 1, cs =>
    leBytes (groupBytes f) (groupJoin (fmtBits f) (cs.take (groupElems f))) ++ packGo f n (cs.drop (groupElems f))

def pack (f : Fmt) (cs : List Nat) : List Nat := packGo f (ceilDiv cs.length (groupElems f)) cs

/-! Blocks and slots (R355). -/

def blockSize : Fmt → Nat
  | .fp12 | .e3m2 | .e2m3 => 4095
  | _ => 4096

def slotSize (tag : Bool) : Nat := if tag then 4144 else 4128

/-- The formats that Inlay-L codes (R361). -/
def inlayCodes : Fmt → Bool
  | .fp32 | .bf16 | .fp16 | .fp12 | .e5m2 | .e4m3 => true
  | _ => false

/-! Inlay-L coding (R362 to R366). -/

/-- A bit string being written: its value and its length. -/
structure BitSink where
  x : Nat := 0
  n : Nat := 0
deriving Repr, Inhabited

def putBits (s : BitSink) (w v : Nat) : BitSink := { x := s.x + (v % 2 ^ w) <<< s.n, n := s.n + w }

def sinkBytes (s : BitSink) : List Nat := leBytes (ceilDiv s.n 8) s.x

def elemExp (f : Fmt) (c : Nat) : Nat := bits c (fmtF f + fmtE f - 1) (fmtF f)

/-- One group (R363, R364). -/
def encodeGroup (f : Fmt) (t : Nat) (lossy : Bool) (s : BitSink) (g : List Nat) : BitSink :=
  let es := g.map (elemExp f)
  let emin := es.foldl min (es.headD 0)
  let emax := es.foldl max 0
  let diff := emax - emin
  let w := if diff == 0 then 0 else Nat.log2 diff + 1
  let fe := fmtE f
  let fm := fmtF f
  if w == fe || (lossy && es.any (· == 2 ^ fe - 1)) then
    g.foldl (fun s c => putBits s (1 + fe + fm) c) (putBits s 4 0xF)
  else
    let s := putBits (putBits s 4 w) fe emin
    let s := es.foldl (fun s e => putBits s w (e - emin)) s
    g.foldl (fun s c =>
      putBits s (1 + fm - t) ((c >>> (fmtBits f - 1)) * 2 ^ (fm - t) + (c % 2 ^ fm) >>> t)) s

/-- The elements in groups of 32 (R362). -/
def groupsOf : Nat → List Nat → List (List Nat)
  | 0, _ => []
  | n + 1, cs => cs.take 32 :: groupsOf n (cs.drop 32)

/-- The eight sub-streams of a block. -/
def encodeStreams (f : Fmt) (t : Nat) (lossy : Bool) (cs : List Nat) : List (List Nat) :=
  let gs := (groupsOf (ceilDiv cs.length 32) cs).zipIdx
  (List.range 8).map fun k =>
    sinkBytes ((gs.filter fun p => p.2 % 8 == k).foldl (fun s p => encodeGroup f t lossy s p.1) {})

/-- What a block codes to: MODE, the sub-stream lengths and the payload with its padding (R360, R361, R365). -/
def encodeBlock (f : Fmt) (comp t : Nat) (raw : List Nat) : Nat × List Nat × List Nat :=
  let esc := (0, raw.length :: List.replicate 7 0, pad16 raw)
  if !(inlayCodes f) then esc
  else
    let ss := encodeStreams f (if comp == 2 then t else 0) (comp == 2) (unpack f raw)
    let total := (ss.map List.length).sum
    if roundUp raw.length 16 < roundUp total 16 then esc
    else (comp, ss.map List.length, pad16 ss.flatten)

/-! The container (R359, R369 to R371). -/

/-- Bytes 0 to 27 of the header. -/
def headerHead (rawLen payLen : Nat) (tag : Bool) (key : Nat) (clear : Bool) (mode fmt t : Nat) (sub : List Nat)
    (version : Nat) : List Nat :=
  leBytes 2 0x1A95 ++ leBytes 2 rawLen ++
  leBytes 2 (payLen + (if tag then 2 ^ 13 else 0) + key * 2 ^ 14 + (if clear then 2 ^ 15 else 0)) ++
  [mode + 16 * fmt, t] ++ sub.flatMap (leBytes 2) ++ leBytes 4 version

def addrPrefix (slot : Nat) : List Nat := leBytes 6 slot ++ [0, 0]

def xtsTweak (slot version : Nat) : List Nat := leBytes 6 slot ++ [0, 0] ++ leBytes 4 version ++ [0, 0, 0, 0]

def gmacIv (slot version : Nat) : List Nat := leBytes 6 slot ++ leBytes 4 version ++ [0, 0]

/-- CRC-32C of R370. -/
def containerCrc (slot : Nat) (head payload : List Nat) : Nat := crc 0 (addrPrefix slot ++ head ++ payload)

/-- The container of one block (R368): code, encrypt, header, CRC, tag. -/
def sealBlock (f : Fmt) (comp t : Nat) (tag : Bool) (key version slot : Nat) (xtsKey tagKey raw : List Nat) : List Nat :=
  let (mode, sub, clearPay) := encodeBlock f comp t raw
  let pay := xts true xtsKey (xtsTweak slot version) clearPay
  let head := headerHead raw.length pay.length tag key false mode (fmtCode f) (if mode == 2 then t else 0) sub version
  let hdr := head ++ leBytes 4 (containerCrc slot head pay)
  hdr ++ pay ++ (if tag then gmac tagKey (gmacIv slot version) (addrPrefix slot ++ hdr ++ pay) else [])

/-- Is this an escape container (MODE 0)? INL_STAT2.ESCAPES counts them. -/
def isEscape (container : List Nat) : Bool := container.getD 6 0 % 4 == 0

/-! Decoding (R381, R382). -/

/-- `n` fields of `w` bits, none above `lim`: the first one above it is an invalid code, though the stream may end behind it. -/
def readDeltas (w lim : Nat) : Nat → BitStream → Except SubFail (List Nat × BitStream)
  | 0, s => .ok ([], s)
  | n + 1, s =>
    match getBits s w with
    | .error e => .error e
    | .ok (d, s) =>
      if lim < d then .error .code
      else match readDeltas w lim n s with
        | .error e => .error e
        | .ok (ds, s) => .ok (d :: ds, s)

/-- Decoded elements, newest first, of one group of `n`. -/
def decodeGroup (f : Fmt) (t n : Nat) (s : BitStream) : Except SubFail (List Nat × BitStream) :=
  let fe := fmtE f
  let fm := fmtF f
  let many (w k : Nat) (s : BitStream) : Except SubFail (List Nat × BitStream) :=
    match getBits s (w * k) with
    | .error e => .error e
    | .ok (x, s) => .ok (groupSplit w k x, s)
  match getBits s 4 with
  | .error e => .error e
  | .ok (w, s) =>
    if w == 0xF then many (1 + fe + fm) n s
    else if 8 < w || fe < w then .error .code
    else
      match getBits s fe with
      | .error e => .error e
      | .ok (emin, s) =>
        match readDeltas w (2 ^ fe - 1 - emin) n s with
        | .error e => .error e
        | .ok (ds, s) =>
          match many (1 + fm - t) n s with
          | .error e => .error e
          | .ok (sm, s) =>
            .ok (List.zipWith (fun d v =>
              (v >>> (fm - t)) * 2 ^ (fmtBits f - 1) + (emin + d) * 2 ^ fm + (v % 2 ^ (fm - t)) * 2 ^ t) ds sm, s)

/-- The groups of one sub-stream: `sizes` are their element counts. -/
def decodeGroups (f : Fmt) (t : Nat) : List Nat → BitStream → Except SubFail (List (List Nat) × BitStream)
  | [], s => .ok ([], s)
  | n :: ns, s =>
    match decodeGroup f t n s with
    | .error e => .error e
    | .ok (g, s) =>
      match decodeGroups f t ns s with
      | .error e => .error e
      | .ok (gs, s) => .ok (g :: gs, s)

/-- One whole sub-stream. -/
def decodeStream (f : Fmt) (t : Nat) (sizes : List Nat) (bs : List Nat) : Except SubFail (List (List Nat)) :=
  match decodeGroups f t sizes (bitStream bs) with
  | .error e => .error e
  | .ok (gs, s) =>
    match streamEnd s with
    | some e => .error e
    | none => .ok gs

/-- The sub-streams of a payload, by their lengths. -/
def cutStreams : List Nat → List Nat → List (List Nat)
  | [], _ => []
  | n :: ns, bs => bs.take n :: cutStreams ns (bs.drop n)

/-- DETAIL of a failed sub-stream (R381). -/
def subFailDetail : SubFail → Nat
  | .code => 0x0705 | .overrun => 0x0706 | .underrun => 0x0709

/-- The first failure in the order of R381 among the sub-streams. -/
def worstFail (fs : List SubFail) : Option SubFail :=
  if fs.contains .code then some .code
  else if fs.contains .overrun then some .overrun
  else if fs.contains .underrun then some .underrun
  else none

def failsOf {α : Type} (rs : List (Except SubFail α)) : List SubFail :=
  rs.filterMap fun r => match r with | .error e => some e | .ok _ => none

def okOr {α : Type} (d : α) (r : Except SubFail α) : α := match r with | .ok a => a | .error _ => d

/-- Groups dealt to the sub-streams, back in ascending order (R362). -/
def interleave (n : Nat) (ss : List (List (List Nat))) : List Nat :=
  (List.range n).flatMap fun g => (ss.getD (g % 8) []).getD (g / 8) []

/-- What a container is decoded for: format, COMP, T, TAG, the block's raw size and the slot's address. -/
structure BlockSpec where
  fmt : Fmt
  comp : Nat
  t : Nat
  tag : Bool
  rawLen : Nat
  slot : Nat
deriving DecidableEq, Repr, Inhabited

/-- The raw bytes of a decrypted payload, or the failure of orders 7 to 9 of R381. -/
def decodePayload (b : BlockSpec) (mode : Nat) (sub : List Nat) (pay : List Nat) : Except SubFail (List Nat) :=
  let total := sub.sum
  let padBad := (pay.drop total).any (· != 0)
  let fail (fs : List SubFail) : Option SubFail := worstFail (if padBad then .code :: fs else fs)
  if mode == 0 then
    match fail [] with
    | some e => .error e
    | none => .ok (pay.take b.rawLen)
  else
    let ss := cutStreams sub pay
    if mode == 3 then
      let rs := (List.range 8).map fun k =>
        inflate (ss.getD k []) (min (512 * (k + 1)) b.rawLen - min (512 * k) b.rawLen)
      match fail (failsOf rs) with
      | some e => .error e
      | none => .ok (rs.flatMap (okOr []))
    else
      let n := unpack b.fmt (List.replicate b.rawLen 0) |>.length
      let ng := ceilDiv n 32
      let size (g : Nat) : Nat := min 32 (n - 32 * g)
      let rs := (List.range 8).map fun k =>
        decodeStream b.fmt (if mode == 2 then b.t else 0)
          (((List.range ng).filter fun g => g % 8 == k).map size) (ss.getD k [])
      match fail (failsOf rs) with
      | some e => .error e
      | none => .ok (pack b.fmt (interleave ng (rs.map (okOr []))))

/-- A container checked and decoded: the raw block, or the DETAIL of the first failing check of R381 (orders 3 to 9).
`key i` answers the XTS and tag keys that slot `i` holds. `bytes` is the whole slot. -/
def unsealBlock (b : BlockSpec) (key : Nat → Option (List Nat) × Option (List Nat)) (bytes : List Nat) :
    Except Nat (List Nat) :=
  let h2 := leAt bytes 2 2
  let h4 := leAt bytes 4 2
  let b6 := bytes.getD 6 0
  let b7 := bytes.getD 7 0
  let payLen := bits h4 12 0
  let tag := bit h4 13
  let ks := bits h4 14 14
  let clear := bit h4 15
  let mode := bits b6 1 0
  let t := bits b7 3 0
  let sub := (List.range 8).map fun k => leAt bytes (8 + 2 * k) 2
  let total := sub.sum
  let version := leAt bytes 24 4
  let keys := key ks
  let modeOk := if b.comp == 3 then mode == 3 else mode == 0 || mode == b.comp
  let headerBad :=
    leAt bytes 0 2 != 0x1A95 || bits h2 15 13 != 0 || bits b6 3 2 != 0 || bits b7 7 4 != 0 || !modeOk ||
    bits b6 7 4 != fmtCode b.fmt || t != (if mode == 2 then b.t else 0) || clear != (mode == 3) ||
    (!clear && (keys.1.isNone || (tag && keys.2.isNone)))
  let pay := (bytes.drop 32).take payLen
  let lengthBad :=
    bits h2 12 0 != b.rawLen || payLen % 16 != 0 || payLen < 16 || 4096 < payLen || payLen < total ||
    total + 16 ≤ payLen || (mode == 0 && sub != b.rawLen :: List.replicate 7 0) || tag != b.tag
  let head := bytes.take 28
  if headerBad then .error 0x0701
  else if lengthBad then .error 0x0702
  else if leAt bytes 28 4 != containerCrc b.slot head pay then .error 0x0703
  else if tag && (bytes.drop (32 + payLen)).take 16 !=
      gmac (keys.2.getD []) (gmacIv b.slot version) (addrPrefix b.slot ++ bytes.take 32 ++ pay) then .error 0x0704
  else
    let clearPay := if clear then pay else xts false (keys.1.getD []) (xtsTweak b.slot version) pay
    match decodePayload b mode sub clearPay with
    | .error e => .error (subFailDetail e)
    | .ok raw => .ok raw

end Sys2Proof.Machine
end

