-- ==== Sys2Proof/Machine/Flags.lean ====
section
/-!
DEFINITION. What an MI leaves beside its data: its conditions and their rank (05_macro_instructions.md R152 to R154), its census
and its damaged blocks, gathered in a `Work` while its effect runs.
-/
namespace Sys2Proof.Machine

/-- Rank of a status code (R152): 1 is the highest. -/
def statusRank (st : Nat) : Nat :=
  match st with
  | 0x0B => 1 | 0x02 => 2 | 0x09 => 3 | 0x03 => 4 | 0x07 => 5 | 0x0C => 6 | 0x06 => 7 | 0x01 => 8
  | 0x05 => 9 | 0x04 => 10 | 0x0A => 11 | _ => 12

/-- Does a status stop the queue (R157)? -/
def statusStops (st : Nat) : Bool := statusRank st ≤ 8

/-- The condition that decides the status: the highest in rank, the first met among equals (R152). -/
def worstCond (cs : List Cond) : Cond :=
  cs.foldl (fun b c => if statusRank c.status < statusRank b.status then c else b) { status := 0 }

/-- OK may carry a DETAIL (R153); the first one met stands. -/
def finalCond (cs : List Cond) (lenFlag : Bool) : Cond :=
  let b := worstCond cs
  let b := if b.status == 0 then (cs.find? (fun c => c.status == 0)).getD b else b
  if lenFlag && b.detail == 0 then { b with detail := 0x0200 } else b

/-- An MI at work: the state so far and the flight with what it has met so far. `blocks` are the raw blocks of its sealed sources
that it has decoded: slot, block, bytes; `cut` says that what it now reads touches a damaged block that stops or parks it
(10_training.md R276), and `halt` that some block does. `outs` holds the bytes of sealed destinations that are gathered before they are sealed: descriptor, offset in
the raw image, the panel that wrote them, bytes. -/
structure Work where
  s : State
  f : Flight
  blocks : List (Nat × Nat × List Nat) := []
  cut : Bool := false
  halt : Bool := false
  outs : List (Desc × Nat × Nat × List Nat) := []
deriving Inhabited

/-- Is any damaged block one that stops or parks the MI (10_training.md R276)? -/
def blocksMi (f : Flight) : Bool := f.damages.any fun d => d.policy != 1

/-- Note a condition. -/
def noteCond (w : Work) (c : Cond) : Work := { w with f := { w.f with conds := w.f.conds ++ [c] } }

/-- Note a condition that may be absent. -/
def noteCond? (w : Work) (c : Option Cond) : Work := match c with | some c => noteCond w c | none => w

/-- A tile's census on a panel: its record merges now, and its summary bits wait for completion (R114, R115, R118). Without a
context the merge and the update are each counted (CEN_ORPHAN). -/
def noteCensus (w : Work) (panel : Nat) (d : Desc) (c : Cen) : Work :=
  if !c.valid then w
  else
    let (s, dropped) : State × Bool :=
      if d.cenEn then mergeRecord w.s w.f.part panel d.cenEntry c else (w.s, false)
    let up := summaryBits c + (if dropped then 0x80 else 0)
    { w with s := s, f := { w.f with sums := w.f.sums ++ [(panel, d.cenEntry, up)] } }

end Sys2Proof.Machine
end

