-- ==== Sys2Proof/Machine/Operands.lean ====
section
/-!
DEFINITION. The operands of an MI: the MI word (05_macro_instructions.md R132), tensor descriptors (R135 to R141), extents known
only at run time (R142 to R145), and the checks that every MI shares (R133, R134, R153; 02_formats.md R41, R42, R49;
13_inlay.md R354, R356).
-/
namespace Sys2Proof.Machine

/-! The MI word (R132). -/

def wordByte (w : List Nat) (i : Nat) : Nat := w.getD i 0
def miOpcode (w : List Nat) : Nat := wordByte w 0
def miRmode (w : List Nat) : Nat := bits (wordByte w 1) 2 0
def miSat (w : List Nat) : Bool := bit (wordByte w 1) 3
def miSfuMode (w : List Nat) : Nat := bits (wordByte w 1) 5 4
def miShared (w : List Nat) : Bool := bit (wordByte w 1) 6
def miEvent (w : List Nat) : Bool := bit (wordByte w 1) 7
def miTiling (w : List Nat) : Nat := leAt w 2 2
def miShape (w : List Nat) : Nat := bits (miTiling w) 2 0
def miSide (w : List Nat) : Nat := bits (miTiling w) 4 3
def miLoopDrw (w : List Nat) : Nat := bits (miTiling w) 7 5
def miLoopSbd (w : List Nat) : Nat := bits (miTiling w) 10 8
def miLoopHbm (w : List Nat) : Nat := bits (miTiling w) 13 11
def miSlot (w : List Nat) (n : Nat) : Nat := leAt w (4 + 2 * n) 2
def miFence (w : List Nat) : Bool := bit (wordByte w 14) 0
def miStep (w : List Nat) : Nat := leAt w 16 4
def miOrigin (w : List Nat) : Nat := leAt w 20 8
def miLenTable (w : List Nat) : Nat := leAt w 28 6
def miTag (w : List Nat) : Nat := leAt w 36 4

/-- The rounding mode of an issued MI (R59). -/
def miMode (w : List Nat) : RMode := (rmodeOfCode (miRmode w)).getD .rne

/-- Is any byte of `[lo, hi]` of the word not zero? -/
def anyByte (w : List Nat) (lo hi : Nat) : Bool := ((w.drop lo).take (hi + 1 - lo)).any (· != 0)

/-! Descriptors (R135). -/

/-- A descriptor as read: the fields, with extents and tensor scale still unresolved. -/
def descOf (b : List Nat) : Desc :=
  let b47 := b.getD 47 0
  let b48 := b.getD 48 0
  let b49 := b.getD 49 0
  let b50 := b.getD 50 0
  let b51 := b.getD 51 0
  let c := leAt b 60 2
  { strides := (List.range 4).map fun d => leAt b (5 * d) 5
    extents := (List.range 5).map fun d => leAt b (20 + 3 * d) 3
    base := leAt b 35 6, scalePtr := leAt b 41 6
    format := bits b47 3 0, scaling := bits b47 5 4, pad := bits b47 7 6
    tier := bits b48 2 0, bound := bits b48 7 3
    blockAxis := bits b49 2 0, lenDim := bits b49 5 3, lenEn := bit b49 6, cenEn := bit b49 7
    comp := bits b50 2 0, compParam := bits b50 7 3
    ndim := bits b51 2 0, damage := bits b51 4 3, tscaleSrc := bit b51 5
    tensorId := leAt b 52 4, tscale := leAt b 56 4, cenEntry := bits c 11 0, salvageId := leAt b 62 2
    rsvd := bits b51 7 6 != 0 || bits c 15 12 != 0 }

def descMx (d : Desc) : Bool := d.scaling % 2 == 1
def descTensor (d : Desc) : Bool := 2 ≤ d.scaling
def descFmt (d : Desc) : Fmt := (fmtOfCode d.format).getD .fp32
/-- Bit 4 and bits 3:0 of COMP_PARAM (13_inlay.md R356). -/
def descSealTag (d : Desc) : Bool := bit d.compParam 4
def descTrunc (d : Desc) : Nat := bits d.compParam 3 0
/-- Extent of dimension `k`; 1 beyond NDIM (R136). -/
def descExt (d : Desc) (k : Nat) : Nat := d.extents.getD k 1
/-- Elements of a tensor. -/
def descCount (d : Desc) : Nat := d.extents.foldl (· * ·) 1

/-- R × C of a SHAPE code (06_jig.md R174). -/
def tileShape : Nat → Nat × Nat
  | 0 => (64, 128) | 1 => (128, 128) | 2 => (128, 256) | 3 => (256, 256) | 4 => (64, 512) | _ => (512, 128)

/-- A descriptor of FP32 values, with or without a tensor scale (02_formats.md R41), or of U32 words under that format: another
format is malformed. -/
def fp32Faults (d : Option Desc) : List Nat := if (match d with | some d => d.format != 0 | none => false) then [0x0004] else []

/-- The format's alignment unit (R49). -/
def alignUnit : Fmt → Nat
  | .fp32 => 4 | .bf16 => 2 | .fp16 => 2 | .fp12 => 3 | .e3m2 => 3 | .e2m3 => 3 | _ => 1

/-- A DETAIL when a condition holds. -/
def on (c : Bool) (k : Nat) : List Nat := if c then [k] else []

/-- Is a descriptor a source, a destination, or both kinds of partial output? -/
structure OperandUse where
  dest : Bool := false
  /-- A48 spill is allowed here (R42). -/
  spill : Bool := false
deriving DecidableEq, Repr, Inhabited

/-- DETAILs of what makes a descriptor malformed by itself (R133, R136 to R140, R145; 02_formats.md R42, R49; 13_inlay.md
R354, R356), before its bound references and its ledger entry. `ragged` is the MI's class: LEN_EN is malformed in every MI that is
not ragged, those of the control class too, of which R145 does not speak: DESIGN CHOICE, log entry 142. -/
def descFaults (ro : OperandUse) (ragged : Bool) (d : Desc) : List Nat :=
  let f := descFmt d
  let nd := d.ndim
  let fracBits := fmtF f
  on (d.pad == 3 || 4 < d.tier || 3 < d.comp || d.damage == 3) 0x0001 ++
  on d.rsvd 0x0002 ++
  on ((fmtOfCode d.format).isNone || (d.format ≤ 3 && descMx d) || (d.format == 0xF && (d.scaling != 0 || !ro.spill)))
    0x0004 ++
  on (d.base % (if d.format == 0xF then 64 else alignUnit f) != 0 ||
      d.strides.any (fun s => s % alignUnit f != 0) || (descMx d && d.scalePtr % 64 != 0) ||
      (d.comp != 0 && d.base % 16 != 0)) 0x0005 ++
  on (nd == 0 || 5 < nd || (descMx d && nd ≤ d.blockAxis) || (d.lenEn && nd ≤ d.lenDim) ||
      (List.range 5).any (fun k => nd ≤ k && d.extents.getD k 0 != 0) ||
      (List.range 4).any (fun k => nd ≤ k + 1 && d.strides.getD k 0 != 0) ||
      (d.comp != 0 && d.strides.any (· != 0))) 0x0007 ++
  on ((List.range 5).any fun k => bit d.bound k && (nd ≤ k || 64 ≤ d.extents.getD k 0)) 0x0008 ++
  on ((d.tier == 0 && 0x400000 ≤ d.base) || (d.tier == 1 && 0x40000000 ≤ d.base)) 0x0009 ++
  on ((d.comp != 0 && d.tier ≤ 1) || (d.comp == 0 && d.tier == 4) || (d.comp == 3 && ro.dest) ||
      (d.comp == 1 && descTrunc d != 0) ||
      (d.comp == 2 && (descTrunc d == 0 || min 15 fracBits < descTrunc d || 3 < d.format)) ||
      (d.comp != 0 && d.tier == 4 && !(descSealTag d)) || (d.comp == 3 && d.compParam != 0)) 0x000A ++
  on (!ro.dest && d.comp != 0 && d.damage == 2 && d.salvageId == 0) 0x000B ++
  on (d.lenEn && !ragged) 0x000D

/-- The extents of a descriptor once bound references are replaced by `bound` (R136, R142). -/
def resolveExtents (d : Desc) (bound : Nat → Nat) : List Nat :=
  (List.range 5).map fun k =>
    let e := d.extents.getD k 0
    if d.ndim ≤ k then 1
    else if bit d.bound k then bound (e % 64)
    else if e == 0 then 16777216 else e

/-- Bound-table entries that a descriptor names. -/
def boundRefs (d : Desc) : List Nat :=
  ((List.range 5).filter fun k => bit d.bound k && k < d.ndim).map fun k => d.extents.getD k 0 % 64

/-! Lengths (R144). -/

/-- Sequences that a descriptor with LEN_EN covers. -/
def lenSeqs (d : Desc) : Nat := if d.lenDim + 1 < d.ndim then descExt d (d.lenDim + 1) else 1

/-- The sequence index of coordinates. -/
def seqOf (d : Desc) (c : List Nat) : Nat := if d.lenDim + 1 < d.ndim then c.getD (d.lenDim + 1) 0 else 0

/-- The length in force at coordinates, clamped to the extent (R144). -/
def lenAt (d : Desc) (lens : List Nat) (c : List Nat) : Nat := min (lens.getD (seqOf d c) 0) (descExt d d.lenDim)

/-! Coordinates. A box gives first index and count of each dimension, dimension 0 first. -/

/-- Coordinates of a box, dimension 0 fastest. -/
def boxCoords : List (Nat × Nat) → List (List Nat)
  | [] => [[]]
  | (lo, n) :: rest => (boxCoords rest).flatMap fun c => (List.range n).map fun i => (lo + i) :: c

/-- The place of coordinates in their box. -/
def boxIndex : List (Nat × Nat) → List Nat → Nat
  | (lo, n) :: bs, c :: cs => (c - lo) + n * boxIndex bs cs
  | _, _ => 0

/-- The whole tensor as a box. -/
def wholeBox (d : Desc) : List (Nat × Nat) := d.extents.map fun e => (0, e)

/-- The element linear index of R103 without SR_ORIGIN (04_rounding_census_ledger.md). -/
def linIndex (exts c : List Nat) : Nat := boxIndex (exts.map fun e => (0, e)) c

/-- The byte offset of the row of coordinates `c` (dimensions 1 to 4), from BASE (R135, R137). -/
def rowOffset (d : Desc) (c : List Nat) : Nat :=
  ((c.drop 1).zip d.strides).foldl (fun a p => a + p.1 * p.2) 0

/-! Flights. -/

def dropFlight (s : State) (mi : Nat) : State :=
  { s with jig := { s.jig with flights := s.jig.flights.filter (·.mi != mi) } }

/-- The step of an MI in flight: nothing in retain (21_clocks_power.md R577), nor while its partition is a time-slice member that is
out (18_partitions.md R503) or waits for a scrub of its resources (R491). -/
def whileRunning (mi : Nat) (step : State → State) (s : State) : State :=
  match findFlight s mi with
  | some f => if awake s && !(memberOut s f.part) && !(underScrub s f.part) then step s else s
  | none => s

/-- The step of an MI that the Mitre engines carry out, which goes on while its member is out (18_partitions.md R503). -/
def whileAwake (step : State → State) (s : State) : State := if awake s then step s else s

/-- The descriptor of a slot. -/
def slotDesc (f : Flight) (n : Nat) : Option Desc := f.descs.getD n none

/-- A parameter of the MI word. -/
def param (f : Flight) (lo n : Nat) : Nat := leAt f.word lo n

/-! Checks that the MIs' definitions share. -/

/-- Slots that an MI requires, and slots that its definition says hold 0xFFFF; an index beyond the table is malformed in any slot
(R134). -/
def slotFaults (f : Flight) (req empty : List Nat) : List Nat :=
  on (req.any (fun n => (slotDesc f n).isNone) || empty.any (fun n => miSlot f.word n != 0xFFFF) ||
    [0, 1, 2, 3, 4].any (fun n => miSlot f.word n != 0xFFFF && (slotDesc f n).isNone)) 0x0003

/-- PARAMS bytes that an MI does not use must be zero (R133). -/
def unusedFaults (f : Flight) (ranges : List (Nat × Nat)) : List Nat :=
  on (ranges.any fun r => anyByte f.word r.1 r.2) 0x0002

/-- Do two descriptors have the same extents from dimension `k` on? -/
def sameExtents (a b : Option Desc) (k : Nat) : Bool :=
  match a, b with
  | some a, some b => a.extents.drop k == b.extents.drop k
  | _, _ => true

/-- A test of a descriptor that is present. -/
def descTest (d : Option Desc) (p : Desc → Bool) : Bool := match d with | some d => p d | none => false

end Sys2Proof.Machine
end

