-- ==== Sys2Proof/Machine/Fabric.lean ====
section
/-!
DEFINITION. The neighbour accesses of MIs and of other requesters (01_cabinet.md R33; 11_drawers_tiers.md R326; 15_azoer.md R411,
R412).
-/
namespace Sys2Proof.Machine

/-! Requests of this device. -/

/-- Note a condition for an MI that is in flight. -/
def condFor (s : State) (mi : Option Nat) (c : Cond) : State :=
  match mi.bind (findFlight s) with
  | some f => putFlight s { f with conds := f.conds ++ [c] }
  | none => s

/-- A neighbour access of an MI within one page, at a partition address that a lease maps; refused as 01_cabinet.md R33 and
18_partitions.md R497 say. -/
def remoteAccess1 (s : State) (f : Flight) (op va n : Nat) (bs : List Nat) : State :=
  match translate s f.part va (op != 0) with
  | (.error d, s) => condFor s (some f.mi) { status := 2, detail := d, aux := va }
  | (.ok pa, s) =>
    let (s, c) := sendNeighbor s (some f.mi) none (some f.part) op pa va n bs
    match c with | some c => condFor s (some f.mi) c | none => s

/-- A neighbour access of an MI, page by page (18_partitions.md R495). -/
def remoteAccess (s : State) (f : Flight) (op va n : Nat) (bs : List Nat) : State :=
  (pieces va n).foldl (fun s p => remoteAccess1 s f op p.1 p.2 ((bs.drop (p.1 - va)).take p.2)) s

/-- Has an MI unanswered requests, or some that have not left? -/
def awaits (s : State) (mi : Nat) : Bool := s.fab.requests.any (·.mi == some mi) || s.fab.backlog.any (·.mi == some mi)

/-- Send the stage of an MI's neighbour writes that is due: up to the next marker, an entry without bytes. -/
def sendPuts (s : State) (mi : Nat) : State :=
  match findFlight s mi with
  | none => s
  | some f =>
    let now := f.puts.takeWhile (fun p => !p.2.isEmpty)
    let s := putFlight s { f with puts := f.puts.drop (now.length + 1) }
    now.foldl (fun s p => remoteAccess s f 2 p.1 p.2.length p.2) s

/-- Ask for what an MI wants from a neighbour. -/
def sendWants (s : State) (mi : Nat) : State :=
  match findFlight s mi with
  | none => s
  | some f => f.wants.foldl (fun s p => remoteAccess s f 0 p.1 p.2 []) (putFlight s { f with wants := [] })

/-! Accesses without an MI (01_cabinet.md R33). -/

/-- Start a neighbour access for a requester without an MI: the reads that its step asked for. -/
def startJob (s : State) (who : JobFor) (part : Option Nat) (va n : Nat) (asks : List (Option Nat × Nat × Nat × Nat)) : State :=
  let id := s.fab.nextJob
  let s := { s with fab := { s.fab with nextJob := id + 1, asks := [] } }
  let (s, c) := asks.foldl (fun (x : State × Option Cond) a =>
    let y := sendNeighbor x.1 none (some id) a.1 0 a.2.2.1 a.2.1 a.2.2.2 []
    (y.1, firstCond x.2 y.2)) (s, none)
  { s with fab := { s.fab with jobs := s.fab.jobs ++ [{ id := id, who := who, part := part, va := va, n := n, cond := c }] } }

/-- The step of a unit that reads a partition's memory: where it needs bytes of a neighbour that have not arrived, it asks for them
instead, once, and is tried again later (log entry 126). -/
def viaNeighbor (part : Nat) (step : State → State) (s : State) : State :=
  let t := step { s with fab := { s.fab with asks := [] } }
  match t.fab.asks with
  | [] => { t with fab := { t.fab with arrived := t.fab.arrived.filter (·.1 != some part) } }
  | a :: _ =>
    if s.fab.jobs.any (fun j => j.who == .unit && j.part == some part && j.va == a.2.1) then s
    else startJob s .unit (some part) a.2.1 a.2.2.2 t.fab.asks

/-- Does the enabling of a unit through a register still wait for a neighbour? Then it no longer comes about. -/
def cancelEnable (s : State) (a : RegAddr) : State :=
  { s with fab := { s.fab with jobs := s.fab.jobs.filter fun j => match j.who with | .enable b _ => b != a | _ => true } }

/-- Enable a unit through a register whose write carried `v`: where its blocks lie at a neighbour, its ENABLE reads 0 (`off`) until
they have arrived (log entry 126). -/
def enableVia (part : Nat) (off enable : State → State) (a : RegAddr) (v : Nat) (s : State) : State :=
  let t := enable { s with fab := { s.fab with asks := [] } }
  match t.fab.asks with
  | [] => { t with fab := { t.fab with arrived := t.fab.arrived.filter (·.1 != some part) } }
  | x :: _ => startJob (off s) (.enable a v) (some part) x.2.1 x.2.2.2 t.fab.asks

end Sys2Proof.Machine
end

