-- ==== Sys2Proof/Machine/Tensor.lean ====
section
/-!
DEFINITION. Reading and writing tensors: elements and scale arrays by descriptor (02_formats.md R43 to R58, R66 to R71, R611),
the merge of packed elements (R50), stochastic rounding's element index (04_rounding_census_ledger.md R100 to R104), sealed
tensors (13_inlay.md R354 to R358, R368 to R382) and A48 spill tiles (02_formats.md R72 to R75).
-/
namespace Sys2Proof.Machine

/-- Who reads or writes for an MI: a panel, for T0 a logical bench of it, and the output tile that it is at work on. -/
structure Exec where
  panel : Nat
  bench : Nat
  tile : Nat := 0
deriving DecidableEq, Repr, Inhabited

/-- Is an MI one that the Mitre engines carry out, whose requests go past the panels' caches (11_drawers_tiers.md R310)? -/
def mitreMi (f : Flight) : Bool := miOpcode f.word == 0x20 || miOpcode f.word == 0x21

/-- The request of an MI by partition address (11_drawers_tiers.md R299). -/
def miReq (f : Flight) (panel : Nat) : Req :=
  { part := some f.part, master := 4, panel := if mitreMi f then none else some panel, mi := some f.mi }

/-- The request of an MI to its own drawer or sideboard: the bench's, or for MOVE and MCAST the DMA engine's reads and the
DMA engine's or bunting's writes (11_drawers_tiers.md R299, R319; 06_jig.md R185). -/
def benchReq (f : Flight) (write : Bool) : Req :=
  { part := some f.part, mi := some f.mi
    master := match miOpcode f.word with | 0x10 => 2 | 0x11 => if write then 1 else 2 | _ => 0 }

/-- The device-physical address of a T0 or T1 offset for a unit. -/
def nearAddr (s : State) (u : Exec) (tier off : Nat) : Nat :=
  if tier == 0 then drawerBase u.panel ((physOf s u.panel u.bench).getD 0) + off else sideboardBase u.panel + off

/-- The bytes that have come from a neighbour for an address, oldest first; 256 stands for a byte that came as POISON. -/
def arrivals (f : Flight) (a : Nat) : List Nat :=
  f.remote.filterMap fun r => if r.1 ≤ a && a < r.1 + r.2.length then some (r.2.getD (a - r.1) 0) else none

/-- The `i`-th arrival of each of `n` bytes; 0 for one that did not come. -/
def arrivedBytes (f : Flight) (i a n : Nat) : List Nat := (List.range n).map fun k => (arrivals f (a + k)).getD i 0

/-- `n` bytes at an offset from BASE (R138). -/
def tierGet (w : Work) (d : Desc) (u : Exec) (off n : Nat) : Work × List Nat :=
  if n == 0 then (w, [])
  else if d.tier == 4 then (w, arrivedBytes w.f 0 (d.base + off) n)
  else
    let g := if d.tier ≤ 1 then (let a := nearAddr w.s u d.tier (d.base + off); physGet w.s (benchReq w.f false) a n a)
      else partGet w.s (miReq w.f u.panel) w.f.part (d.base + off) n
    (noteCond? { w with s := g.s } g.cond, g.bytes)

/-- Write bytes at an offset from BASE. A neighbour's bytes wait in the flight for the fabric. -/
def tierPut (w : Work) (d : Desc) (u : Exec) (off : Nat) (bs : List Nat) : Work :=
  if bs.isEmpty then w
  else if d.tier == 4 then { w with f := { w.f with puts := w.f.puts ++ [(d.base + off, bs)] } }
  else
    let g := if d.tier ≤ 1 then (let a := nearAddr w.s u d.tier (d.base + off); physPut w.s (benchReq w.f true) a bs a)
      else partPut w.s (miReq w.f u.panel) w.f.part (d.base + off) bs
    noteCond? { w with s := g.s } g.cond

/-- Read partition memory for an MI. -/
def memGet (w : Work) (panel va n : Nat) : Work × List Nat :=
  let g := partGet w.s (miReq w.f panel) w.f.part va n
  (noteCond? { w with s := g.s } g.cond, g.bytes)

/-- Write partition memory for an MI. -/
def memPut (w : Work) (panel va : Nat) (bs : List Nat) : Work :=
  let g := partPut w.s (miReq w.f panel) w.f.part va bs
  noteCond? { w with s := g.s } g.cond

/-! Scale arrays (R56). -/

/-- Bytes of a run of block scales. -/
def scaleRun (d : Desc) : Nat := roundUp (ceilDiv (descExt d d.blockAxis) 32) 64

/-- A box with the block axis counted in blocks. -/
def blockBox (axis : Nat) (box : List (Nat × Nat)) : List (Nat × Nat) :=
  box.zipIdx.map fun p =>
    if p.2 == axis then (p.1.1 / 32, if p.1.2 == 0 then 0 else (p.1.1 + p.1.2 - 1) / 32 - p.1.1 / 32 + 1) else p.1

/-- `l` without element `k`. -/
def dropAt {α : Type} (k : Nat) (l : List α) : List α := l.take k ++ l.drop (k + 1)

/-- `l` with `a` inserted before element `k`. -/
def insertAt {α : Type} (k : Nat) (a : α) (l : List α) : List α := l.take k ++ a :: l.drop k

/-- Coordinates with the block axis counted in blocks. -/
def blockCoord (axis : Nat) (c : List Nat) : List Nat := c.set axis (c.getD axis 0 / 32)

/-- The address of the run of scales for the coordinates other than the block axis. -/
def scaleAddr (d : Desc) (others : List Nat) : Nat :=
  d.scalePtr + linIndex (dropAt d.blockAxis d.extents) others * scaleRun d

/-- Read the scales of a box, in the order of its block box. -/
def readScales (w : Work) (d : Desc) (u : Exec) (box : List (Nat × Nat)) : Work × Array Nat :=
  let bb := blockBox d.blockAxis box
  let (b0, nb) := bb.getD d.blockAxis (0, 0)
  let others := dropAt d.blockAxis bb
  let (w, runs) := (boxCoords others).foldl (fun (p : Work × List (List Nat × List Nat)) o =>
    let (w, bs) := memGet p.1 u.panel (scaleAddr d o + b0) nb
    (w, (o, bs) :: p.2)) (w, [])
  let size := bb.foldl (fun a p => a * p.2) 1
  (w, runs.foldl (fun arr r =>
    (r.2.zipIdx).foldl (fun arr q => arr.set! (boxIndex bb (insertAt d.blockAxis (b0 + q.2) r.1)) q.1) arr)
    (Array.replicate size 0))

/-! Sealed sources (13_inlay.md). -/

/-- Bytes of a spill tile of `n` values (02_formats.md R73). -/
def spillSize (n : Nat) : Nat := roundUp (64 + 6 * n) 64

/-- Bytes of the spill tiles of one output of `m` rows and `n` columns under a SHAPE: those of whole rows of tiles have the tile's
rows, the last ones what is left, and so with columns. -/
def spillGrid (word : List Nat) (m n : Nat) : Nat :=
  let (r, c) := tileShape (miShape word)
  let row (h : Nat) : Nat := n / c * spillSize (h * c) + (if n % c == 0 then 0 else spillSize (h * (n % c)))
  m / r * row r + (if m % r == 0 then 0 else row (m % r))

/-- Raw bytes of the image of an MI's operand (R354). A spill operand of a copy counts 64-byte units (11_drawers_tiers.md R317;
06_jig.md R187); one of a collective holds the spill tiles of one output whose rows are its extents 4 to 1 (16_mitre.md R446);
another holds the spill tiles of each of its outputs (log entry 25). -/
def imageBytes (word : List Nat) (d : Desc) : Nat :=
  if d.format == 0xF then
    if [0x10, 0x11].contains (miOpcode word) then 64 * descExt d 0
    else if miOpcode word == 0x20 then spillGrid word ((d.extents.drop 1).foldl (· * ·) 1) (descExt d 0)
    else spillGrid word (descExt d 1) (descExt d 0) * (d.extents.drop 2).foldl (· * ·) 1
  else rowBytes (descFmt d) (descExt d 0) * (d.extents.drop 1).foldl (· * ·) 1

/-- Blocks of a sealed tensor (R355). -/
def imageBlocks (word : List Nat) (d : Desc) : Nat := ceilDiv (imageBytes word d) (blockSize (descFmt d))

/-- The address of a block's slot. -/
def blockSlot (d : Desc) (j : Nat) : Nat := d.base + j * slotSize (descSealTag d)

/-- The edge die whose pool decodes Inlay-G for a panel (R380): fewest spine links, the lower number on a tie. Panel p
stands in row p / 4 and column p mod 4 (01_cabinet.md). -/
def inlayEdge (panel : Nat) : Nat :=
  let row := panel / 4
  let col := panel % 4
  let dist := [row + 1, 4 - col, 4 - row, col + 1]
  let best := dist.foldl min 4
  dist.findIdx (· == best)

/-- Log a damaged block (INL_STAT2, INL_DMG, INL_GSTAT). -/
def logDamage (s : State) (panel part : Nat) (graphics : Bool) (slot detail : Nat) : State :=
  let (log, s) : RegAddr × State :=
    if graphics then
      let e := inlayEdge panel
      (edgeReg .inlDmg e 0, rbump s (edgeReg .inlGstat e 0) 63 48 1)
    else (panelReg .inlDmg panel 0, rbump s (panelReg .inlStat2 panel 0) 31 16 1)
  if rbit s log 63 then s
  else rset s log (slot % 2 ^ 48 + part <<< 48 + (detail % 16) <<< 56 + 1 <<< 63)

/-- What attempt `k` has read of a neighbour's slot `j`: its bytes, and whether both readings of the first granule agree and show a
MAGIC. The slot is read whole and then its first granule once more. -/
def neighborAttempt (f : Flight) (d : Desc) (j k : Nat) : List Nat × Bool :=
  let a := blockSlot d j
  let first := arrivedBytes f (2 * k) a 64
  (first ++ arrivedBytes f k (a + 64) (slotSize (descSealTag d) - 64),
   first == arrivedBytes f (2 * k + 1) a 64 && leAt first 0 2 != 0)

/-- Have all bytes of attempt `k` arrived? -/
def attemptCame (f : Flight) (d : Desc) (j k : Nat) : Bool :=
  let a := blockSlot d j
  let z := slotSize (descSealTag d)
  (k + 1) * (z + 64) ≤ ((f.remote.filter fun r => a ≤ r.1 && r.1 < a + z).map fun r => r.2.length).sum

/-- What is still to be read of a neighbour's slot, from attempt `k` on: nothing once an attempt holds, or came with POISON, or three
have been made (R378). -/
def slotAsks (f : Flight) (d : Desc) (j : Nat) : Nat → Nat → List (Nat × Nat)
  | 0, _ => []
  | left + 1, k =>
    if !(attemptCame f d j k) then [(blockSlot d j, slotSize (descSealTag d)), (blockSlot d j, 64)]
    else
      let x := neighborAttempt f d j k
      if x.2 || x.1.any (255 < ·) then [] else slotAsks f d j left (k + 1)

/-- One attempt to read a container (R378): its first granule, the rest and the first granule again; `k` is the number of the
attempt. -/
def readAttempt (w : Work) (d : Desc) (u : Exec) (j k : Nat) : Work × List Nat × Bool :=
  let size := slotSize (descSealTag d)
  let off := j * size
  if d.tier == 4 then (w, neighborAttempt w.f d j k)
  else
    let (w, head) := tierGet w d u off 64
    let payLen := bits (leAt head 4 2) 12 0
    let n := min size (32 + payLen + (if bit (leAt head 4 2) 13 then 16 else 0))
    let (w, rest) := tierGet w d u (off + 64) (n - 64)
    let (w, again) := tierGet w d u off 64
    (w, (head ++ rest).take (max n 32), head == again && leAt head 0 2 != 0)

/-- What a container read yields: its bytes, or the damage that prevents it (orders 1 and 2 of R381); a first granule that differs
between its two readings, or has no MAGIC, is read again, three times in all (R378; INL_STAT2.RETRIES). -/
def readSlot : Nat → Work → Desc → Exec → Nat → Work × Except Nat (List Nat)
  | 0, w, _, _, _ => (w, .error 0x0708)
  | left + 1, w, d, u, j =>
    let before := w.f.conds
    let (w1, bs, ok) := readAttempt w d u j (2 - left)
    let new := w1.f.conds.drop before.length
    if new.any (fun c => c.status == 6) || bs.any (255 < ·) then
      ({ w1 with f := { w1.f with conds := before ++ new.filter (fun c => c.status != 6) } }, .error 0x0707)
    else if ok || !new.isEmpty then (w1, .ok bs)
    else if left == 0 then (w1, .error 0x0708)
    else readSlot left { w1 with s := rbump w1.s (panelReg .inlStat2 u.panel 0) 47 32 1 } d u j

/-- The keys of a key slot as an MI holds them. -/
def flightKeys (f : Flight) (k : Nat) : Option (List Nat) × Option (List Nat) :=
  (f.keys.getD (2 * k) none, f.keys.getD (2 * k + 1) none)

/-- Decode block `j` of a sealed source; a damaged block yields zeros and is noted in the flight (R276, R381). -/
def unsealOne (w : Work) (slot : Nat) (d : Desc) (u : Exec) (j : Nat) : Work × List Nat :=
  let size := blockSize (descFmt d)
  let len := min size (imageBytes w.f.word d - j * size)
  let (w, got) := readSlot 3 w d u j
  let spec : BlockSpec := { fmt := descFmt d, comp := d.comp, t := descTrunc d, tag := descSealTag d, rawLen := len
                            slot := blockSlot d j }
  match (match got with
    | .error e => (.error e : Except Nat (List Nat))
    | .ok bs => unsealBlock spec (flightKeys w.f) bs) with
  | .ok raw =>
    let s := if d.comp == 3 then rbump w.s (edgeReg .inlGstat (inlayEdge u.panel) 0) 47 16 1
      else rbump w.s (panelReg .inlStat u.panel 0) 63 32 1
    ({ w with s := s }, raw)
  | .error detail =>
    let s := logDamage w.s u.panel w.f.part (d.comp == 3) (blockSlot d j) detail
    ({ w with s := s
              f := { w.f with damages := w.f.damages ++
                [{ slot := slot, block := j, addr := blockSlot d j, detail := detail
                   policy := if w.f.run.isSome then 0 else d.damage, salvage := d.salvageId }] } },
     List.replicate len 0)

/-- Is a block one whose damage stops or parks the MI? -/
def blockStops (f : Flight) (slot j : Nat) : Bool :=
  f.damages.any fun d => d.slot == slot && d.block == j && d.policy != 1

/-- The raw bytes of block `j` of a sealed source, decoded once, by the Inlay of the panel that first needs it
(11_drawers_tiers.md R318; R380). -/
def sealedBlock (w : Work) (slot : Nat) (d : Desc) (u : Exec) (j : Nat) : Work × List Nat :=
  match w.blocks.find? (fun b => b.1 == slot && b.2.1 == j) with
  | some b => ({ w with cut := w.cut || blockStops w.f slot j }, b.2.2)
  | none =>
    let (w, raw) := unsealOne w slot d u j
    ({ w with blocks := (slot, j, raw) :: w.blocks, cut := w.cut || blockStops w.f slot j }, raw)

/-- `n` bytes of the raw image of a sealed source. -/
def sealedGet (w : Work) (slot : Nat) (d : Desc) (u : Exec) (off n : Nat) : Work × List Nat :=
  if n == 0 then (w, [])
  else
    let size := blockSize (descFmt d)
    let b0 := off / size
    let (w, bs) := (List.range ((off + n - 1) / size + 1 - b0)).foldl (fun (p : Work × List Nat) k =>
      let (w, raw) := sealedBlock p.1 slot d u (b0 + k)
      (w, p.2 ++ raw)) (w, [])
    (w, (bs.drop (off - b0 * size)).take n)

/-- `n` bytes of the operand in a slot: at `off` from BASE of a raw tensor, at `dense` of a sealed one's raw image. -/
def operandGet (w : Work) (slot : Nat) (d : Desc) (u : Exec) (off dense n : Nat) : Work × List Nat :=
  if d.comp == 0 then tierGet w d u off n else sealedGet w slot d u dense n

/-- The raw image of an operand whole. -/
def imageGet (w : Work) (slot : Nat) (d : Desc) (u : Exec) : Work × List Nat :=
  operandGet w slot d u 0 0 (imageBytes w.f.word d)

/-- The bytes of `n` elements of a row from `i0` in a raw image. -/
def denseRow (d : Desc) (c : List Nat) : Nat :=
  linIndex (d.extents.drop 1) (c.drop 1) * rowBytes (descFmt d) (descExt d 0)

/-! Reading elements. -/

/-- Elements of a box as read. `r` is the reciprocal tensor scale of R58; `bad` says that every element reads as NaN
(R57). -/
structure Tile where
  f : Fmt
  mx : Bool := false
  r : Option Val := none
  bad : Bool := false
  axis : Nat := 0
  box : List (Nat × Nat) := []
  codes : Array Nat := #[]
  sc : Array Nat := #[]
deriving Inhabited

/-- Is a tensor scale one that R57 rules out? -/
def badScale (code : Nat) : Bool := match f32 code with | .fin _ m _ => m == 0 | _ => true

/-- r = 1 / s rounded RNE to FP32 (R58), computed exactly. -/
def recipScale (code : Nat) : Val :=
  match f32 code with
  | .fin n m e =>
    if m == 0 then .nan
    else
      let k := 64 + Nat.log2 m
      -- the quotient with a sticky bit keeps one correct rounding
      let q := (1 <<< k) / m
      let st := if (1 <<< k) % m == 0 then 0 else 1
      match rne32 (.fin false (2 * q + st) (-e - k - 1)) with
      | .fin _ m' e' => .fin n m' e'
      | .inf _ => .inf n
      | v => v
  | _ => .nan

/-- One row's element codes, from `i0`, `n` of them. -/
def readRow (w : Work) (slot : Nat) (d : Desc) (u : Exec) (c : List Nat) (i0 n : Nat) : Work × List Nat :=
  let f := descFmt d
  let g0 := i0 / groupElems f
  let g1 := ceilDiv (i0 + n) (groupElems f)
  let at' := g0 * groupBytes f
  let (w, bs) := operandGet w slot d u (rowOffset d c + at') (denseRow d c + at') ((g1 - g0) * groupBytes f)
  (w, ((unpack f bs).drop (i0 - g0 * groupElems f)).take n)

/-- The codes of a box of an operand. -/
def readCodes (w : Work) (slot : Nat) (d : Desc) (u : Exec) (box : List (Nat × Nat)) : Work × Array Nat :=
  match box with
  | [] => (w, #[])
  | (i0, n) :: rest =>
    (boxCoords rest).foldl (fun (p : Work × Array Nat) o =>
      let (w, cs) := readRow p.1 slot d u (0 :: o) i0 n
      (w, p.2 ++ cs.toArray)) (w, #[])

/-- Read a box of the tensor in a slot. -/
def loadBox (w : Work) (slot : Nat) (d : Desc) (u : Exec) (box : List (Nat × Nat)) : Work × Tile :=
  let (w, codes) := readCodes w slot d u box
  let (w, sc) : Work × Array Nat := if descMx d then readScales w d u box else (w, #[])
  (w, { f := descFmt d, mx := descMx d
        r := if descTensor d then some (recipScale d.tscale) else none
        bad := descTensor d && badScale d.tscale
        axis := d.blockAxis, box := box, codes := codes, sc := sc })

/-- Is a coordinate inside a tile's box? -/
def inBox (box : List (Nat × Nat)) (c : List Nat) : Bool :=
  (box.zip c).all fun p => p.1.1 ≤ p.2 && p.2 < p.1.1 + p.1.2

/-- The element's value before any scale. -/
def rawVal (t : Tile) (c : List Nat) : Val :=
  if t.bad then .nan else decodeElem t.f t.mx (t.codes.getD (boxIndex t.box c) 0)

/-- The block scale at coordinates; 1 without MX32. -/
def scaleVal (t : Tile) (c : List Nat) : Val :=
  if t.mx then e8m0 (t.sc.getD (boxIndex (blockBox t.axis t.box) (blockCoord t.axis c)) 0) else Val.one

/-- The element's value under R53, exact. -/
def elemVal (t : Tile) (c : List Nat) : Val :=
  let v := (rawVal t c).mul (scaleVal t c)
  match t.r with | some r => v.mul r | none => v

/-- What an operand of the vector units becomes (R58, R68): RNE into FP32, or the overflow result of the MI's mode and
saturate bit. An infinite element times a scale keeps its sign; R57 gives NaN, produced. Where the reciprocal r of R58 is itself
infinite the element's exact product is taken with that infinity, an infinite one being recorded as nothing and a zero element's as a
NaN propagated: DESIGN CHOICE, log entry 128. -/
def widen32 (mode : RMode) (sat : Bool) (t : Tile) (v : Val) : Acc :=
  match v with
  | .nan => { v := .nan, nanIn := !t.bad }
  | .inf n => { v := .inf n }
  | .fin n _ _ =>
    match rne32 v with
    | .inf _ =>
      let c := overflowResult .fp32 n mode sat
      { v := f32 c.code, recOvf := c.ovfInf, recSat := c.sat }
    | x => ({ v := v } : Acc).step v x

/-- The FP32 operand at coordinates. -/
def vecVal (mode : RMode) (sat : Bool) (t : Tile) (c : List Nat) : Acc := widen32 mode sat t (elemVal t c)

/-! Writing elements. -/

/-- Runs of consecutive present elements of a row: first index and codes. -/
def presentRuns : Nat → List (Option Nat) → List (Nat × List Nat)
  | _, [] => []
  | i, none :: rest => presentRuns (i + 1) rest
  | i, some c :: rest =>
    match presentRuns (i + 1) rest with
    | (j, cs) :: more => if j == i + 1 then (i, c :: cs) :: more else (i, [c]) :: (j, cs) :: more
    | [] => [(i, [c])]

/-- Write elements of one row from `i0`, merging with the other elements of their groups (R50). -/
def writeRun (w : Work) (d : Desc) (u : Exec) (c : List Nat) (i0 : Nat) (cs : List Nat) : Work :=
  let f := descFmt d
  let ge := groupElems f
  let g0 := i0 / ge
  let g1 := ceilDiv (i0 + cs.length) ge
  let off := rowOffset d c + g0 * groupBytes f
  if i0 % ge == 0 && cs.length % ge == 0 then tierPut w d u off (pack f cs)
  else
    let old := unpack f (tierGet w d u off ((g1 - g0) * groupBytes f)).2
    let k := i0 - g0 * ge
    tierPut w d u off (pack f (old.take k ++ cs ++ old.drop (k + cs.length)))

/-- Write the present codes of a box of a raw tensor. -/
def writeCodes (w : Work) (d : Desc) (u : Exec) (box : List (Nat × Nat)) (codes : Array (Option Nat)) : Work :=
  match box with
  | [] => w
  | (i0, n) :: rest =>
    ((boxCoords rest).zipIdx).foldl (fun w p =>
      let row := (List.range n).map fun i => (codes.getD (p.2 * n + i) none)
      (presentRuns i0 row).foldl (fun w r => writeRun w d u (0 :: p.1) r.1 r.2) w) w

/-- Write block scales of a box; a run's last block brings the zero padding of its run (R56). -/
def writeScales (w : Work) (d : Desc) (u : Exec) (box : List (Nat × Nat)) (sc : Array (Option Nat)) : Work :=
  let bb := blockBox d.blockAxis box
  let (b0, nb) := bb.getD d.blockAxis (0, 0)
  let total := ceilDiv (descExt d d.blockAxis) 32
  (boxCoords (dropAt d.blockAxis bb)).foldl (fun w o =>
    let row := (List.range nb).map fun k => sc.getD (boxIndex bb (insertAt d.blockAxis (b0 + k) o)) none
    (presentRuns b0 row).foldl (fun w r =>
      let padded := if r.1 + r.2.length == total then r.2 ++ List.replicate (scaleRun d - total) 0 else r.2
      memPut w u.panel (scaleAddr d o + r.1) padded) w) w

/-! Conversion (R66) and its census. -/

/-- The block scale of R69 and R71 for the values of a block, after the tensor scale: its code and how its elements are
written: 0 by R70, 1 and 2 as a NaN block (for a NaN; for an infinity or an exponent), 3 under 0xFE. -/
def mxScale (f : Fmt) (sat : Bool) (vs : List Acc) : Nat × Nat :=
  if vs.any (fun a => a.v.isNan) then (0xFF, 1)
  else if vs.any (fun a => a.v.isInf) then (if sat then (0xFE, 3) else (0xFF, 2))
  else
    let logs := vs.filterMap fun a => match a.v with
      | .fin _ m e => if m == 0 then none else some (flog2 m a.den e)
      | _ => none
    match logs with
    | [] => (0, 0)
    | l :: ls =>
      let k := ls.foldl max l - mxElemPow f
      if 127 < k then (if sat then (0xFE, 3) else (0xFF, 2))
      else ((max 0 (k + 127)).toNat, 0)

/-- A value times the destination's tensor scale; an infinity takes its sign (R66). -/
def timesScale (d : Desc) (v : Val) : Val :=
  if descTensor d then
    (match v with
     | .inf n => .inf (n != (f32 d.tscale).isNeg)
     | v => v.mul (f32 d.tscale))
  else v

/-- The census of an element of a NaN block (R611). -/
def nanElem (d : Desc) (a : Acc) (kind : Nat) : Cen :=
  let prod := kind == 2 || (a.v.isNan && !a.nanIn)
  { ovfInf := kind == 2, nanProd := prod, nanProp := !prod, valid := true, amax := amaxOf a, tensorId := d.tensorId
    elements := 1, nanCnt := 1 }

/-- One element converted into a destination: its code and census. `kind` and `code` are those of its block under MX32. -/
def convElem (d : Desc) (mode : RMode) (sat : Bool) (u : Nat) (a : Acc) (kind code : Nat) : Nat × Cen :=
  let f := descFmt d
  if descTensor d && badScale d.tscale then
    let n := if fmtHasNan f then fmtNan f else 0
    (n, nanElem d { a with v := if a.v.isNan then .nan else a.v, nanIn := false } (if a.v.isNan then 1 else 4) |>
      fun c => { c with ovfInf := false, nanProd := true, nanProp := false })
  else
    let v := timesScale d a.v
    if descMx d then
      if kind == 1 || kind == 2 then (0, nanElem d a kind)
      else
        let c := match kind, v with
          | 3, .inf n => satResult f n
          | _, _ => convertTo f true mode true u (v.scale2 (127 - (code : Int))) a.den
        let c := if kind == 3 then c else { c with sat := false }
        (c.code, cenElem f d.tensorId a c)
    else
      let c := convertTo f false mode sat u v a.den
      (c.code, cenElem f d.tensorId a c)

/-- What conversion of a tensor yields, element by element and block by block. -/
structure Converted where
  codes : Array (Option Nat)
  cens : Array Cen
  scales : Array (Option Nat)
deriving Inhabited

/-- The SR draw of the element at coordinates (R100 to R104); 0 in the other modes. -/
def drawFor (f : Flight) (d : Desc) (mode : RMode) (c : List Nat) : Nat :=
  if mode == .sr then srDraw f.seed ((miOrigin f.word + linIndex d.extents c) % 2 ^ 64) (miStep f.word) d.tensorId else 0

/-- Convert the present values of a whole tensor into the destination's codes, scales and census. -/
def convertAll (f : Flight) (d : Desc) (mode : RMode) (sat : Bool) (vals : Array (Option Acc)) : Converted :=
  let box := wholeBox d
  let bb := blockBox d.blockAxis box
  let blocks : Array (Option (Nat × Nat)) :=
    if descMx d then
      ((boxCoords bb).map fun b =>
        let here := (List.range 32).filterMap fun i =>
          let c := b.set d.blockAxis (b.getD d.blockAxis 0 * 32 + i)
          if inBox box c then vals.getD (boxIndex box c) none else none
        if here.isEmpty then none
        else if descTensor d && badScale d.tscale then some (0xFF, 0)
        else some (mxScale (descFmt d) sat (here.map fun a => { a with v := timesScale d a.v }))).toArray
    else #[]
  let blockOf (c : List Nat) : Nat × Nat :=
    if descMx d then (blocks.getD (boxIndex bb (blockCoord d.blockAxis c)) none).getD (0, 0) else (0, 0)
  let out := ((boxCoords box).zipIdx).foldl (fun (p : Array (Option Nat) × Array Cen) ci =>
    match vals.getD ci.2 none with
    | none => (p.1.push none, p.2.push {})
    | some a =>
      let b := blockOf ci.1
      let (code, cen) := convElem d mode sat (drawFor f d mode ci.1) a b.2 b.1
      (p.1.push (some code), p.2.push cen)) (#[], #[])
  { codes := out.1, cens := out.2, scales := blocks.map (fun b => b.map (·.1)) }

/-! Sealed destinations (13_inlay.md). -/

/-- The raw image of element codes. -/
def codesImage (d : Desc) (codes : Array Nat) : List Nat :=
  let n := descExt d 0
  let rows := (d.extents.drop 1).foldl (· * ·) 1
  (List.range rows).flatMap fun i => pack (descFmt d) ((List.range n).map fun k => codes.getD (i * n + k) 0)

/-- The containers of a raw image with their offsets from BASE (R355, R368). -/
def containersOf (w : Work) (d : Desc) (raw : List Nat) : List (Nat × List Nat) :=
  let size := blockSize (descFmt d)
  let k := flightKeys w.f w.f.sealKey
  (List.range (ceilDiv raw.length size)).map fun j =>
    (j * slotSize (descSealTag d),
     sealBlock (descFmt d) d.comp (descTrunc d) (descSealTag d) w.f.sealKey w.f.sealVersion (blockSlot d j)
      (k.1.getD []) (k.2.getD []) ((raw.drop (j * size)).take size))

/-- The three steps of R377 as writes to a neighbour, each after the one before is visible: the first granule with MAGIC
0x0000, the rest, the first granule again. -/
def stagedPuts (base : Nat) (cs : List (Nat × List Nat)) : List (Nat × List Nat) :=
  cs.map (fun c => (base + c.1, [0, 0] ++ (c.2.take 64).drop 2)) ++ [(0, [])] ++
  (cs.filter fun c => 64 < c.2.length).map (fun c => (base + c.1 + 64, c.2.drop 64)) ++ [(0, [])] ++
  cs.map fun c => (base + c.1, c.2.take 64)

/-- Seal a raw image into a destination (R358, R368, R377), each block by the Inlay of the panel that `unitAt` gives for its first
byte (11_drawers_tiers.md R318). In the device's own memory the three steps of R377 fall into the one step of the MI. -/
def sealImage (w : Work) (d : Desc) (u : Exec) (unitAt : Nat → Nat) (raw : List Nat) : Work :=
  let cs := containersOf w d raw
  let s := (cs.zipIdx).foldl (fun s c =>
    let p := unitAt (c.2 * blockSize (descFmt d))
    let s := rbump s (panelReg .inlStat p 0) 31 0 1
    if isEscape c.1.2 then rbump s (panelReg .inlStat2 p 0) 15 0 1 else s) w.s
  let w := { w with s := s }
  if d.tier == 4 then { w with f := { w.f with puts := w.f.puts ++ stagedPuts d.base cs } }
  else cs.foldl (fun w c => tierPut w d u c.1 c.2) w

/-! Destinations. -/

/-- Write bytes of a destination: at `off` from BASE of a raw tensor, or at `dense` of a sealed one's raw image, which is gathered
and sealed at the end (13_inlay.md R358). -/
def outPut (w : Work) (d : Desc) (u : Exec) (off dense : Nat) (bs : List Nat) : Work :=
  if d.comp == 0 then tierPut w d u off bs else { w with outs := w.outs ++ [(d, dense, u.panel, bs)] }

/-- Seal the destinations that have been gathered; bytes that nothing gave are zero. -/
def sealOuts (w : Work) : Work :=
  let ds := (w.outs.map (·.1)).eraseDups
  ds.foldl (fun w d =>
    let mine := w.outs.filter (·.1 == d)
    let raw := mine.foldl (fun (img : Array Nat) o =>
      (o.2.2.2.zipIdx).foldl (fun img b => img.set! (o.2.1 + b.2) b.1) img) (Array.replicate (imageBytes w.f.word d) 0)
    let unitAt (i : Nat) : Nat :=
      ((mine.find? fun o => o.2.1 ≤ i && i < o.2.1 + o.2.2.2.length).map (·.2.2.1)).getD w.f.panel
    sealImage w d { panel := w.f.panel, bench := 0 } unitAt raw.toList) w

/-- An array in which entries that fail a test are absent. -/
def maskArray {α : Type} (a : Array (Option α)) (p : Nat → Bool) : Array (Option α) :=
  ((List.range a.size).map fun i => if p i then a.getD i none else none).toArray

/-- The unit that writes a block's scale: that of its first present element. -/
def blockUnits (d : Desc) (vals : Array (Option Acc)) (units : Array Exec) : Array Exec :=
  let box := wholeBox d
  ((boxCoords (blockBox d.blockAxis box)).map fun b =>
    let here := (List.range 32).filterMap fun i =>
      let c := b.set d.blockAxis (b.getD d.blockAxis 0 * 32 + i)
      if inBox box c && (vals.getD (boxIndex box c) none).isSome then some (boxIndex box c) else none
    units.getD (here.headD 0) default).toArray

/-- Write converted elements and scales; an element that `idx` does not list is absent. -/
def storeConv (w : Work) (d : Desc) (o : Converted) (idx : List Nat) (vals : Array (Option Acc)) (units : Array Exec) :
    Work :=
  let box := wholeBox d
  let us := (idx.map fun i => units.getD i default).eraseDups
  let w :=
    if d.comp == 0 then
      us.foldl (fun w u => writeCodes w d u box (maskArray o.codes fun i => units.getD i default == u)) w
    else
      let n := max 1 (rowBytes (descFmt d) (descExt d 0))
      let unitAt (i : Nat) : Nat :=
        let e := i / n * descExt d 0 + i % n / groupBytes (descFmt d) * groupElems (descFmt d)
        if (vals.getD e none).isSome then (units.getD e default).panel else w.f.panel
      sealImage w d { panel := w.f.panel, bench := 0 } unitAt (codesImage d (o.codes.map fun c => c.getD 0))
  if descMx d then
    let bu := blockUnits d vals units
    us.foldl (fun w u => writeScales w d u box (maskArray o.scales fun i => bu.getD i default == u)) w
  else w

/-- Write the present values of a destination: `units` gives the unit that computed each element with its tile, which writes it and
on whose panel the tile's census merges (04_rounding_census_ledger.md R114). A sealed destination is gathered into its raw image
and every block is written once (13_inlay.md R358); an element without a value is zero there. -/
def storeAll (w : Work) (d : Desc) (mode : RMode) (sat census : Bool) (vals : Array (Option Acc)) (units : Array Exec) :
    Work :=
  let o := convertAll w.f d mode sat vals
  let idx := (List.range vals.size).filter fun i => (vals.getD i none).isSome
  let us := (idx.map fun i => units.getD i default).eraseDups
  let w := storeConv w d o idx vals units
  if census then
    us.foldl (fun w u =>
      noteCensus w u.panel d (idx.foldl (fun c i =>
        if units.getD i default == u && !((vals.getD i none).getD {}).mute then cenMerge c (o.cens.getD i {})
        else c) {})) w
  else w

/-- The FP32 code of a secondary output: rounded RNE, times the tensor scale of its descriptor where it has one (02_formats.md
R41, R57, R58; 04_rounding_census_ledger.md R106). -/
def secondaryCode (d : Desc) (v : Val) : Nat :=
  if descTensor d && badScale d.tscale then fmtNan .fp32 else enc32 (timesScale d v)

/-- Secondary outputs (04_rounding_census_ledger.md R106): FP32, RNE, no census. -/
def storeSecondary (w : Work) (d : Desc) (u : Exec) (box : List (Nat × Nat)) (vals : Array (Option Val)) : Work :=
  if d.comp == 0 then writeCodes w d u box (vals.map fun v => v.map (secondaryCode d))
  else ((boxCoords box).zipIdx).foldl (fun w c =>
    match vals.getD c.2 none with
    | some v => outPut w d u 0 (4 * linIndex d.extents c.1) (leBytes 4 (secondaryCode d v))
    | none => w) w

/-- A row of U32 words of a table, at the row of coordinates `c`. The words are stored as they are, whatever the tensor scale of the FP32
descriptor: DESIGN CHOICE, log entry 130. -/
def putWords (w : Work) (d : Desc) (u : Exec) (c : List Nat) (words : List Nat) : Work :=
  outPut w d u (rowOffset d c) (4 * linIndex d.extents c) (words.flatMap (leBytes 4))

/-! A48 spill (02_formats.md R72 to R75). -/

/-- A spill tile: header fields and A48 codes, row-major. -/
structure SpillTile where
  tensorId : Nat := 0
  first : Nat := 0
  count : Nat := 1
  flags : Nat := 0
  rows : Nat := 1
  cols : Nat := 1
  originM : Nat := 0
  originN : Nat := 0
  values : List Nat := []
deriving DecidableEq, Repr, Inhabited

def spillBytes (t : SpillTile) : List Nat :=
  let n := t.rows * t.cols
  leBytes 4 t.tensorId ++ leBytes 4 t.first ++ leBytes 4 t.count ++ [t.flags, 0] ++ leBytes 2 t.rows ++
  leBytes 2 t.cols ++ [0, 0] ++ leBytes 4 t.originM ++ leBytes 4 t.originN ++ List.replicate 36 0 ++
  t.values.flatMap (leBytes 6) ++ List.replicate (spillSize n - 64 - 6 * n) 0

/-- Header fields of a spill tile. -/
def spillHead (b : List Nat) : SpillTile :=
  { tensorId := leAt b 0 4, first := leAt b 4 4, count := leAt b 8 4, flags := b.getD 12 0, rows := leAt b 14 2
    cols := leAt b 16 2, originM := leAt b 20 4, originN := leAt b 24 4 }

/-- Read the spill tile at an offset of an operand: its header, and its values where it names between 1 and 512 rows and columns
(R73). -/
def readSpill (w : Work) (slot : Nat) (d : Desc) (u : Exec) (off : Nat) : Work × SpillTile :=
  let (w, b) := operandGet w slot d u off off 64
  let h := spillHead b
  if h.rows == 0 || h.cols == 0 || 512 < h.rows || 512 < h.cols then (w, { h with rows := 0, cols := 0 })
  else
    let (w, bs) := operandGet w slot d u (off + 64) (off + 64) (6 * h.rows * h.cols)
    (w, { h with values := unpack .a48 bs })

end Sys2Proof.Machine
end

