-- ==== Sys2Proof/Machine/Tiles.lean ====
section
/-!
DEFINITION. The Jig's plan (06_jig.md): tile menu R174, walks R165 to R167, the FIXED and SHARED deals R169 to R173, open tiles
R175, the drawer footprint R176 and R213, step counts R181 and R193.
-/
namespace Sys2Proof.Machine

/-- Sideboard side of an SB_SIDE code (R132). -/
def tileSide : Nat → Nat
  | 0 => 1024 | 1 => 2048 | _ => 4096

/-- Does N lie outside M in a loop-order code (R167)? -/
def loopNOuter (code : Nat) : Bool := code % 2 == 1
/-- Is K innermost (R167)? -/
def loopKInner (code : Nat) : Bool := code ≤ 1
/-- Does M, and does N, lie inside K (R167)? -/
def loopMInK (code : Nat) : Bool := code == 3 || code == 4 || code == 5
def loopNInK (code : Nat) : Bool := code == 2 || code == 4 || code == 5

/-- An output drawer tile: its number in the whole MI, its panel tile's number, the count i of R170 that its panel gives it under
FIXED, its problem, its rows and columns. -/
structure OutTile where
  no : Nat
  pt : Nat
  share : Nat := 0
  prob : Nat
  m0 : Nat
  ms : Nat
  n0 : Nat
  ns : Nat
deriving DecidableEq, Repr, Inhabited

/-- Pairs of indices below `a` and `b`, the second outermost when `swap`. -/
def pairsIn (swap : Bool) (a b : Nat) : List (Nat × Nat) :=
  if swap then (List.range b).flatMap fun j => (List.range a).map fun i => (i, j)
  else (List.range a).flatMap fun i => (List.range b).map fun j => (i, j)

/-- The drawer tiles of one problem, by panel tile, in walk order. -/
def problemTiles (word : List Nat) (prob m n : Nat) : List (List OutTile) :=
  let (r, c) := tileShape (miShape word)
  let s := tileSide (miSide word)
  (pairsIn (loopNOuter (miLoopHbm word)) (ceilDiv m s) (ceilDiv n s)).map fun q =>
    let mh := min s (m - q.1 * s)
    let nh := min s (n - q.2 * s)
    (pairsIn (loopNOuter (miLoopSbd word)) (ceilDiv mh r) (ceilDiv nh c)).map fun t =>
      { no := 0, pt := 0, prob := prob, m0 := q.1 * s + t.1 * r, ms := min r (mh - t.1 * r)
        n0 := q.2 * s + t.2 * c, ns := min c (nh - t.2 * c) }

/-- Give the panel tiles and drawer tiles their numbers. The number j of a panel tile runs on from one problem of the MI to the next,
as the count i of R170 does: DESIGN CHOICE, log entry 129. -/
def numberTiles : Nat → Nat → List (List OutTile) → List (List OutTile)
  | _, _, [] => []
  | pt, no, g :: gs =>
    (g.zipIdx.map fun t => { t.1 with pt := pt, no := no + t.2 }) :: numberTiles (pt + 1) (no + g.length) gs

/-- Every drawer tile of an MI of `probs` problems, by panel tile. -/
def planTiles (word : List Nat) (probs m n : Nat) : List (List OutTile) :=
  numberTiles 0 0 ((List.range probs).flatMap fun p => problemTiles word p m n)

/-- Participating panels and their participating benches as the partition owns them now: what an MI keeps at issue (R169). -/
def rosterNow (s : State) (part mask : Nat) : List (Nat × List Nat) :=
  ((setPositions 16 mask).map fun p => (p, benchesOf s part p)).filter fun e => !e.2.isEmpty

/-- Participating panels of an MI (R169). -/
def panelsOf (f : Flight) : List Nat := f.roster.map (·.1)

/-- Participating benches of an MI on a panel (R169). -/
def dealtBenches (f : Flight) (p : Nat) : List Nat := ((f.roster.find? (·.1 == p)).map (·.2)).getD []

/-- The FIXED deal (R170). -/
def dealFixed (f : Flight) (pts : List (List OutTile)) : List (OutTile × Exec) :=
  let panels := panelsOf f
  ((pts.zipIdx).foldl (fun (acc : List (Nat × Nat) × List (OutTile × Exec)) g =>
    let p := panels.getD (g.2 % panels.length) 0
    let benches := dealtBenches f p
    let start := ((acc.1.find? (·.1 == p)).map (·.2)).getD 0
    let dealt := g.1.zipIdx.map fun t =>
      ({ t.1 with share := start + t.2 },
       ({ panel := p, bench := benches.getD ((start + t.2) % benches.length) 0, tile := t.1.no } : Exec))
    (upsert (fun e => e.1 == p) (p, start + g.1.length) acc.1, acc.2 ++ dealt)) ([], [])).2

/-- The deal of an MI: under SHARED, tiles drawn by TILE_DEAL_SHARED stand as drawn and the others as under FIXED (log entry
19). -/
def dealTiles (f : Flight) (pts : List (List OutTile)) : List (OutTile × Exec) :=
  (dealFixed f pts).map fun (t, u) =>
    if miShared f.word then
      match f.deals.find? (fun d => d.1 == t.no) with
      | some d => (t, { panel := d.2.1, bench := d.2.2, tile := t.no })
      | none => (t, u)
    else (t, u)

/-- O_panel and H of R175 for an MI of extents m, n, k on `p` panels with `nb` benches. -/
def openLimits (word : List Nat) (m n k p nb : Nat) : Nat × Nat :=
  let (r, c) := tileShape (miShape word)
  let s := tileSide (miSide word)
  let sbd := miLoopSbd word
  let hbm := miLoopHbm word
  if k ≤ s then
    if loopKInner sbd then (nb, 1)
    else ((if loopMInK sbd then s / r else 1) * (if loopNInK sbd then s / c else 1), 1)
  else if loopKInner hbm then ((s / r) * (s / c), 1)
  else
    let q := (if loopMInK hbm then ceilDiv m s else 1) * (if loopNInK hbm then ceilDiv n s else 1)
    let h := ceilDiv q p
    ((s / r) * (s / c) * h, h)

/-- O_b (R173, R175). -/
def openTiles (word : List Nat) (m n k p nb : Nat) : Nat :=
  max 1 (ceilDiv (openLimits word m n k p nb).1 nb)

/-- Bits per element of a descriptor for the footprint; 48 for spill (R176). -/
def footBits (d : Option Desc) : Nat := match d with | some d => fmtBits (descFmt d) | none => 0
def footMx (d : Option Desc) : Nat := match d with | some d => (if descMx d then 1 else 0) | none => 0

/-- L of R87 (03_exact_sums.md). -/
def carryLevels (nb : Nat) : Nat := if nb ≤ 8 then 0 else clog2 (ceilDiv nb 8)

/-- F of R176, in bytes. -/
def footprint (word : List Nat) (a b d : Option Desc) (ob nb : Nat) : Nat :=
  let (r, c) := tileShape (miShape word)
  (2 * 256 * r * footBits a + 2 * 256 * c * footBits b) / 8 + 16 * r * footMx a + 16 * c * footMx b +
  ob * 6 * r * c * carryLevels nb + r * c * footBits d / 8 + r * c * footMx d / 32

/-- The footprint of a row MI (07_row_functions.md R213). -/
def rowFootprint (word : List Nat) (src dst : Option Desc) : Nat :=
  let r := (tileShape (miShape word)).1
  (2 * 256 * r * footBits src + 256 * r * footBits dst) / 8 + 64 * r

/-- Bytes of a bench's work area (JIG_WORK). -/
def workArea (s : State) (panel logical : Nat) : Nat :=
  match physOf s panel logical with
  | none => 0
  | some b =>
    let v := rget s (benchReg .jigWork panel b 0)
    if 64 < bits v 5 0 + bits v 14 8 then 0 else bits v 14 8 * 0x10000

/-- Does a footprint exceed the work area of a participating bench (R176)? -/
def footprintBad (s : State) (f : Flight) (size : Nat) : Bool :=
  (panelsOf f).any fun p => (dealtBenches f p).any fun b => workArea s p b < size

/-- Is the footprint of a tiled MI of extents `m`, `n` and `k` larger than a participating bench's work area (R176)? -/
def tiledFootBad (s : State) (f : Flight) (a b d : Option Desc) (m n k nb : Nat) : Bool :=
  (panelsOf f).any fun p =>
    let bs := dealtBenches f p
    let foot := footprint f.word a b d (openTiles f.word m n k (panelsOf f).length bs.length) nb
    bs.any fun l => workArea s p l < foot

/-- Count drawer steps completed and skipped on a bench (JIG_TILES); a tile dealt to it wakes it (11_drawers_tiers.md R307). -/
def countSteps (s : State) (u : Exec) (done skipped : Nat) : State :=
  match physOf s u.panel u.bench with
  | none => s
  | some b =>
    let s := if done == 0 then s else wakeUnit s u.panel (.bench b)
    let a := benchReg .jigTiles u.panel b 0
    rbump (rbump s a 31 0 done) a 63 32 skipped

/-- The bench that counts a skipped step (R184). -/
def skipBench (f : Flight) (u : Exec) : Exec :=
  if miShared f.word then { u with bench := (dealtBenches f u.panel).headD 0 } else u

/-- K steps of a contraction extent (R165). -/
def kSteps (k : Nat) : Nat := ceilDiv k 256

/-- Count 256 B beats of bunting (R192, BNT_STAT). -/
def countBeats (s : State) (panel n : Nat) : State := rbump s (panelReg .bntStat panel 0) 31 0 n

/-- Beats that deliver K step `i` of an operand tile of `rows` rows of `k` elements (R192; log entry 20). -/
def stepBeats (d : Desc) (rows k i : Nat) : Nat := ceilDiv (rows * rowBytes (descFmt d) (min 256 (k - 256 * i))) 256

/-- Count deliveries: `reqs` names the panel, the operand tile with its K step, and its beats, once for each bench that needs it. A tile
that several benches of a panel need goes out once; under SHARED a request that comes after the first beat has entered the crossbar is
not merged, and how many of the later ones join is a free value (R192; log entry 20). -/
def countRequests (shared : Bool) (s : State) (reqs : List (Nat × List Nat × Nat)) : State :=
  reqs.eraseDups.foldl (fun s e =>
    if shared then
      let n := reqs.countP (· == e)
      let (x, s) := fresh s 192
      let joins := x % n
      rbump (countBeats s e.1 ((n - joins) * e.2.2)) (panelReg .bntStat e.1 0) 63 32 joins
    else countBeats s e.1 e.2.2) s

/-- The deliveries of an operand of `k` elements per row: `keys` gives each drawer tile's panel, operand tile and rows. -/
def operandRequests (d : Desc) (k : Nat) (keys : List (Nat × List Nat × Nat)) : List (Nat × List Nat × Nat) :=
  keys.flatMap fun e => (List.range (kSteps k)).map fun i => (e.1, i :: e.2.1, stepBeats d e.2.2 k i)

/-- Count the deliveries of both operands of a tiled MI of contraction extent `k`. -/
def countDeliveries (s : State) (f : Flight) (a b : Desc) (k : Nat) (deal : List (OutTile × Exec)) : State :=
  countRequests (miShared f.word) s
    (operandRequests a k (deal.map fun t => (t.2.panel, [0, t.1.prob, t.1.m0], t.1.ms)) ++
     operandRequests b k (deal.map fun t => (t.2.panel, [1, t.1.prob, t.1.n0], t.1.ns)))

end Sys2Proof.Machine
end

