-- ==== Sys2Proof/Machine/MiRun.lean ====
section
/-!
DEFINITION. How the effect of an MI comes about: the flight that the step names, its neighbour accesses, its damaged blocks
(10_training.md R276 to R278), its drawer tiles one by one with the audit of 14_integrity.md R400 to R402, around the family's own
effect.
-/
namespace Sys2Proof.Machine

/-! Tile by tile. -/

/-- A destination's values and the unit that computed each, gathered while the tiles of an MI run. -/
structure Gather where
  w : Work
  vals : Array (Option Acc) := #[]
  units : Array Exec := #[]
deriving Inhabited

/-- An empty gathering. -/
def gather (w : Work) (d : Desc) : Gather :=
  { w := w, vals := Array.replicate (descCount d) none, units := Array.replicate (descCount d) default }

/-- Write what was gathered. -/
def storeGather (g : Gather) (d : Desc) : Work :=
  storeAll g.w d (miMode g.w.f.word) (miSat g.w.f.word) true g.vals g.units

/-- What stays of work whose output is discarded: registers, records and conditions, and none of the data that it stored (R277). -/
def dropOutput (old new : Work) : Work :=
  { new with
    s := { new.s with
      mem := old.s.mem, poison := old.s.poison, cache := old.s.cache
      dram := { new.s.dram with held := old.s.dram.held, writeBack := old.s.dram.writeBack, healed := old.s.dram.healed } }
    f := { new.f with puts := old.f.puts, sums := old.f.sums }
    outs := old.outs }

/-- Discard the output of a tile. -/
def dropTile (old new : Gather) : Gather := { old with w := dropOutput old.w new.w }

/-- The bench after `l` among a panel's, with wrap-around (14_integrity.md R401). -/
def nextBench (bs : List Nat) (l : Nat) : Nat := bs.getD ((bs.findIdx (· == l) + 1) % bs.length) l

/-- The primary destination's TENSOR_ID. -/
def outputId (f : Flight) : Nat := match slotDesc f 3 with | some d => d.tensorId | none => 0

/-- The audit of a tile that has run (14_integrity.md R400 to R402): the auditor runs the same steps. Whether its result agrees, and
what the third run gives, is a free value (log entry 23). -/
def auditTile (old new : Gather) (t : OutTile) (u : Exec) (done : Nat) : Gather :=
  let f := new.w.f
  if f.audit == 0 || done == 0 || (t.share + outputId f) % 2 ^ f.audit != 0 then new
  else
    let bs := dealtBenches f u.panel
    let b2 := nextBench bs u.bench
    let b3 := nextBench bs b2
    let s := dsetNum new.w.s .computeAuditTiles 0 f.part 8 (pnum new.w.s .computeAuditTiles f.part + 1)
    let s := countSteps s { u with bench := b2 } done 0
    let (x, s) := fresh s 401
    let with' (g : Gather) (s : State) : Gather := { g with w := { g.w with s := s } }
    if x % 4 == 0 then with' new s
    else
      let s := dsetNum s .computeAuditDisagree 0 f.part 4 (satAdd 32 (pnum s .computeAuditDisagree f.part) 1)
      let s := if 2 < bs.length then countSteps s { u with bench := b3 } done 0 else s
      if bs.length ≤ 2 || x % 4 == 3 then
        let g := dropTile old (with' new s)
        { g with w := noteCond g.w { status := 0x0C, detail := 0x0811 } }
      else
        let odd := if x % 4 == 1 then u.bench else b2
        with' new (postFault s { cls := 0x0E, die := 0, unit := u.panel, sub := (physOf s u.panel odd).getD 0 })

/-- May a tile's output have been written before the damage that stops the MI was found (10_training.md R277)? Only where it touched
no damaged block and no sealed destination is still to be gathered; when the tile was finished is a free value (log entry 50). -/
def writtenBefore (w : Work) : Work × Bool :=
  if w.cut || descTest (slotDesc w.f 3) (fun d => d.comp != 0) then (w, false)
  else
    let (x, s) := fresh w.s 277
    ({ w with s := s }, x % 2 == 0)

/-- Run one drawer tile. `steps` gives its drawer steps completed and skipped (06_jig.md R181); a tile written before a park is not
run again (10_training.md R278). -/
def runTile (steps : OutTile → Nat × Nat) (body : Gather → OutTile → Exec → Gather) (g : Gather) (t : OutTile) (u : Exec) : Gather :=
  if g.w.f.written.contains t.no then g
  else
    let (done, skipped) := steps t
    let w := { g.w with s := countSteps (countSteps g.w.s u done 0) (skipBench g.w.f u) 0 skipped, cut := false }
    let h := body { g with w := w } t u
    if h.w.halt then
      let (w, kept) := writtenBefore h.w
      let h := { h with w := w }
      if kept then
        let h := auditTile g h t u done
        { h with w := { h.w with f := { h.w.f with written := h.w.f.written ++ [t.no] } } }
      else dropTile g h
    else auditTile g h t u done

/-- Run the drawer tiles of an MI as they were dealt. -/
def overTiles (steps : OutTile → Nat × Nat) (body : Gather → OutTile → Exec → Gather) (deal : List (OutTile × Exec)) (g : Gather) :
    Gather :=
  deal.foldl (fun g t => runTile steps body g t.1 t.2) g

/-! Sources. -/

/-- The sources of an MI, with their descriptors. -/
def sources (f : Flight) (slots : List Nat) : List (Nat × Desc) :=
  slots.filterMap fun n => (slotDesc f n).map fun d => (n, d)

/-- What an MI still has to read of its sources at a neighbour: slots and first granules (13_inlay.md R355, R378). -/
def missingRemote (f : Flight) (slots : List Nat) : List (Nat × Nat) :=
  (sources f slots).flatMap fun p =>
    if p.2.tier == 4 then (List.range (imageBlocks f.word p.2)).flatMap fun j => slotAsks f p.2 j 3 0 else []

/-! Conditions that damage brings. -/

/-- The condition of blocks replaced by zeros (R276; 13_inlay.md R382). -/
def zeroedCond (f : Flight) : List Cond :=
  match f.damages.filter (fun d => d.policy == 1) with
  | [] => []
  | d :: rest => [{ status := 5, detail := d.detail, aux := rest.length + 1 }]

/-- The condition of operands that salvage runs rebuilt (10_training.md R276, R291). -/
def salvagedCond (f : Flight) : List Cond :=
  match f.tried.reverse with
  | [] => []
  | t :: _ => [{ status := 4, detail := 0x0400 + t.2, aux := t.1 + f.tried.length * 2 ^ 16 }]

/-! The run. -/

/-- The state with the flight of a work in its place, executed. -/
def finishWork (w : Work) : State :=
  let w := sealOuts w
  let f := { w.f with phase := .executed, conds := w.f.conds ++ zeroedCond w.f ++ salvagedCond w.f }
  sendPuts (putFlight w.s f) f.mi

/-- The state once an effect has come about: whatever it did, it was the effect of the MI with this number. -/
def effectOf (effect : Work → Work) (mi : Nat) (w : Work) : State :=
  let r := effect w
  finishWork { r with f := { r.f with mi := mi } }

/-- An MI that met a damaged block under FAULT or SALVAGE stops: what its tiles wrote before stays, and the rest of its work is
discarded (R277). -/
def stopDamaged (effect : Work → Work) (tiled : Bool) (mi : Nat) (w : Work) : State :=
  let r := effect { w with halt := true }
  let r := if tiled then r else dropOutput w r
  putFlight r.s { r.f with mi := mi, phase := .damaged }

/-- Run an MI that has issued: when it needs bytes of a neighbour, it asks first and waits (01_cabinet.md R33), and a request of its
own that failed ends it (15_azoer.md R412); a damaged block under FAULT or SALVAGE leaves it damaged; otherwise `effect` comes about
and the MI can complete. -/
def runWork (slots : List Nat) (tiled : Bool) (effect : Work → Work) (s : State) (f : Flight) : State :=
  let failed := f.conds.any (fun c => statusRank c.status == 2)
  let miss := missingRemote f slots
  if failed then finishWork { s := s, f := f }
  else if !miss.isEmpty then sendWants (putFlight s { f with phase := .waiting, wants := miss }) f.mi
  else
    let w : Work := { s := { s with fab := { s.fab with asks := [] } }, f := f }
    let r := effect w
    match r.s.fab.asks with
    | [] => if blocksMi r.f then stopDamaged effect tiled f.mi w else effectOf effect f.mi w
    | asks => sendWants (putFlight s { f with phase := .waiting, wants := asks.map fun a => (a.2.1, a.2.2.2) }) f.mi

/-- The step of an MI: nothing where no MI of that number and opcode has issued. -/
def runMi (opcode : Nat) (slots : List Nat) (tiled : Bool) (effect : Work → Work) (mi : Nat) (s : State) : State :=
  match findFlight s mi with
  | some f => if f.phase == .issued && miOpcode f.word == opcode then runWork slots tiled effect s f else s
  | none => s

/-- Steps answer a next state. -/
abbrev Result : Type := Host.Outcome State Fault Refusal

end Sys2Proof.Machine
end

