-- ==== Sys2Proof/Machine/Sfu.lean ====
section
/-!
DEFINITION. The special-function unit (07_row_functions.md R194 to R203): which FP32 results a function may return. The
exact value is enclosed by integer arithmetic; the device's own choice inside the bound of R195 is a free value
(log entry 10). The exact results of R196 and the special inputs of R197 are fixed.
-/
namespace Sys2Proof.Machine

/-- π × 2^512, ln 2 × 2^512 and log2 e × 2^512, rounded down. -/
def fxPi : Nat := 0x3243F6A8885A308D313198A2E03707344A4093822299F31D0082EFA98EC4E6C89452821E638D01377BE5466CF34E90C6CC0AC29B7C97C50DD3F84D5B5B5470917
def fxLn2 : Nat := 0xB17217F7D1CF79ABC9E3B39803F2F6AF40F343267298B62D8A0D175B8BAAFA2BE7B876206DEBAC98559552FB4AFA1B10ED2EAE35C138214427573B291169B825
def fxLog2e : Nat := 0x171547652B82FE1777D0FFDA0D23A7D11D6AEF551BAD2B4B1164A2CD9A342648FBC3887EEAA2ED9AC49B25EEB82D7C167D52173CC1895213F897F5E06A7BE7366
/-- Fraction bits of the fixed-point work. -/
def fxP : Nat := 512

/-- Keep 240 significant bits. -/
def trim (m : Nat) (e : Int) : Val :=
  let l := Nat.log2 m
  if l ≤ 240 then .fin false m e else .fin false (m >>> (l - 240)) (e + ((l - 240 : Nat) : Int))

/-- A quotient of positive values to about 240 bits. -/
def apDiv (a b : Val) : Val :=
  match a, b with
  | .fin s1 m1 e1, .fin s2 m2 e2 =>
    if m2 == 0 then .nan
    else
      let k := 240 + Nat.log2 m2
      match trim ((m1 <<< k) / m2) (e1 - e2 - k) with
      | .fin _ m e => .fin (s1 != s2) m e
      | v => v
  | _, _ => .nan

/-- A square root of a non-negative value to about 240 bits. -/
def apSqrt (a : Val) : Val :=
  match a with
  | .fin _ m e =>
    let e' := if e % 2 == 0 then e else e - 1
    let m' := if e % 2 == 0 then m else 2 * m
    .fin false (Nat.sqrt (m' <<< 512)) (e' / 2 - 256)
  | v => v

/-- Taylor sum of exp over fixed point: terms x^k / k! while `fuel` lasts; `x`, `term` and `acc` carry fxP fraction
bits. -/
def expSeries : Nat → Nat → Nat → Nat → Nat → Nat
  | 0, _, _, _, acc => acc
  | fuel + 1, k, x, term, acc =>
    let t := (term * x) >>> fxP
    let t := t / k
    expSeries fuel (k + 1) x t (acc + t)

/-- 2^f for a fixed-point fraction f in [0, 1). -/
def exp2Frac (f : Nat) : Nat := expSeries 110 1 ((f * fxLn2) >>> fxP) (1 <<< fxP) (1 <<< fxP)

/-- 2^(t / 2^fxP) for an integer t. -/
def exp2Fx (t : Int) : Val :=
  let n := t / ((1 <<< fxP : Nat) : Int)
  let f := (t % ((1 <<< fxP : Nat) : Int)).toNat
  .fin false (exp2Frac f) (n - fxP)

/-- A finite value in fixed point, rounded toward −∞. -/
def toFx (v : Val) : Int := (v.scale2 fxP).floorInt

/-- Bound on arguments of the exponential beyond which only its overflow or underflow matters. -/
def expBig (v : Val) : Bool := Val.lt (Val.ofNat 4096) v.abs

/-- 2^x, to about 200 bits. -/
def apExp2 (x : Val) : Val :=
  if expBig x then (if x.isNeg then .fin false 1 (-4096) else .fin false 1 4096) else exp2Fx (toFx x)

/-- e^x, to about 200 bits. -/
def apExp (x : Val) : Val :=
  if expBig x then (if x.isNeg then .fin false 1 (-4096) else .fin false 1 4096)
  else exp2Fx ((x.mul (.fin false fxLog2e (-(fxP : Int)))).scale2 fxP).floorInt

/-- Sum of z^(2k+1) / (2k+1) in fixed point. -/
def atanhSeries : Nat → Nat → Nat → Nat → Nat → Nat
  | 0, _, _, _, acc => acc
  | fuel + 1, k, z2, pw, acc => atanhSeries fuel (k + 2) z2 ((pw * z2) >>> fxP) (acc + pw / k)

/-- log2 of a positive finite value. -/
def apLog2 (x : Val) : Val :=
  match x with
  | .fin _ m e =>
    let l := Nat.log2 m
    -- m = 2^l × (1 + y)
    let one := 1 <<< l
    let z := ((m - one) <<< fxP) / (m + one)
    let s := 2 * atanhSeries 170 1 ((z * z) >>> fxP) z 0
    let frac := (s * fxLog2e) >>> fxP
    (Val.fin false frac (-(fxP : Int))).add (Val.ofInt (e + l))
  | v => v

/-- Alternating Taylor sum with term ratio x² / ((k+1)(k+2)): the sine from (x, 1), the cosine from (1, 0). -/
def altSeries : Nat → Nat → Nat → Int → Int → Int
  | 0, _, _, _, acc => acc
  | fuel + 1, k, x2, term, acc =>
    let t := -((term * x2) / ((1 <<< fxP : Nat) : Int)) / (((k + 1) * (k + 2) : Nat) : Int)
    altSeries fuel (k + 2) x2 t (acc + t)

/-- sin (`co` false) or cos of a finite value, reduced by π/2. -/
def apSinCos (co : Bool) (x : Val) : Val :=
  let t := (x.abs.scale2 fxP).floorInt.toNat          -- |x| in fixed point
  let h := fxPi / 2
  let q := t / h
  let r := t % h
  let r2 := (r * r) >>> fxP
  let s : Int := altSeries 60 1 r2 r r
  let c : Int := altSeries 60 0 r2 ((1 <<< fxP : Nat) : Int) ((1 <<< fxP : Nat) : Int)
  let j := (if co then q + 1 else q) % 4
  let v : Int := if j == 0 then s else if j == 1 then c else if j == 2 then -s else -c
  let v := if !co && x.isNeg then -v else v
  (Val.ofInt v).scale2 (-(fxP : Int))

/-- erf series: Σ (−1)^k z^(2k+1) / (k! (2k+1)), with `term` = (−1)^k z^(2k+1) / k!. -/
def erfSeries : Nat → Nat → Nat → Int → Int → Int
  | 0, _, _, _, acc => acc
  | fuel + 1, k, z2, term, acc =>
    let t := -((term * z2) / ((1 <<< fxP : Nat) : Int)) / ((k + 1 : Nat) : Int)
    erfSeries fuel (k + 1) z2 t (acc + t / ((2 * k + 3 : Nat) : Int))

/-- Φ(x) = (1 + erf(x / √2)) / 2 for |x| ≤ 15, in fixed point. -/
def apPhi (x : Val) : Val :=
  let z : Int := toFx (x.mul ((apSqrt (Val.ofNat 2)).scale2 (-1)))
  let z2 := ((z * z) / ((1 <<< fxP : Nat) : Int)).toNat
  let s := erfSeries 700 0 z2 z z
  -- 2 / √π
  let c := toFx (apDiv (Val.ofNat 2) (apSqrt (.fin false fxPi (-(fxP : Int)))))
  let erf := (s * c) / ((1 <<< fxP : Nat) : Int)
  (Val.ofInt (erf + ((1 <<< fxP : Nat) : Int))).scale2 (-(fxP : Int) - 1)

/-- 1 / (1 + e^−x) with relative precision on both sides. -/
def apSigmoid (x : Val) : Val :=
  if x.isNeg then (let e := apExp x; apDiv e (Val.one.add e))
  else apDiv Val.one (Val.one.add (apExp x.neg))

/-- The exact value of a FUNC at a finite ordinary input, to at least 90 significant bits (except the sine and cosine
near their zeros, where R195 gives an absolute bound). -/
def sfuApprox (func : Nat) (x : Val) : Val :=
  match func with
  | 0x01 => apDiv Val.one x
  | 0x02 => apDiv Val.one (apSqrt x)
  | 0x03 => apSqrt x
  | 0x04 => apExp2 x
  | 0x05 => apLog2 x
  | 0x06 => apSinCos false x
  | 0x07 => apSinCos true x
  | 0x08 =>
    let a := x.abs
    let t :=
      if Val.lt a (.fin false 1 (-12)) then
        a.sub (apDiv ((a.mul a).mul a) (Val.ofNat 3))
      else (let e := apExp (a.scale2 1); apDiv (e.sub Val.one) (e.add Val.one))
    if x.isNeg then t.neg else t
  | 0x09 => apSigmoid x
  | 0x0A =>
    if Val.lt (Val.ofNat 15) x.abs then (if x.isNeg then .fin true 1 (-160) else x)
    else x.mul (apPhi x)
  | 0x0B =>
    let c := apSqrt (apDiv (Val.ofNat 2) (.fin false fxPi (-(fxP : Int))))
    let cube := (apDiv (((x.mul x).mul x).mul (Val.ofNat 44715)) (Val.ofNat 1000000))
    let u := c.mul (x.add cube)
    x.mul (apSigmoid (u.scale2 1))
  | 0x0C => x.mul (apSigmoid x)
  | 0x0D => apExp x
  | _ => x

/-- The bound of R195 in units in the last place, doubled bounds where S2 legacy says so; 0 for the identity. -/
def sfuUlps (legacy : Bool) (func : Nat) : Nat :=
  match func with
  | 0x01 | 0x02 | 0x03 => if legacy then 2 else 1
  | 0x20 => if legacy then 3 else 1
  | 0x04 | 0x05 | 0x0D => if legacy then 3 else 2
  | 0x06 | 0x07 => if legacy then 4 else 2
  | 0x08 | 0x09 => if legacy then 6 else 4
  | 0x0A | 0x0B | 0x0C => 4
  | _ => 0

/-- Is every FP32 value allowed (legacy SIN and COS beyond 2^16 have no bound, R195)? -/
def sfuUnbounded (legacy : Bool) (func : Nat) (x : Val) : Bool :=
  legacy && (func == 0x06 || func == 0x07) && Val.lt (.fin false 1 16) x.abs

/-- The absolute bound that acts where it is the larger (R195). -/
def sfuAbs (legacy : Bool) (func : Nat) : Val :=
  if func == 0x06 || func == 0x07 then .fin false 1 (if legacy then -29 else -31) else Val.zero

/-- A result of the function unit with its census outcome (R197, R198). -/
structure SfuRes where
  v : Val := .nan
  ovfInf : Bool := false
  sat : Bool := false
  nanProd : Bool := false
  under : Bool := false
deriving DecidableEq, Repr, Inhabited

/-- Does `g` lie within the bound of the exact value near `a` (R195)? The exact value lies within 2^-90 of `a`,
relatively. -/
def withinBound (ulps : Nat) (absB a g : Val) : Bool :=
  match a with
  | .fin _ m e =>
    if m == 0 then (match g with | .fin _ _ _ => Val.le g.abs absB | _ => false)
    else
      let ulp := Val.fin false ulps (ulpExp .fp32 false (flog2 m 1 e))
      let tol := (Val.max ulp absB).add (a.abs.scale2 (-90))
      match g with
      | .fin _ _ _ => Val.le (g.sub a).abs tol
      | _ => false
  | _ => false

/-- The FP32 value nearest a finite one that does not overflow. -/
def nearest32 (a : Val) : Val :=
  match rne32 a with | .inf n => (if n then (maxFinite .fp32 false).neg else maxFinite .fp32 false) | w => w

/-- The overflow result where the exact value `a` is beyond FP32, else the result `v` with its underflow (R198). -/
def sfuResult (a v : Val) (mode : RMode) (sat : Bool) : SfuRes :=
  if Val.lt (maxFinite .fp32 false) a.abs then
    let c := overflowResult .fp32 a.isNeg mode sat
    { v := f32 c.code, ovfInf := c.ovfInf, sat := c.sat }
  else { v := v, under := !a.isZero && v.isZero }

/-- Does a legacy RECIP or RSQRT result leave room for the bounds of the legacy DIV and SQRT that are formed from it (R195, R203)? -/
def legacyRoom (func : Nat) (x a g : Val) : Bool :=
  match func with
  | 0x01 => Val.lt a.abs (.fin false 1 (-126)) || Val.le ((g.sub a).abs.scale2 23) a.abs
  | 0x02 => withinBound 2 Val.zero (apSqrt x) (rne32 (g.mul x))
  | _ => true

/-- The FP32 result of a finite ordinary evaluation: the free value when it meets the bound and else the nearest FP32 value, which
always does. -/
def sfuPick (legacy : Bool) (func xCode yCode : Nat) (x a : Val) : Val :=
  let g := f32 (Config.sfuFree legacy func xCode yCode % 2 ^ 32)
  let ok := if sfuUnbounded legacy func x then g.isFin
    else withinBound (sfuUlps legacy func) (sfuAbs legacy func) a g && (!legacy || legacyRoom func x a g)
  if ok then g else nearest32 a

/-- A finite ordinary evaluation with overflow and underflow under R198. -/
def sfuFinite (legacy : Bool) (func xCode yCode : Nat) (x a : Val) (mode : RMode) (sat : Bool) : SfuRes :=
  sfuResult a (sfuPick legacy func xCode yCode x a) mode sat

/-- The power of two that a value is, or none. -/
def powerOfTwo (x : Val) : Option Int :=
  match x with
  | .fin false m e => if m == 2 ^ Nat.log2 m && m != 0 then some (e + Nat.log2 m) else none
  | _ => none

/-- An exact result in FP32, overflow and underflow under R198. -/
def sfuExactRes (v : Val) (mode : RMode) (sat : Bool) : SfuRes :=
  let c := convertTo .fp32 false mode sat 0 v 1
  { v := f32 c.code, ovfInf := c.ovfInf, sat := c.sat, under := c.under }

/-- Special inputs of R197 other than NaN; none for an ordinary input. -/
def sfuSpecial (func : Nat) (x : Val) : Option SfuRes :=
  let bad : SfuRes := { v := .nan, nanProd := true }
  let z := x.isZero
  match func with
  | 0x01 => if z then some { v := .inf x.isNeg } else if x.isInf then some { v := .fin x.isNeg 0 0 } else none
  | 0x02 =>
    if z then some { v := .inf x.isNeg } else if x.isNeg then some bad
    else if x.isInf then some { v := Val.zero } else none
  | 0x03 => if z then some { v := x } else if x.isNeg then some bad else if x.isInf then some { v := x } else none
  | 0x04 | 0x0D => (match x with | .inf n => some { v := if n then Val.zero else .inf false } | _ => none)
  | 0x05 =>
    if z then some { v := .inf true } else if x.isNeg then some bad else if x.isInf then some { v := x } else none
  | 0x06 => if x.isInf then some bad else if z then some { v := x } else none
  | 0x07 => if x.isInf then some bad else if z then some { v := Val.one } else none
  | 0x08 =>
    (match x with | .inf n => some { v := .fin n 1 0 } | _ => if z then some { v := x } else none)
  | 0x09 => (match x with | .inf n => some { v := if n then Val.zero else Val.one } | _ => none)
  | 0x0A | 0x0B | 0x0C =>
    (match x with | .inf n => some { v := if n then .fin true 0 0 else .inf false } | _ => if z then some { v := x } else none)
  | _ => none

/-- The exact results of R196. -/
def sfuExactCase (func : Nat) (x : Val) : Option Val :=
  match func with
  | 0x01 => (match powerOfTwo x.abs with | some k => some (.fin x.isNeg 1 (-k)) | none => none)
  | 0x02 => (match powerOfTwo x with | some k => if k % 2 == 0 then some (.fin false 1 (-(k / 2))) else none | none => none)
  | 0x03 => (match powerOfTwo x with | some k => if k % 2 == 0 then some (.fin false 1 (k / 2)) else none | none => none)
  | 0x04 =>
    let n := x.floorInt
    if x.sub (Val.ofInt n) |>.isZero then (if -149 ≤ n && n ≤ 127 then some (.fin false 1 n) else none) else none
  | 0x05 => (match powerOfTwo x with | some k => some (Val.ofInt k) | none => none)
  | _ => none

/-- TANH returns a small operand itself (R194). -/
def tanhSmall (func : Nat) (x : Val) : Bool := func == 0x08 && Val.lt x.abs (.fin false 1 (-12))

/-- The legacy RECIP result of an FP32 value that is not NaN, for the functions composed over it (R203). -/
def legacyRecip (x : Val) : Val :=
  match sfuSpecial 0x01 x with
  | some r => r.v
  | none =>
    let a := sfuApprox 0x01 x
    match sfuExactCase 0x01 x with
    | some v => rne32 v
    | none => (sfuResult a (sfuPick true 0x01 (enc32 x) 0 x a) .rne false).v

/-- The legacy EXP2 result that stands for e^x, its product with log2 e carried exactly. -/
def legacyExp (x : Val) : Val :=
  let a := apExp x
  (sfuResult a (sfuPick true 0x04 (enc32 x) 1 x a) .rne false).v

/-- The compositions of R203: SQRT, TANH and SIGMOID over legacy results; none for the other functions. -/
def legacyComposed (func : Nat) (x : Val) : Option Val :=
  match func with
  | 0x03 => some (rne32 ((sfuPick true 0x02 (enc32 x) 0 x (sfuApprox 0x02 x)).mul x))
  | 0x08 =>
    let t := rne32 (Val.one.sub ((legacyRecip (rne32 ((legacyExp (x.abs.scale2 1)).add Val.one))).scale2 1))
    some (if x.isNeg then t.neg else t)
  | 0x09 => some (legacyRecip (rne32 (Val.one.add (legacyExp x.neg))))
  | _ => none

/-- A composition stands where it meets the bound of R195; the widths of its inner steps, which R203 does not give, decide elsewhere:
there the result is a free value within the bound (log entry 10). -/
def composedOr (func xCode yCode : Nat) (x a : Val) (c : Option Val) (mode : RMode) (sat : Bool) : SfuRes :=
  match c with
  | some v => if withinBound (sfuUlps true func) Val.zero a v then sfuResult a v mode sat else sfuFinite true func xCode yCode x a mode sat
  | none => sfuFinite true func xCode yCode x a mode sat

/-- A FUNC of R194 at an FP32 operand, in native or legacy mode, with the MI's RMODE and SAT for R198. -/
def sfuEval (legacy : Bool) (func : Nat) (x : Val) (mode : RMode) (sat : Bool) : SfuRes :=
  if func == 0 then { v := x }
  else if x.isNan then { v := .nan }
  else
    match sfuSpecial func x with
    | some r => r
    | none =>
      match sfuExactCase func x with
      | some v => sfuExactRes v mode sat
      | none =>
        if tanhSmall func x then { v := x }
        else
          let a := sfuApprox func x
          if legacy then composedOr func (enc32 x) 0 x a (legacyComposed func x) mode sat
          else sfuFinite false func (enc32 x) 0 x a mode sat

/-- DIV of R194 with the special values of R197; in legacy mode a times the legacy RECIP result of b, rounded RNE (R203). -/
def sfuDiv (legacy : Bool) (a b : Val) (mode : RMode) (sat : Bool) : SfuRes :=
  if a.isNan || b.isNan then { v := .nan }
  else
    let neg := a.isNeg != b.isNeg
    if (a.isInf && b.isInf) || (a.isZero && b.isZero) then { v := .nan, nanProd := true }
    else if a.isInf || b.isZero then { v := .inf neg }
    else if b.isInf || a.isZero then { v := .fin neg 0 0 }
    else
      let q := apDiv a b
      if legacy then composedOr 0x20 (enc32 a) (enc32 b) a q (some (rne32 (a.mul (legacyRecip b)))) mode sat
      else sfuFinite false 0x20 (enc32 a) (enc32 b) a q mode sat

end Sys2Proof.Machine
end

