-- ==== Sys2Proof/Machine/Rows.lean ====
section
/-!
DEFINITION. The vector and function-unit MIs (07_row_functions.md): EW, SFU_MAP, ROWRED, SOFTMAX, NORM, and the streaming soft
maximum of R218.
-/
namespace Sys2Proof.Machine

/-! Elements by row. -/

/-- The coordinates of dimensions 1 to 4 of flattened row `m` (R206, R211). -/
def rowCoord : List Nat → Nat → List Nat
  | [], _ => []
  | e :: es, m => (if e == 0 then 0 else m % e) :: rowCoord es (if e == 0 then 0 else m / e)

/-- The number of flattened rows. -/
def rowCount (d : Desc) : Nat := (d.extents.drop 1).foldl (· * ·) 1

/-- Rows of one drawer tile. -/
def tileRows (d : Desc) (t : OutTile) : List (List Nat) :=
  (List.range t.ms).map fun i => rowCoord (d.extents.drop 1) (t.m0 + i)

/-- A source row's box: broadcast dimensions read their one element (R206). -/
def sourceBox (d : Desc) (i0 n : Nat) (c : List Nat) : List (Nat × Nat) :=
  (if descExt d 0 == 1 then (0, 1) else (i0, n)) ::
    (c.zipIdx.map fun p => (if descExt d (p.2 + 1) == 1 then 0 else p.1, 1))

/-- The FP32 operands of a row from `i0`, `n` of them, broadcast where the source's extent is 1. -/
def sourceRow (w : Work) (slot : Nat) (u : Exec) (i0 n : Nat) (c : List Nat) : Work × List Acc :=
  match slotDesc w.f slot with
  | none => (w, List.replicate n {})
  | some d =>
    let box := sourceBox d i0 n c
    let (w, t) := loadBox w slot d u box
    let rest := (box.drop 1).map (·.1)
    (w, (List.range n).map fun i =>
      vecVal (miMode w.f.word) (miSat w.f.word) t ((if descExt d 0 == 1 then 0 else i0 + i) :: rest))

/-- Put values into a row of the destination from `i0`. -/
def putRow (g : Gather) (d : Desc) (u : Exec) (i0 : Nat) (c : List Nat) (vs : List Acc) : Gather :=
  (vs.zipIdx).foldl (fun g v =>
    let k := linIndex d.extents ((i0 + v.2) :: c)
    { g with vals := g.vals.set! k (some v.1), units := g.units.set! k u }) g

/-- Count function-unit results (SFU_STAT). -/
def countSfu (s : State) (u : Exec) (n : Nat) : State :=
  match physOf s u.panel u.bench with
  | some b => if n == 0 then s else rbump s (benchReg .sfuStat u.panel b 0) 31 0 n
  | none => s

/-- Count an MI that runs in legacy mode on its benches (SFU_STAT.LEGACY_MIS). -/
def countLegacy (s : State) (legacy : Bool) (us : List Exec) : State :=
  if legacy then
    ((us.map fun u => (u.panel, u.bench)).eraseDups).foldl (fun s u => match physOf s u.1 u.2 with
      | some b => rbump s (benchReg .sfuStat u.1 b 0) 47 32 1
      | none => s) s
  else s

/-- The result of a function unit evaluation as a value with its history (R197, R198). -/
def sfuAcc (a : Acc) (r : SfuRes) : Acc :=
  { a with v := r.v, recOvf := a.recOvf || r.ovfInf, recSat := a.recSat || r.sat, under := a.under || r.under }

/-- A native evaluation inside an MI, with the MI's RMODE and SAT for R198. -/
def natAcc (f : Flight) (func : Nat) (a : Acc) (x : Val) : Acc := sfuAcc a (sfuEval false func x (miMode f.word) (miSat f.word))

/-- Apply a FUNC with the MI's mode (R200). -/
def funcAcc (f : Flight) (func : Nat) (a : Acc) : Acc :=
  if func == 0 then a else sfuAcc a (sfuEval f.legacy func a.v (miMode f.word) (miSat f.word))

/-- A rounded FP32 step on joined operands (R612). -/
def step32 (a : Acc) (exact : Val) : Acc := a.step exact (rne32 exact)

/-- A value from PARAMS; a NaN there counts as a NaN operand. -/
def paramAcc (code : Nat) : Acc := { v := f32 code, nanIn := (f32 code).isNan }

/-! EW (R206, R207). -/

/-- Sources that an EW OP reads. -/
def ewSources : Nat → List Nat
  | 0x00 | 0x09 | 0x0A => [0]
  | 0x05 => [0, 1, 2]
  | _ => [0, 1]

/-- The FP32 result of an EW OP. -/
def ewOp (f : Flight) (op : Nat) (a b c : Acc) : Acc :=
  let j := a.join b a.v
  match op with
  | 0x00 => a
  | 0x01 => step32 j (a.v.add b.v)
  | 0x02 => step32 j (a.v.sub b.v)
  | 0x03 => step32 j (a.v.mul b.v)
  | 0x04 => sfuAcc j (sfuDiv f.legacy a.v b.v (miMode f.word) (miSat f.word))
  | 0x05 => step32 (j.join c a.v) ((a.v.mul b.v).add c.v)
  | 0x06 => { j with v := Val.max a.v b.v }
  | 0x07 => { j with v := Val.min a.v b.v }
  | 0x08 =>
    let al := paramAcc (param f 44 4)
    let be := paramAcc (param f 48 4)
    step32 ((j.join al a.v).join be a.v) ((al.v.mul a.v).add (be.v.mul b.v))
  | 0x09 => { a with v := a.v.abs }
  | _ => { a with v := a.v.neg }

/-- Tiles of an element-wise MI, dealt: dimension 0 is the N role, the flattened others the M role (R206). -/
def elementDeal (f : Flight) (d : Desc) : List (OutTile × Exec) :=
  dealTiles f (planTiles f.word 1 (rowCount d) (descExt d 0))

/-- An element-wise MI over its destination: `srcs` are the slots read, `fn` forms one element from its operands, and each
element takes `evals` function-unit results. -/
def elementWise (srcs : List Nat) (evals : Nat) (fn : List Acc → Acc) (w : Work) : Work :=
  match slotDesc w.f 3 with
  | none => w
  | some d =>
    let g := overTiles (fun _ => (1, 0)) (fun g t u =>
      (tileRows d t).foldl (fun g c =>
        let (w, rows) := srcs.foldl (fun (p : Work × List (List Acc)) n =>
          let (w, r) := sourceRow p.1 n u t.n0 t.ns c
          (w, p.2 ++ [r])) (g.w, [])
        let vs := (List.range t.ns).map fun i => fn (rows.map fun r => r.getD i {})
        putRow { g with w := { w with s := countSfu w.s u (evals * t.ns) } } d u t.n0 c vs) g) (elementDeal w.f d) (gather w d)
    storeGather g d

/-- Count an element-wise MI that ran in legacy mode. -/
def noteLegacy (w : Work) : Work :=
  match slotDesc w.f 3 with
  | some d => { w with s := countLegacy w.s w.f.legacy ((elementDeal w.f d).map (·.2)) }
  | none => w

/-- Is the footprint of an MI whose contraction extent is 1 too large (06_jig.md R176)? Slots 0 and 1 stand for A and B (log entry
131). -/
def flatFootBad (s : State) (f : Flight) (m n : Nat) : Bool :=
  descTest (slotDesc f 3) fun d => tiledFootBad s f (slotDesc f 0) (slotDesc f 1) (some d) m n 1 1

/-- The footprint of an element-wise MI. -/
def elementFootBad (s : State) (f : Flight) : Bool :=
  descTest (slotDesc f 3) fun d => flatFootBad s f (rowCount d) (descExt d 0)

def effectEw (w : Work) : Work :=
  let op := param w.f 40 1
  let func := param w.f 41 1
  noteLegacy (elementWise (ewSources op) ((if func == 0 then 0 else 1) + (if op == 4 then 1 else 0))
    (fun xs => funcAcc w.f func (ewOp w.f op (xs.getD 0 {}) (xs.getD 1 {}) (xs.getD 2 {}))) w)

/-- What makes an EW malformed beside the shared checks (R206, R207, R201). -/
def faultsEw (s : State) (f : Flight) : List Nat :=
  let op := param f 40 1
  let func := param f 41 1
  let ext (n : Nat) : Bool := match slotDesc f n, slotDesc f 3 with
    | some a, some d => (a.extents.zip d.extents).any fun p => p.1 != p.2 && p.1 != 1
    | _, _ => false
  on (0x0A < op || 0x0D < func || (f.legacy && 0x0A ≤ func && func ≤ 0x0D)) 0x0001 ++
  unusedFaults f ([(42, 43), (52, 63)] ++ (if op == 8 then [] else [(44, 51)])) ++
  slotFaults f (3 :: ewSources op) ([0, 1, 2].filter fun n => !((ewSources op).contains n)) ++
  on ((ewSources op).any ext || elementFootBad s f) 0x0007

/-! SFU_MAP (R208). -/

def mapElem (f : Flight) (x : Acc) : Acc :=
  let pm := paramAcc (param f 44 4)
  let pa := paramAcc (param f 48 4)
  let po := paramAcc (param f 52 4)
  let j := (x.join pm x.v).join pa x.v
  let t := step32 j ((x.v.mul pm.v).add pa.v)
  let y := funcAcc f (param f 40 1) t
  y.join po (y.v.mul po.v)

def effectSfuMap (w : Work) : Work :=
  noteLegacy (elementWise [0] 1 (fun xs => mapElem w.f (xs.getD 0 {})) w)

def faultsSfuMap (s : State) (f : Flight) : List Nat :=
  let func := param f 40 1
  on (func == 0 || 0x0D < func || (f.legacy && 0x0A ≤ func)) 0x0001 ++
  unusedFaults f [(41, 43), (56, 63)] ++ slotFaults f [0, 3] [1, 2] ++
  on (elementFootBad s f || (match slotDesc f 0, slotDesc f 3 with
    | some a, some d => (a.extents.zip d.extents).any fun p => p.1 != p.2 && p.1 != 1
    | _, _ => false)) 0x0007

/-! Row MIs (R210 to R213). -/

/-- Descriptors of a row MI whose lengths govern its rows. -/
def rowLenDescs (f : Flight) : List Desc := ([0, 1, 2, 3, 4].filterMap (slotDesc f)).filter (·.lenEn)

/-- The row coordinates as a descriptor has them, which may have an extent of 1. -/
def rowIn (d : Desc) (c : List Nat) : List Nat := c.zipIdx.map fun p => min p.1 (descExt d (p.2 + 1) - 1)

/-- The length of a row (R212): the source's extent, or its sequence's length when LEN_DIM is 0. The row axis is the source's: a
reduced output or a table of statistics does not cut it (DEDUCED, log entry 132). -/
def rowLen (f : Flight) (src : Desc) (c : List Nat) : Nat :=
  (rowLenDescs f).foldl (fun n d => if d.lenDim == 0 then min n (f.lens.getD (seqOf d (0 :: rowIn d c)) 0) else n) (descExt src 0)

/-- Is a row at or beyond its sequence's length when LEN_DIM is 1 (R212)? -/
def rowSkipped (f : Flight) (c : List Nat) : Bool :=
  (rowLenDescs f).any fun d => d.lenDim == 1 && decide (lenAt d f.lens (0 :: rowIn d c) ≤ (rowIn d c).getD 0 0)

/-- Drawer steps of a tile of a row MI, completed and skipped (06_jig.md R181). -/
def rowSteps (f : Flight) (src : Desc) (t : OutTile) : Nat × Nat :=
  let live := (tileRows src t).filter fun c => !(rowSkipped f c)
  let steps := kSteps (descExt src 0)
  let longest := (live.map (rowLen f src)).foldl max 0
  let done := if live.isEmpty then 0 else if (rowLenDescs f).any (fun d => d.lenDim == 0) then kSteps longest else steps
  (done, steps - done)

/-- The drawer tiles of a row MI, dealt (R211). -/
def rowDeal (f : Flight) (src : Desc) : List (OutTile × Exec) := dealTiles f (planTiles f.word 1 (rowCount src) 1)

/-- A row MI: `fn` turns a row's FP32 elements into its primary results and secondary values, and says how many
function-unit results it took. -/
def rowWise (slot4 : Bool) (fn : Work → Exec → List Nat → List Acc → Work × List Acc × List Val × Nat) (w : Work) : Work :=
  match slotDesc w.f 0, slotDesc w.f 3 with
  | some src, some d =>
    let g := overTiles (rowSteps w.f src) (fun g t u =>
      ((tileRows src t).filter fun c => !(rowSkipped g.w.f c)).foldl (fun g c =>
        let n := rowLen g.w.f src c
        let (w, xs) := sourceRow g.w 0 u 0 n c
        let (w, ys, extra, k) := fn w u c xs
        let w := { w with s := countSfu w.s u k }
        let w := match slot4, slotDesc w.f 4 with
          | true, some d4 =>
            storeSecondary w d4 u ((0, extra.length) :: c.map fun i => (i, 1)) (extra.map some).toArray
          | _, _ => w
        putRow { g with w := w } d u 0 c ys) g) (rowDeal w.f src) (gather w d)
    storeGather g d
  | _, _ => w

/-- The element tree (R210) of values widened exactly to A48. -/
def elementTree (xs : List Acc) : Acc := treeRoot xs

/-- A quotient by the row length, kept exact for its one conversion. -/
def overCount (a : Acc) (n : Nat) : Acc := { a with den := n }

def rowReduce (op : Nat) (xs : List Acc) : Acc :=
  let n := xs.length
  let h := xs.foldl (fun (a : Acc) b => a.join b a.v) {}
  if xs.any (fun a => a.v.isNan) then { h with v := .nan, nanIn := xs.any (·.nanIn) }
  else match op with
  | 0x00 => elementTree xs
  | 0x01 => if n == 0 then { v := .nan } else overCount (elementTree xs) n
  | 0x02 => { h with v := xs.foldl (fun m a => Val.max m a.v) (.inf true) }
  | 0x03 => { h with v := xs.foldl (fun m a => Val.min m a.v) (.inf false) }
  | 0x04 => { h with v := xs.foldl (fun m a => Val.max m a.v.abs) Val.zero }
  | _ => elementTree (xs.map fun a => a.step (a.v.mul a.v) (rne48 (a.v.mul a.v)))

def effectRowred (w : Work) : Work :=
  rowWise false (fun w _ _ xs => (w, [rowReduce (param w.f 40 1) xs], [], 0)) w

/-- LEN_DIM of a row MI (R212), and its footprint against every participating bench's work area (R213). -/
def rowLenFaults (s : State) (f : Flight) : List Nat :=
  on ((rowLenDescs f).any fun d => 1 < d.lenDim) 0x000D ++
  on (footprintBad s f (rowFootprint f.word (slotDesc f 0) (slotDesc f 3))) 0x0007

def faultsRowred (s : State) (f : Flight) : List Nat :=
  on (5 < param f 40 1) 0x0001 ++ unusedFaults f [(41, 63)] ++ slotFaults f [0, 3] [] ++
  on (descTest (slotDesc f 3) (fun d => descExt d 0 != 1) || !(sameExtents (slotDesc f 0) (slotDesc f 3) 1)) 0x0007 ++
  rowLenFaults s f

/-! NORM (R215 to R217). -/

/-- Row statistics: mu and rstd with their histories. -/
def normStats (f : Flight) (kind : Nat) (eps : Acc) (xs : List Acc) : Acc × Acc :=
  let n := xs.length
  let mean (a : Acc) : Acc :=
    if n == 0 then {} else { a.step a.v (rne32q a.v n) with den := 1 }
  let sq (a : Acc) (v : Val) : Acc := a.step (v.mul v) (rne48 (v.mul v))
  let (mu, ms) : Acc × Acc :=
    if kind == 0 then
      let mu := mean (elementTree xs)
      (mu, mean (elementTree (xs.map fun a =>
        let j := a.join mu a.v
        let d := j.step (a.v.sub mu.v) (rne48 (a.v.sub mu.v))
        sq d d.v)))
    else ({}, mean (elementTree (xs.map fun a => sq a a.v)))
  let t := step32 (ms.join eps ms.v) (ms.v.add eps.v)
  (mu, natAcc f 0x02 t t.v)

def normElem (kind : Nat) (mu rstd x g b : Acc) : Acc :=
  let j := (x.join rstd x.v).join mu x.v
  if kind == 0 then
    let d := step32 j (x.v.sub mu.v)
    let z := step32 d (d.v.mul rstd.v)
    (z.join g z.v).join b ((z.v.mul g.v).add b.v)
  else
    let z := step32 j (x.v.mul rstd.v)
    z.join g (z.v.mul g.v)

def effectNorm (w : Work) : Work :=
  rowWise true (fun w u _ xs =>
    let n := xs.length
    let kind := param w.f 40 1
    let zeros := [0, 0, 0, 0]
    let (w, gs) := if (slotDesc w.f 1).isSome then sourceRow w 1 u 0 n zeros
      else (w, List.replicate n { v := Val.one })
    let (w, bs) := if (slotDesc w.f 2).isSome then sourceRow w 2 u 0 n zeros else (w, List.replicate n {})
    let (mu, rstd) := normStats w.f kind (paramAcc (param w.f 44 4)) xs
    (w, (xs.zip (gs.zip bs)).map (fun p => normElem kind mu rstd p.1 p.2.1 p.2.2), [mu.v, rstd.v], 1)) w

def faultsNorm (s : State) (f : Flight) : List Nat :=
  let side (n : Nat) : Bool := match slotDesc f n, slotDesc f 0 with
    | some d, some x => descExt d 0 != descExt x 0 || (d.extents.drop 1).any (· != 1)
    | _, _ => false
  on (1 < param f 40 1) 0x0001 ++ unusedFaults f [(41, 43), (48, 63)] ++ slotFaults f [0, 3] [] ++
  fp32Faults (slotDesc f 4) ++
  on (!(sameExtents (slotDesc f 0) (slotDesc f 3) 0) || side 1 || side 2 ||
    descTest (slotDesc f 4) (fun d => descExt d 0 != 2) || !(sameExtents (slotDesc f 0) (slotDesc f 4) 1)) 0x0007 ++
  rowLenFaults s f

/-! The streaming soft maximum (R218, R220). -/

/-- What a chunk does: the new maximum and sum, the factor when the maximum rose over a finite one or from −∞, and the
weights with their histories (R612). Masked positions are none. -/
structure Chunk where
  m : Val
  l : Val
  factor : Option Val := none
  ps : List Acc := []
  active : Bool := true
deriving Inhabited

/-- The weight of a score under a maximum: exp2(rne32(z − m)). -/
def softWeight (f : Flight) (m : Val) (z : Acc) : Acc :=
  let d := step32 z (z.v.sub m)
  natAcc f 0x04 d d.v

/-- The correction factor 2^(m_old − m_new). -/
def softFactor (f : Flight) (old new : Val) : Val := (natAcc f 0x04 {} (old.sub new)).v

/-- One score chunk (R218). The sum's own steps never make an element zero or infinite, so it carries no history. -/
def softChunk (f : Flight) (m l : Val) (zs : List (Option Acc)) : Chunk :=
  let mNew := zs.foldl (fun a o => match o with | some z => Val.max a z.v | none => a) m
  if mNew == .inf true then { m := m, l := l, active := false }
  else
    let rose := Val.lt m mNew
    let k := softFactor f m mNew
    let l := if rose then rne32 (l.mul k) else l
    let ps := zs.map fun o => match o with | some z => softWeight f mNew z | none => {}
    let sum := rne32 (treeRoot (ps.map fun p => { v := p.v })).v
    { m := mNew, l := rne32 (l.add sum), factor := if rose then some k else none, ps := ps }

/-- Chunks of 128 positions (R218). -/
def chunksOf {α : Type} : Nat → List α → List (List α)
  | 0, _ => []
  | n + 1, xs => xs.take 128 :: chunksOf n (xs.drop 128)

/-- The outcome of a row (R220). -/
inductive RowFate where
  | nanProp
  | nanProd
  | empty
  | ordinary
deriving DecidableEq, Repr, Inhabited

def rowFate (zs : List (Option Acc)) : RowFate :=
  if zs.any (fun o => match o with | some z => z.v.isNan | none => false) then .nanProp
  else if zs.any (fun o => match o with | some z => z.v == .inf false | none => false) then .nanProd
  else if zs.all Option.isNone then .empty
  else .ordinary

/-- m and l after a whole row. -/
def softRow (f : Flight) (zs : List (Option Acc)) : Val × Val :=
  (chunksOf (ceilDiv zs.length 128) zs).foldl (fun p c =>
    let k := softChunk f p.1 p.2 c
    (k.m, k.l)) (.inf true, Val.zero)

/-- L2 of R218 and R220. -/
def softL2 (f : Flight) (fate : RowFate) (m l : Val) : Val :=
  match fate with
  | .nanProp | .nanProd => .nan
  | .empty => .inf true
  | .ordinary => if m == .inf true then .inf true else rne32 (m.add (natAcc f 0x05 {} l).v)

/-- A primary output of a row whose fate R220 decides; none for an ordinary row. A NaN z is recorded as NAN_PROP, whatever made it
NaN. -/
def fateOutput (fate : RowFate) (a : Acc) : Option Acc :=
  match fate with
  | .nanProp => some { a with v := .nan, nanIn := true }
  | .nanProd => some { a with v := .nan, nanIn := false }
  | .empty => some { a with v := Val.zero }
  | .ordinary => none

/-- A row whose every z is −∞ without being masked gives +0 (R220; log entry 22). -/
def softmaxRow (f : Flight) (sigma : Acc) (xs : List Acc) : List Acc × Val :=
  let zs := xs.map fun x => step32 (x.join sigma x.v) (x.v.mul sigma.v)
  let fate := rowFate (zs.map some)
  let (m, l) := softRow f (zs.map some)
  let r := natAcc f 0x01 {} l
  let ys := zs.map fun z =>
    match fateOutput fate z with
    | some a => a
    | none =>
      if m == .inf true then { z with v := Val.zero }
      else
        let p := softWeight f m z
        { p with v := p.v.mul r.v }
  (ys, softL2 f fate m l)

def effectSoftmax (w : Work) : Work :=
  let sigma := paramAcc (param w.f 40 4)
  rowWise true (fun w _ _ xs =>
    let (ys, l2) := softmaxRow w.f sigma xs
    (w, ys, [l2], 2 * xs.length + (if xs.isEmpty then 0 else 2))) w

def faultsSoftmax (s : State) (f : Flight) : List Nat :=
  unusedFaults f [(44, 63)] ++ slotFaults f [0, 3] [] ++
  fp32Faults (slotDesc f 4) ++
  on (!(sameExtents (slotDesc f 0) (slotDesc f 3) 0) || descTest (slotDesc f 4) (fun d => descExt d 0 != 1) ||
    !(sameExtents (slotDesc f 0) (slotDesc f 4) 1)) 0x0007 ++
  rowLenFaults s f

/-! The meanings. -/

def execEw (mi : Nat) (s : State) : Result := .next (whileRunning mi (runMi 0x08 [0, 1, 2] true effectEw mi) s)
def execSfuMap (mi : Nat) (s : State) : Result := .next (whileRunning mi (runMi 0x0C [0] true effectSfuMap mi) s)
def execRowred (mi : Nat) (s : State) : Result := .next (whileRunning mi (runMi 0x09 [0] true effectRowred mi) s)
def execSoftmax (mi : Nat) (s : State) : Result := .next (whileRunning mi (runMi 0x0A [0] true effectSoftmax mi) s)
def execNorm (mi : Nat) (s : State) : Result := .next (whileRunning mi (runMi 0x0B [0, 1, 2] true effectNorm mi) s)

end Sys2Proof.Machine
end

