-- ==== Sys2Proof/Machine/KvPages.lean ====
section
/-!
DEFINITION. KV pages (08_attention_kv.md R235 to R246): pools and their initialisation, the page map's state changes, pins,
KV_APPEND, KV_FORK and KV_FREE.
-/
namespace Sys2Proof.Machine

/-! Pools. -/

/-- A pool as its enabled context describes it (KVP_PCFGn and the registers after it). -/
structure Pool where
  panel : Nat
  n : Nat
  format : Nat
  head : Nat
  pages : Nat
  frames : Nat
  map : Nat
  ctn : Nat
  part : Nat
deriving DecidableEq, Repr, Inhabited

def poolAt (s : State) (p n : Nat) : Pool :=
  let c := rget s (panelReg .kvpPcfg p n)
  { panel := p, n := n, format := bits c 7 4, head := 32 * bits c 19 16, pages := bits c 47 24 + 1
    frames := bits (rget s (panelReg .kvpPbase p n)) 47 18 * 0x40000
    map := bits (rget s (panelReg .kvpPmap p n)) 47 12 * 4096
    ctn := bits (rget s (panelReg .kvpPctn p n)) 47 10 * 1024, part := bits c 15 8 }

/-- The enabled context of a partition's pool (R235). -/
def poolOf (s : State) (part pool : Nat) : Option Pool :=
  allPanels.findSome? fun p => ((List.range 16).find? fun n =>
    let c := rget s (panelReg .kvpPcfg p n)
    bit c 0 && bits c 3 1 == pool && bits c 15 8 == part).map (poolAt s p)

def poolReady (s : State) (p : Pool) : Bool := rbit s (panelReg .kvpPstat p.panel p.n) 24

def poolFmt (p : Pool) : Fmt := (fmtOfCode p.format).getD .bf16

/-- A page identity that marks no page (R236). -/
def noPage : Nat := 0xFFFFFF

/-! The page map, for a request made by the pool's KVP unit. -/

/-- The request of a pool's KVP unit: no tile cache serves it (11_drawers_tiers.md R310). -/
def kvReq (p : Pool) : Req := { part := some p.part, master := 4 }

def kvGet (w : Work) (p : Pool) (va n : Nat) : Work × List Nat :=
  let g := partGet w.s { kvReq p with mi := some w.f.mi } p.part va n
  (noteCond? { w with s := g.s } g.cond, g.bytes)

def kvPut (w : Work) (p : Pool) (va : Nat) (bs : List Nat) : Work :=
  let g := partPut w.s { kvReq p with mi := some w.f.mi } p.part va bs
  noteCond? { w with s := g.s } g.cond

/-- A page-map entry (R238). `state` is 0 FREE, 1 LIVE, 2 DRAINING. -/
structure PageEntry where
  ref : Nat := 0
  pin : Nat := 0
  state : Nat := 0
  gen : Nat := 0
deriving DecidableEq, Repr, Inhabited

def pageEntryOf (x : Nat) : PageEntry :=
  { ref := bits x 15 0, pin := bits x 31 16, state := bits x 33 32, gen := bits x 63 40 }

def pageEntryWord (e : PageEntry) : Nat :=
  e.ref % 65536 + e.pin % 65536 * 2 ^ 16 + e.state % 4 * 2 ^ 32 + e.gen % 2 ^ 24 * 2 ^ 40

def getPage (w : Work) (p : Pool) (id : Nat) : Work × PageEntry :=
  let (w, bs) := kvGet w p (p.map + 8 * id) 8
  (w, pageEntryOf (leVal bs))

def putPage (w : Work) (p : Pool) (id : Nat) (e : PageEntry) : Work :=
  kvPut w p (p.map + 8 * id) (leBytes 8 (pageEntryWord e))

/-- Pages on the free stack. -/
def freePages (s : State) (p : Pool) : Nat := rfield s (panelReg .kvpPstat p.panel p.n) 23 0

def setFreePages (w : Work) (p : Pool) (n : Nat) : Work :=
  { w with s := rsetField w.s (panelReg .kvpPstat p.panel p.n) 23 0 n }

/-- The address of a place of the free stack (R238). -/
def stackAddr (p : Pool) (i : Nat) : Nat := p.map + 8 * p.pages + 4 * i

def pushPage (w : Work) (p : Pool) (id : Nat) : Work :=
  let k := freePages w.s p
  setFreePages (kvPut w p (stackAddr p k) (leBytes 4 id)) p (k + 1)

/-- The 1,024 bytes of a summary that covers no key (R246). -/
def emptySummary (p : Pool) : List Nat :=
  let half (code : Nat) : List Nat :=
    (List.replicate p.head (leBytes 2 code)).flatten ++ List.replicate (512 - 2 * p.head) 0
  half 0x7F80 ++ half 0xFF80

/-- Allocate (R239); none, and a refusal counted, when the stack is empty. -/
def allocPage (w : Work) (p : Pool) : Work × Option Nat :=
  let k := freePages w.s p
  if k == 0 then ({ w with s := rbump w.s (panelReg .kvpPstat p.panel p.n) 63 48 1 }, none)
  else
    let (w, bs) := kvGet w p (stackAddr p (k - 1)) 4
    let id := leVal bs % 2 ^ 24
    let (w, e) := getPage (setFreePages w p (k - 1)) p id
    let w := putPage w p id { ref := 1, pin := 0, state := 1, gen := e.gen + 1 }
    (kvPut w p (p.ctn + 1024 * id) (emptySummary p), some id)

/-- Store an entry whose counts fell, with the change of state that R239 gives. -/
def settlePage (w : Work) (p : Pool) (id : Nat) (e : PageEntry) : Work :=
  if e.ref != 0 then putPage w p id e
  else if e.pin != 0 then putPage w p id { e with state := 2 }
  else pushPage (putPage w p id { e with state := 0 }) p id

/-- Release a page-table reference and, with `pin`, a pin. -/
def releasePage (w : Work) (p : Pool) (id ref pin : Nat) : Work :=
  let (w, e) := getPage w p id
  settlePage w p id { e with ref := e.ref - ref, pin := e.pin - pin }

/-- Is a page of a page table LIVE? -/
def pageLive (w : Work) (p : Pool) (id : Nat) : Work × Bool :=
  if p.pages ≤ id then (w, false)
  else
    let (w, e) := getPage w p id
    (w, e.state == 1)

/-! Page tables (R237): FP32-typed descriptors whose elements are U32. A table in T1 lies in the sideboard of the pool's home
panel, whose KVP unit reads it (log entry 27). -/

def tablePlace (p : Pool) : Exec := { panel := p.panel, bench := 0 }

/-- The page of index `k` for a sequence and a KV head. -/
def readEntry (w : Work) (p : Pool) (d : Desc) (k seq head : Nat) : Work × Nat :=
  let off := 4 * k + rowOffset d [0, seq, head, 0, 0]
  let (w, bs) : Work × List Nat :=
    if d.tier ≤ 1 then tierGet w d (tablePlace p) off 4 else kvGet w p (d.base + off) 4
  (w, leVal bs % 2 ^ 24)

def writeEntry (w : Work) (p : Pool) (d : Desc) (k seq head id : Nat) : Work :=
  let off := 4 * k + rowOffset d [0, seq, head, 0, 0]
  if d.tier ≤ 1 then tierPut w d (tablePlace p) off (leBytes 4 id) else kvPut w p (d.base + off) (leBytes 4 id)

/-- DETAILs of a page-table descriptor (R237). -/
def tableFaults (d : Option Desc) : List Nat :=
  match d with
  | none => []
  | some d =>
    on (d.format != 0 || d.scaling != 0) 0x0004 ++ on (65536 < descExt d 0 || descExt d 3 != 1 || descExt d 4 != 1) 0x0007 ++
    on (d.tier == 0 || d.tier == 4) 0x0009 ++ on (d.comp != 0) 0x000A ++ on (d.lenEn && d.lenDim != 0) 0x000D

/-- Condition of a failing sequence (R245). -/
def kvFail (detail : Nat) : Cond := { status := 2, detail := detail }

/-! Pins (R240). -/

/-- A sequence's key length in positions through a page table (R226, R237). -/
def pagedLen (f : Flight) (d : Desc) (seq : Nat) : Nat :=
  if d.lenEn then min (f.lens.getD seq 0) (256 * descExt d 0) else 256 * descExt d 0

/-- The entries that the key lengths of an MI cover: index, sequence, KV head; head outermost. -/
def coveredEntries (f : Flight) (d : Desc) : List (Nat × Nat × Nat) :=
  (List.range (descExt d 2)).flatMap fun h => (List.range (descExt d 1)).flatMap fun i =>
    (List.range (ceilDiv (pagedLen f d i) 256)).map fun k => (k, i, h)

/-- Pin the pages of an MI at issue: pages in the order of `coveredEntries`; a missing page is DETAIL 0x0013, and a pin
count at its limit holds the issue. -/
inductive PinResult where
  | pinned (w : Work) (ids : List Nat)
  | missing (w : Work)
  | held

def pinPages (w : Work) (p : Pool) (d : Desc) : PinResult :=
  let start : Work × List Nat × Bool × Bool := (w, [], false, false)
  let (w1, ids, miss, full) := (coveredEntries w.f d).foldl (fun (acc : Work × List Nat × Bool × Bool) e =>
    let (w, ids, miss, full) := acc
    if miss || full then acc
    else
      let (w, id) := readEntry w p d e.1 e.2.1 e.2.2
      let (w, live) := pageLive w p id
      if !live then (w, ids, true, false)
      else if ids.contains id then (w, ids ++ [id], false, false)
      else
        let (w, pe) := getPage w p id
        if pe.pin == 0xFFFF then (w, ids, false, true)
        else (putPage w p id { pe with pin := pe.pin + 1 }, ids ++ [id], false, false)) start
  if full then .held
  else if miss then .missing (ids.eraseDups.foldl (fun w id => releasePage w p id 0 1) w1)
  else .pinned w1 ids

/-- Unpin what an MI pinned: after its last read, or when it is discarded. -/
def unpinPages (w : Work) (pool : Nat) : Work :=
  match poolOf w.s w.f.part pool with
  | none => { w with f := { w.f with data := [] } }
  | some p =>
    let w := w.f.data.eraseDups.foldl (fun w id => releasePage w p id 0 1) w
    { w with f := { w.f with data := [] } }

/-! Frames (R236). -/

def frameAt (p : Pool) (id : Nat) : Nat := p.frames + 0x40000 * id

def poolMx (p : Pool) : Bool := p.format == 5

def pageRow (p : Pool) : Nat := rowBytes (poolFmt p) p.head

/-- Codes of rows `0 … cnt − 1` of the K or V half of a page, and their block scales in the order of `readScales`: along
the head for K, along the positions for V. -/
def readHalf (w : Work) (p : Pool) (panel id cnt : Nat) (v : Bool) : Work × Array Nat × Array Nat :=
  let base := frameAt p id + (if v then 0x20000 else 0)
  let (w, bs) := memGet w panel base (cnt * pageRow p)
  let codes := ((List.range cnt).flatMap fun r =>
    (unpack (poolFmt p) ((bs.drop (r * pageRow p)).take (pageRow p))).take p.head).toArray
  if !(poolMx p) then (w, codes, #[])
  else if v then
    let (w, sc) := memGet w panel (base + 0x10000) (64 * p.head)
    let nb := ceilDiv cnt 32
    (w, codes, ((List.range nb).flatMap fun b => (List.range p.head).map fun e => sc.getD (64 * e + b) 0).toArray)
  else
    let (w, sc) := memGet w panel (base + 0x10000) (64 * cnt)
    (w, codes, ((List.range cnt).flatMap fun r => (List.range (p.head / 32)).map fun b => sc.getD (64 * r + b) 0).toArray)

/-- The keys or values of `len` positions of a sequence and KV head out of its pages, as a tile with the coordinates of
R225. -/
def pagedTile (w : Work) (p : Pool) (panel : Nat) (ids : List Nat) (len seq head : Nat) (v : Bool) : Work × Tile :=
  let (w, codes, sc) := (ids.zipIdx).foldl (fun (acc : Work × Array Nat × Array Nat) e =>
    let (w, c, s) := readHalf acc.1 p panel e.1 (min 256 (len - 256 * e.2)) v
    (w, acc.2.1 ++ c, acc.2.2 ++ s)) (w, #[], #[])
  (w, { f := poolFmt p, mx := poolMx p, axis := if v then 1 else 0
        box := [(0, p.head), (0, len), (seq, 1), (head, 1), (0, 1)], codes := codes, sc := sc })

/-! KV_APPEND (R241, R242, R246). -/

/-- The rows of one page that an append writes: page index, first row, first new position, count. -/
structure AppendRun where
  index : Nat
  row : Nat
  t : Nat
  cnt : Nat
deriving DecidableEq, Repr, Inhabited

def appendRuns : Nat → Nat → Nat → Nat → List AppendRun
  | 0, _, _, _ => []
  | fuel + 1, pos, t, n =>
    if n == 0 then []
    else
      let k := min n (256 - pos % 256)
      { index := pos / 256, row := pos % 256, t := t, cnt := k } :: appendRuns fuel (pos + k) (t + k) (n - k)

/-- The descriptor that converts into a pool's format for a page table's tensor. -/
def poolDesc (p : Pool) (tensorId : Nat) : Desc :=
  { format := p.format, scaling := if poolMx p then 1 else 0, tensorId := tensorId }

/-- The SR draw of a new element: the page table's tensor identity and the source's coordinates (log entry 28). -/
def appendDraw (f : Flight) (table src : Desc) (c : List Nat) : Nat :=
  if miMode f.word == .sr then
    srDraw f.seed ((miOrigin f.word + linIndex src.extents c) % 2 ^ 64) (miStep f.word) table.tensorId
  else 0

/-- One row or block converted: codes and census. `b` is its block's scale code and kind. -/
def convRun (f : Flight) (dp : Desc) (draws : List Nat) (b : Nat × Nat) (vs : List Acc) : List Nat × Cen :=
  (vs.zip draws).foldl (fun (acc : List Nat × Cen) v =>
    let (c, cen) := convElem dp (miMode f.word) (miSat f.word) v.2 v.1 b.2 b.1
    (acc.1 ++ [c], cenMerge acc.2 cen)) ([], {})

/-- BF16 codes of a summary widened by a stored key value (R246). -/
def widenSummary (lo : Bool) (code : Nat) (v : Val) : Nat :=
  let old := decodeElem .bf16 false code
  let x := if lo then Val.min old v else Val.max old v
  if x.isNan then fmtNan .bf16
  else (convertTo .bf16 false (if lo then .rdn else .rup) false 0 x 1).code

/-- Write K rows of a run, with the summary. -/
def appendKeys (w : Work) (p : Pool) (table src : Desc) (tile : Tile) (id seq head : Nat) (r : AppendRun) : Work × Cen :=
  let dp := poolDesc p table.tensorId
  let (w, old) := kvGet w p (p.ctn + 1024 * id) 1024
  let lows := (List.range p.head).map fun e => leAt old (2 * e) 2
  let highs := (List.range p.head).map fun e => leAt old (512 + 2 * e) 2
  let out := (List.range r.cnt).foldl (fun (acc : Work × Cen × List Nat × List Nat) k =>
    let (w, cen, lows, highs) := acc
    let blocks := (List.range (p.head / 32)).map fun b =>
      let cs := (List.range 32).map fun i => [32 * b + i, r.t + k, seq, head, 0]
      let vs := cs.map fun c => let v := elemVal tile c; ({ v := v, nanIn := v.isNan && !tile.bad } : Acc)
      let sc := if poolMx p then mxScale (poolFmt p) (miSat w.f.word) vs else (0, 0)
      (sc, convRun w.f dp (cs.map (appendDraw w.f table src)) sc vs)
    let codes := blocks.flatMap fun b => b.2.1
    let stored := blocks.flatMap fun b => b.2.1.map fun c =>
      let v := decodeElem (poolFmt p) (poolMx p) c
      if poolMx p then v.mul (e8m0 b.1.1) else v
    let w := memPut w w.f.panel (frameAt p id + (r.row + k) * pageRow p) (pack (poolFmt p) codes)
    let w := if poolMx p then
        memPut w w.f.panel (frameAt p id + 0x10000 + 64 * (r.row + k))
          ((blocks.map fun b => b.1.1) ++ List.replicate (64 - p.head / 32) 0)
      else w
    (w, blocks.foldl (fun c b => cenMerge c b.2.2) cen,
     (lows.zip stored).map (fun x => widenSummary true x.1 x.2),
     (highs.zip stored).map (fun x => widenSummary false x.1 x.2))) (w, {}, lows, highs)
  let sum (l : List Nat) : List Nat := l.flatMap (leBytes 2)
  let w := kvPut out.1 p (p.ctn + 1024 * id) (sum out.2.2.1)
  (kvPut w p (p.ctn + 1024 * id + 512) (sum out.2.2.2), out.2.1)

/-- The blocks of 32 positions that a run touches: block, first row, count. -/
def valueBlocks (r : AppendRun) : List (Nat × Nat × Nat) :=
  (List.range ((r.row + r.cnt - 1) / 32 - r.row / 32 + 1)).map fun i =>
    let b := r.row / 32 + i
    let lo := max r.row (32 * b)
    (b, lo, min (r.row + r.cnt) (32 * b + 32) - lo)

/-- Write V rows of a run. Under MX32 a block that this MI begins takes its scale by R69, and a later one keeps its scale
(R242). -/
def appendValues (w : Work) (p : Pool) (table src : Desc) (tile : Tile) (id seq head : Nat) (r : AppendRun) :
    Work × Cen :=
  let dp := poolDesc p table.tensorId
  let base := frameAt p id + 0x20000
  let elem (row e : Nat) : List Nat := [e, r.t + (row - r.row), seq, head, 0]
  let val (row e : Nat) : Acc := let v := elemVal tile (elem row e); { v := v, nanIn := v.isNan && !tile.bad }
  -- columns: for each head element and block, the scale, its codes and census
  let cols := (List.range p.head).foldl (fun (acc : Work × List (List Nat) × Cen) e =>
    let out := (valueBlocks r).foldl (fun (a : Work × List Nat × Cen) b =>
      let rows := (List.range b.2.2).map (b.2.1 + ·)
      let vs := rows.map fun row => val row e
      let (w, sc) : Work × (Nat × Nat) :=
        if !(poolMx p) then (a.1, (0, 0))
        else if b.2.1 == 32 * b.1 then
          let sc := mxScale (poolFmt p) (miSat a.1.f.word) vs
          (memPut a.1 a.1.f.panel (base + 0x10000 + 64 * e + b.1)
            (sc.1 :: if b.1 == 7 then List.replicate 56 0 else []), sc)
        else
          let (w, bs) := memGet a.1 a.1.f.panel (base + 0x10000 + 64 * e + b.1) 1
          let x := bs.headD 0
          (w, if x == 0xFF then (x, 1) else (x, 3))
      let (codes, cen) := convRun w.f dp (rows.map fun row => appendDraw w.f table src (elem row e)) sc vs
      (w, a.2.1 ++ codes, cenMerge a.2.2 cen)) (acc.1, [], {})
    (out.1, acc.2.1 ++ [out.2.1], cenMerge acc.2.2 out.2.2)) (w, [], {})
  let w := (List.range r.cnt).foldl (fun w k =>
    memPut w w.f.panel (base + (r.row + k) * pageRow p)
      (pack (poolFmt p) (cols.2.1.map fun col => col.getD k 0))) cols.1
  (w, cols.2.2)

/-- Copy rows 0 to f − 1 of a page, their scales and the summary (R241). -/
def copyPage (w : Work) (p : Pool) (old new f : Nat) : Work :=
  let move (w : Work) (src dst n : Nat) : Work :=
    let (w, bs) := memGet w w.f.panel src n
    if n == 0 then w else memPut w w.f.panel dst bs
  let half (w : Work) (o : Nat) : Work := move w (frameAt p old + o) (frameAt p new + o) (f * pageRow p)
  let w := half (half w 0) 0x20000
  let w := if poolMx p then
      (let w := move w (frameAt p old + 0x10000) (frameAt p new + 0x10000) (64 * f)
       if f == 0 then w else move w (frameAt p old + 0x30000) (frameAt p new + 0x30000) (64 * p.head))
    else w
  let (w, bs) := kvGet w p (p.ctn + 1024 * old) 1024
  kvPut w p (p.ctn + 1024 * new) bs

/-! Copies of KV_APPEND (R239, R241): they start in a step of their own, so that other MIs of the pool can come between the copy
pin and the swap. -/

/-- A copy under way: page index, sequence, KV head, the page copied and its copy. -/
structure PageCopy where
  index : Nat
  seq : Nat
  head : Nat
  old : Nat
  new : Nat
deriving DecidableEq, Repr, Inhabited

/-- The copies that a KV_APPEND holds, as kept in its flight. -/
def copiesOf (f : Flight) : List PageCopy :=
  (List.range (f.data.length / 5)).map fun i =>
    let x (k : Nat) : Nat := f.data.getD (5 * i + k) 0
    { index := x 0, seq := x 1, head := x 2, old := x 3, new := x 4 }

/-- Start a copy of rows 0 to `f − 1`: the copy pin, the new page, its rows and summary; none when the stack is empty. -/
def startCopy (w : Work) (p : Pool) (id f : Nat) : Work × Option Nat :=
  match allocPage w p with
  | (w, none) => (w, none)
  | (w, some new) =>
    let (w, e) := getPage w p id
    let w := putPage w p id { e with pin := e.pin + 1 }
    let w := { w with s := rbump w.s (panelReg .kvpPstat p.panel p.n) 47 32 1 }
    (copyPage w p id new f, some new)

/-- Does an append to a LIVE page copy it (R239)? -/
def mustCopy (e : PageEntry) : Bool := !(e.ref == 1 && e.pin == 0)

/-- Rows copied for a run: those of the first page touched below the sequence's length (R241). -/
def copyRows (r : AppendRun) (len : Nat) : Nat := if r.t == 0 then len % 256 else 0

/-- Write the rows of a run into a page. -/
def writeRunRows (w : Work) (p : Pool) (dk dv table : Desc) (tk tv : Tile) (seq head : Nat) (r : AppendRun) (id : Nat) : Work × Cen :=
  let (w, c1) := appendKeys w p table dk tk id seq head r
  let (w, c2) := appendValues w p table dv tv id seq head r
  (w, cenMerge c1 c2)

/-- What an append to one page met. -/
inductive AppendEnd where
  | written
  /-- The page is not written (DETAIL 0x0013). -/
  | missing
  /-- The free stack is empty (DETAIL 0x0011). -/
  | empty
deriving DecidableEq, Repr, Inhabited

/-- The swap that ends a copy: the entry takes the new page, and the old one loses a reference and the copy pin. -/
def swapPage (w : Work) (p : Pool) (table : Desc) (c : PageCopy) : Work :=
  releasePage (writeEntry w p table c.index c.seq c.head c.new) p c.old 1 1

/-- Append the rows of one page. An entry that its table does not hold counts as missing (log entry 138). -/
def appendRun (w : Work) (p : Pool) (dk dv table : Desc) (tk tv : Tile) (seq head len : Nat) (r : AppendRun) :
    Work × Cen × AppendEnd :=
  match (copiesOf w.f).find? fun c => c.index == r.index && c.seq == seq && c.head == head with
  | some c =>
    let (w, cen) := writeRunRows w p dk dv table tk tv seq head r c.new
    (swapPage w p table c, cen, .written)
  | none =>
    if descExt table 0 ≤ r.index then (w, {}, .missing)
    else
      let (w, id) := readEntry w p table r.index seq head
      if id == noPage then
        if r.row != 0 then (w, {}, .missing)
        else
          match allocPage w p with
          | (w, none) => (w, {}, .empty)
          | (w, some new) =>
            let (w, cen) := writeRunRows (writeEntry w p table r.index seq head new) p dk dv table tk tv seq head r new
            (w, cen, .written)
      else
        let (w, live) := pageLive w p id
        if !live then (w, {}, .missing)
        else
          let (w, e) := getPage w p id
          if !(mustCopy e) then
            let (w, cen) := writeRunRows w p dk dv table tk tv seq head r id
            (w, cen, .written)
          else
            match startCopy w p id (copyRows r len) with
            | (w, none) => (w, {}, .empty)
            | (w, some new) =>
              let (w, cen) := writeRunRows w p dk dv table tk tv seq head r new
              (swapPage w p table { index := r.index, seq := seq, head := head, old := id, new := new }, cen, .written)

/-- New positions of a sequence (R241). -/
def appendCount (f : Flight) (dk : Desc) (seq : Nat) : Nat :=
  if param f 41 6 == 0 then descExt dk 1 else min (f.qlens.getD seq 0) (descExt dk 1)

/-- The runs of a sequence's append, by page, each in every KV head. -/
def seqRuns (f : Flight) (dk : Desc) (seq : Nat) : List (AppendRun × Nat) :=
  let len := f.lens.getD seq 0
  let n := appendCount f dk seq
  (appendRuns (n / 256 + 2) len 0 n).flatMap fun r => (List.range (descExt dk 3)).map fun h => (r, h)

/-- Does a sequence grow beyond 2^24 positions (R245)? -/
def seqTooLong (f : Flight) (dk : Desc) (seq : Nat) : Bool := 16777216 < f.lens.getD seq 0 + appendCount f dk seq

/-- Append to one sequence: its pages in ascending order, each in every KV head; nothing once damage stops the MI. A missing page is left unwritten, and an empty free
stack ends the sequence (R241, R245). -/
def appendSeq (w : Work) (p : Pool) (dk dv table : Desc) (seq : Nat) : Work × Cen :=
  if seqTooLong w.f dk seq then (noteCond w (kvFail 0x0014), {})
  else
    let len := w.f.lens.getD seq 0
    let n := appendCount w.f dk seq
    let u : Exec := { panel := w.f.panel, bench := (dealtBenches w.f w.f.panel).headD 0 }
    let (w, tiles) := (List.range (descExt dk 3)).foldl (fun (acc : Work × List (Tile × Tile)) h =>
      let box := [(0, descExt dk 0), (0, n), (seq, 1), (h, 1), (0, 1)]
      let (w, tk) := loadBox acc.1 0 dk u box
      let (w, tv) := loadBox w 1 dv u box
      (w, acc.2 ++ [(tk, tv)])) (w, [])
    if w.halt then (w, {})
    else
    let out := (seqRuns w.f dk seq).foldl (fun (acc : Work × Cen × Bool) r =>
      if acc.2.2 then acc
      else
        let t := tiles.getD r.2 default
        let (w, c, e) := appendRun acc.1 p dk dv table t.1 t.2 seq r.2 len r.1
        let w := match e with
          | .written => w
          | .missing => noteCond w (kvFail 0x0013)
          | .empty => noteCond w (kvFail 0x0011)
        (w, cenMerge acc.2.1 c, e == .empty)) (w, {}, false)
    (out.1, out.2.1)

def effectKvAppend (w : Work) : Work :=
  match slotDesc w.f 0, slotDesc w.f 1, slotDesc w.f 3, poolOf w.s w.f.part (bits (param w.f 40 1) 2 0) with
  | some dk, some dv, some table, some p =>
    let (w, cen) := (List.range (descExt dk 2)).foldl (fun (acc : Work × Cen) i =>
      let (w, c) := appendSeq acc.1 p dk dv table i
      (w, cenMerge acc.2 c)) (w, {})
    if w.halt then w else noteCensus { w with f := { w.f with data := [] } } w.f.panel table cen
  | _, _, _, _ => w

/-- Start the copies that an append needs now, while the free stack holds pages for them. -/
def startCopies (w : Work) : Work :=
  match slotDesc w.f 0, slotDesc w.f 3, poolOf w.s w.f.part (bits (param w.f 40 1) 2 0) with
  | some dk, some table, some p =>
    (List.range (descExt dk 2)).foldl (fun w i =>
      if seqTooLong w.f dk i then w
      else (seqRuns w.f dk i).foldl (fun w r =>
        if descExt table 0 ≤ r.1.index || freePages w.s p == 0 then w
        else
          let (w, id) := readEntry w p table r.1.index i r.2
          let (w, live) : Work × Bool := if id == noPage then (w, false) else pageLive w p id
          if !live then w
          else
            let (w, e) := getPage w p id
            if !(mustCopy e) then w
            else
              match startCopy w p id (copyRows r.1 (w.f.lens.getD i 0)) with
              | (w, some new) => { w with f := { w.f with data := w.f.data ++ [r.1.index, i, r.2, id, new] } }
              | (w, none) => w) w) w
  | _, _, _ => w

/-- Give up copies that will not be swapped: the copy pin and the new page (log entry 138). -/
def dropCopies (w : Work) (pool : Nat) : Work :=
  match poolOf w.s w.f.part pool with
  | none => { w with f := { w.f with data := [] } }
  | some p =>
    let w := (copiesOf w.f).foldl (fun w c => releasePage (releasePage w p c.old 0 1) p c.new 1 0) w
    { w with f := { w.f with data := [] } }

/-- The step of a KV_APPEND: its first step starts the copies that it needs, and the next one appends. -/
def kvAppendStep (mi : Nat) (s : State) : State :=
  match findFlight s mi with
  | some f =>
    if f.phase == .issued && miOpcode f.word == 0x18 && f.data.isEmpty then
      let w := startCopies { s := s, f := f }
      if w.f.data.isEmpty then runMi 0x18 [0, 1] false effectKvAppend mi s else putFlight w.s { w.f with mi := mi }
    else runMi 0x18 [0, 1] false effectKvAppend mi s
  | none => s

def faultsKvAppend (s : State) (f : Flight) : List Nat :=
  let shape := match slotDesc f 0, slotDesc f 1, slotDesc f 3 with
    | some k, some v, some t =>
      k.extents != v.extents || descExt t 1 != descExt k 2 || descExt t 2 != descExt k 3 || descExt k 4 != 1 ||
      (match poolOf s f.part (bits (param f 40 1) 2 0) with | some p => p.head != descExt k 0 | none => false)
    | _, _, _ => false
  on (8 ≤ param f 40 1) 0x0002 ++ unusedFaults f [(47, 63)] ++ slotFaults f [0, 1, 3] [] ++ tableFaults (slotDesc f 3) ++
  on shape 0x0007 ++ on (param f 41 6 % 4 != 0) 0x000D

/-! KV_FORK and KV_FREE (R243, R244). -/

/-- What stands against forking one entry (R243). -/
def forkCheck (w : Work) (p : Pool) (src dst : Desc) (k seq head : Nat) : Work × Option Nat :=
  if descExt src 0 ≤ k || descExt dst 0 ≤ k then (w, some 0x0013)
  else
    let (w, old) := readEntry w p dst k seq head
    let (w, id) := readEntry w p src k seq head
    if old != noPage then (w, some 0x0015)
    else
      let (w, live) := pageLive w p id
      if !live then (w, some 0x0013)
      else
        let (w, e) := getPage w p id
        (w, if e.ref == 0xFFFF then some 0x0012 else none)

/-- Fork one entry. -/
def forkEntry (w : Work) (p : Pool) (src dst : Desc) (k seq head : Nat) : Work :=
  let (w, id) := readEntry w p src k seq head
  let (w, e) := getPage w p id
  if e.ref == 0xFFFF then w else writeEntry (putPage w p id { e with ref := e.ref + 1 }) p dst k seq head id

/-- Fork one sequence's prefix, page index by page index over every KV head; a condition in any head stops it at that index. -/
def forkSeq (w : Work) (p : Pool) (src dst : Desc) (seq len : Nat) : Work :=
  let heads := List.range (descExt src 2)
  let out := (List.range (ceilDiv len 256)).foldl (fun (acc : Work × Option Nat) k =>
    match acc.2 with
    | some _ => acc
    | none =>
      let (w, bad) := heads.foldl (fun (a : Work × Option Nat) h =>
        match a.2 with
        | some _ => a
        | none => forkCheck a.1 p src dst k seq h) (acc.1, none)
      match bad with
      | some d => (w, some d)
      | none => (heads.foldl (fun w h => forkEntry w p src dst k seq h) w, none)) (w, none)
  match out.2 with
  | some d => noteCond out.1 (kvFail d)
  | none => out.1

/-- Every sequence and KV head of a page table. -/
def eachSeq (d : Desc) (w : Work) (fn : Work → Nat → Nat → Work) : Work :=
  (List.range (descExt d 2)).foldl (fun w h => (List.range (descExt d 1)).foldl (fun w i => fn w i h) w) w

def effectKvFork (w : Work) : Work :=
  match slotDesc w.f 0, slotDesc w.f 3, poolOf w.s w.f.part (bits (param w.f 40 1) 2 0) with
  | some src, some dst, some p =>
    (List.range (descExt src 1)).foldl (fun w i =>
      let len := w.f.lens.getD i 0
      forkSeq w p src dst i (if src.lenEn then min len (256 * descExt src 0) else len)) w
  | _, _, _ => w

def faultsKvFork (f : Flight) : List Nat :=
  on (8 ≤ param f 40 1) 0x0002 ++ unusedFaults f [(41, 63)] ++ slotFaults f [0, 3] [] ++ tableFaults (slotDesc f 0) ++
  tableFaults (slotDesc f 3) ++ on (!(sameExtents (slotDesc f 0) (slotDesc f 3) 1)) 0x0007

/-- Free one sequence's entries from its length on. -/
def freeSeq (w : Work) (p : Pool) (d : Desc) (seq head len : Nat) : Work :=
  let out := (List.range (descExt d 0)).foldl (fun (acc : Work × Bool) k =>
    if k < ceilDiv len 256 then acc
    else
      let (w, id) := readEntry acc.1 p d k seq head
      if id == noPage then (w, acc.2)
      else
        let (w, e) : Work × PageEntry := if p.pages ≤ id then (w, {}) else getPage w p id
        if e.ref == 0 then (w, true)
        else (writeEntry (releasePage w p id 1 0) p d k seq head noPage, acc.2)) (w, false)
  if out.2 then noteCond out.1 (kvFail 0x0010) else out.1

def effectKvFree (w : Work) : Work :=
  match slotDesc w.f 0, poolOf w.s w.f.part (bits (param w.f 40 1) 2 0) with
  | some d, some p => eachSeq d w fun w i h => freeSeq w p d i h (w.f.lens.getD i 0)
  | _, _ => w

def faultsKvFree (f : Flight) : List Nat :=
  on (8 ≤ param f 40 1) 0x0002 ++ unusedFaults f [(41, 63)] ++ slotFaults f [0] [] ++ tableFaults (slotDesc f 0)

/-! Pool contexts: KVP_PCFGn.ENABLE (R235, R238, R618). -/

/-- Is an area of partition memory wholly mapped into memory that the partition owns, in a pool's tier? -/
def areaOwned (s : State) (part tier va n : Nat) : Bool :=
  (pieces va n).all fun pc =>
    match (translate s part pc.1 true).1 with
    | .ok pa => (match regionOf pa with
      | .sideboard _ => tier == 1 | .hbm => tier == 2 | .lpddr => tier == 3 | _ => false)
    | .error _ => false

/-- Does a pool context break a rule that clears ENABLE? -/
def poolRefused (s : State) (a : RegAddr) (p : Pool) : Bool :=
  let v := rget s a
  let tier := bits v 22 20
  !([1, 3, 5].contains p.format) || p.head == 0 || 256 < p.head || tier == 0 || 3 < tier || p.pages == 0x1000000 ||
  !(areaOwned s p.part tier p.frames (0x40000 * p.pages)) || !(areaOwned s p.part tier p.map (12 * p.pages)) ||
  !(areaOwned s p.part tier p.ctn (1024 * p.pages)) ||
  otherServes s .kvpPcfg allPanels 16 a (fun y => bits y 15 8 == bits v 15 8 && bits y 3 1 == bits v 3 1)

/-- A write of KVP_PCFGn: ENABLE starts initialisation, or is refused. -/
def poolWrite (s : State) (panel n v : Nat) : State :=
  let a := panelReg .kvpPcfg panel n
  let s := plainWrite s a v
  if !(rbit s a 0) then { s with kv := { s.kv with initing := s.kv.initing.filter (· != (panel, n)) } }
  else if poolRefused s a (poolAt s panel n) then refuseEnable s a v
  else
    let st := panelReg .kvpPstat panel n
    let s := rsetField (rsetField s st 24 24 0) st 23 0 0
    { s with kv := { s.kv with initing := (s.kv.initing.filter (· != (panel, n))) ++ [(panel, n)] } }

/-- Initialisation completes: every entry FREE with GEN 0, and every page on the stack, the lowest on top (log entry
29). -/
def poolReadyNow (panel n : Nat) (s : State) : State :=
  if !(s.kv.initing.contains (panel, n)) then s
  else
    let s := { s with kv := { s.kv with initing := s.kv.initing.filter (· != (panel, n)) } }
    let p := poolAt s panel n
    let image := List.replicate (8 * p.pages) 0 ++
      ((List.range p.pages).flatMap fun i => leBytes 4 (p.pages - 1 - i))
    let g := partPut s (kvReq p) p.part p.map image
    let st := panelReg .kvpPstat panel n
    rsetField (rsetField g.s st 24 24 1) st 23 0 p.pages

/-! The meanings. -/

def execKvAppend (mi : Nat) (s : State) : Result := .next (whileRunning mi (kvAppendStep mi) s)
def execKvFork (mi : Nat) (s : State) : Result := .next (whileRunning mi (runMi 0x19 [] false effectKvFork mi) s)
def execKvFree (mi : Nat) (s : State) : Result := .next (whileRunning mi (runMi 0x1A [] false effectKvFree mi) s)
def execKvpPoolReady (panel n : Nat) (s : State) : Result := .next (poolReadyNow panel n s)

end Sys2Proof.Machine
end

