-- ==== Sys2Proof/Machine/Matrix.lean ====
section
/-!
DEFINITION. MM and MMA (03_exact_sums.md R76 to R95) and the panel combiner. A is read as (K, M), B as (K, N), C and D as (N, M),
dimension 0 first (log entry 24).
-/
namespace Sys2Proof.Machine

/-- Blocks of a contraction extent. -/
def blockCount (k : Nat) : Nat := ceilDiv k 32

/-- The block values of one output (R78 to R82): `a i` and `b i` are coordinates of the pair of contraction index `i`. -/
def blockValues (ta tb : Tile) (k : Nat) (a b : Nat → List Nat) : List Acc :=
  let kind := (pairKind ta.f tb.f).getD .narrow
  (List.range (blockCount k)).map fun j =>
    let ps := (List.range (min 32 (k - 32 * j))).map fun i =>
      (rawVal ta (a (32 * j + i)), rawVal tb (b (32 * j + i)))
    blockValue kind ps (scaleVal ta (a (32 * j))) (scaleVal tb (b (32 * j)))

/-- A combined result: its value, the blocks it covers, whether it carries NONCANONICAL and the range that says why. BLOCK_FIRST of a
spill tile that the MI itself writes is 0, for no field of the MI gives another: DESIGN CHOICE, log entry 133. -/
structure Root where
  acc : Acc := {}
  first : Nat := 0
  count : Nat := 0
  nonCanon : Bool := false
  range : Nat × Nat := (0, 0)
  /-- The entries of level 3 and above that the carry stack held, last value by level (R87). -/
  carry : List (Nat × Val) := []
deriving DecidableEq, Repr, Inhabited

/-- The values of a stack's entries of level 3 and above, over those that the carry area held before (R87). -/
def noteCarry (l : List (Nat × Val)) (st : List CarryEntry) : List (Nat × Val) :=
  (st.filter fun x => 3 ≤ x.level).foldl (fun l x => upsert (fun y => y.1 == x.level) (x.level, x.acc.v) l) l

/-- What the carry area holds in the end of a stack that takes entries in turn (R87). -/
def carryTrace (es : List CarryEntry) : List (Nat × Val) :=
  (es.foldl (fun (p : List CarryEntry × List (Nat × Val)) e =>
    let st := carryPush p.1 e
    (st, noteCarry p.2 st)) ([], [])).2

/-- An output's own blocks joined with the accumulate partial (R86, R89 to R94). The bench's stack takes both in ascending order, so
none passes to the panel combiner. -/
def joinPartial (own : List Acc) (p : Option (Acc × Nat × Nat × Nat)) : Root :=
  let entries (start : Nat) : List CarryEntry := own.zipIdx.map fun e => { level := 0, first := start + e.2, acc := e.1 }
  match p with
  | none => { acc := carryRoot own, count := own.length, carry := carryTrace (entries 0) }
  | some (v, first, count, flags) =>
    let nb := own.length + count
    let start := if first == 0 then count else 0
    let canonical := isNodeRange nb first count (bit flags 0)
    let blocks := own.zipIdx.map fun e => (start + e.2, 1, e.1)
    let acc := if canonical then combineElem nb ((first, count, v) :: blocks) [] else combineElem nb blocks [v]
    let here : List CarryEntry := if canonical then [{ level := clog2 count, first := first, acc := v }] else []
    { acc := acc, count := nb, nonCanon := !canonical || bit flags 1, range := (first, count)
      carry := carryTrace (if first == 0 then here ++ entries start else entries start ++ here) }

/-- A matrix output before its destination (R84): the root times both reciprocal scales, exact. A tensor scale that R57
rules out makes it NaN, produced. -/
def scaleRoot (ta tb : Tile) (a : Acc) : Acc :=
  if ta.bad || tb.bad then { a with v := .nan, nanIn := false }
  else
    let v := match ta.r with | some r => a.v.mul r | none => a.v
    { a with v := match tb.r with | some r => v.mul r | none => v }

/-- The accumulate operand as an A48 value (R86). -/
def accumulateVal (t : Tile) (c : List Nat) : Acc :=
  let v := elemVal t c
  { v := rne48 v, nanIn := v.isNan && !t.bad }

/-! Spill tiles of a matrix output: back to back from BASE in row-major order of the drawer-tile grid (log entry 25). -/

def spillOffset (word : List Nat) (m n : Nat) (t : OutTile) : Nat :=
  let (r, c) := tileShape (miShape word)
  ((List.range (ceilDiv m r)).flatMap fun i => (List.range (ceilDiv n c)).filterMap fun j =>
    if i * r < t.m0 || (i * r == t.m0 && j * c < t.n0) then some (spillSize (min r (m - i * r) * min c (n - j * c)))
    else none).sum

/-- Read spill tiles back to back until every output is covered (log entry 25). -/
def walkSpills (slot : Nat) (d : Desc) (u : Exec) (m n : Nat) : Nat → Nat → Work → List SpillTile → Work × List SpillTile
  | 0, _, w, ts => (w, ts)
  | fuel + 1, off, w, ts =>
    if m * n ≤ (ts.map fun t => t.rows * t.cols).sum then (w, ts)
    else
      let (w, t) := readSpill w slot d u off
      if t.rows == 0 || t.cols == 0 then (w, ts)
      else walkSpills slot d u m n fuel (off + spillSize (t.rows * t.cols)) w (ts ++ [t])

/-- The tiles of an accumulate operand in A48 spill: in T0 and T1 each unit holds those of its own drawer tiles, elsewhere they follow
one another from BASE (log entry 25). -/
def readSpills (w : Work) (d : Desc) (m n : Nat) (deal : List (OutTile × Exec)) : Work × List SpillTile :=
  if d.tier ≤ 1 then
    deal.foldl (fun (p : Work × List SpillTile) t =>
      let (w, x) := readSpill p.1 2 d t.2 (spillOffset w.f.word m n t.1)
      (w, p.2 ++ [x])) (w, [])
  else walkSpills 2 d ((deal.head?.map (·.2)).getD default) m n (m * n) 0 w []

/-- The partial of an output. A NaN that it holds counts as produced, whatever made it: DESIGN CHOICE, log entry 134. -/
def spillAt (ts : List SpillTile) (m n : Nat) : Option (Acc × Nat × Nat × Nat) :=
  (ts.find? fun t => t.originM ≤ m && m < t.originM + t.rows && t.originN ≤ n && n < t.originN + t.cols).map fun t =>
    ({ v := dec48 (t.values.getD ((m - t.originM) * t.cols + (n - t.originN)) 0) }, t.first, t.count, t.flags)

/-- Do the tiles of an accumulate operand break R86 or leave outputs uncovered (R93)? `own` is the MI's own block count. -/
def spillsBad (ts : List SpillTile) (m n own : Nat) : Bool :=
  match ts with
  | [] => m * n != 0
  | t :: rest =>
    rest.any (fun r => r.first != t.first || r.count != t.count || r.flags != t.flags) ||
    (t.first != 0 && t.first != own) || t.count == 0 ||
    (List.range m).any (fun i => (List.range n).any fun j => (spillAt ts i j).isNone)

/-- Log a NONCANONICAL result (R95): MXU_NC_LOG of the bench, or JIG_COMB_NC_LOG of the panel. One counts for each drawer tile on a
bench and for each operation in the panel combiner: DESIGN CHOICE, log entry 135. -/
def logNonCanon (s : State) (u : Exec) (panelComb : Bool) (tensorId first count : Nat) : State :=
  let phys := (physOf s u.panel u.bench).getD 0
  let (a0, a1) : RegAddr × RegAddr :=
    if panelComb then (panelReg .jigCombNcLog0 u.panel 0, panelReg .jigCombNcLog1 u.panel 0)
    else (benchReg .mxuNcLog0 u.panel phys 0, benchReg .mxuNcLog1 u.panel phys 0)
  let s := rbump s a0 47 32 1
  if rbit s a0 63 then s
  else rset (rsetField (rsetField s a0 31 0 tensorId) a0 63 63 1) a1 (first % 2 ^ 32 + count <<< 32)

/-- Place the carry-stack entries of level 3 and above in the carry area of the bench's work area, one 6-byte value per output for each
of its L levels (R87): the root of an operation, of a level beyond them, goes to the output. The area stands at the start of the work
area, by level, row and column: DESIGN CHOICE, log entry 136. -/
def storeCarry (s : State) (word : List Nat) (levels : Nat) (t : OutTile) (u : Exec) (rs : List (Nat × Nat × List (Nat × Val))) :
    State :=
  match physOf s u.panel u.bench with
  | none => s
  | some b =>
    let (r, c) := tileShape (miShape word)
    let base := drawerBase u.panel b + rfield s (benchReg .jigWork u.panel b 0) 5 0 * 0x10000
    rs.foldl (fun s x => (x.2.2.filter fun e => e.1 < 3 + levels).foldl (fun s e =>
      physWrite s (base + 6 * (((e.1 - 3) * r + (x.1 - t.m0)) * c + (x.2.1 - t.n0))) (leBytes 6 (enc48 e.2))) s) s

/-- The FLAGS of a spill tile (02_formats.md R73). -/
def spillFlags (first count : Nat) (nonCanon : Bool) : Nat :=
  (if rangeAligned first count then 1 else 0) + (if nonCanon then 2 else 0)

/-- One drawer tile's outputs: m fastest outermost as rows, n along each row. -/
def matrixTile (w : Work) (a b : Desc) (c : Option Desc) (spills : List SpillTile) (k : Nat) (t : OutTile) (u : Exec) :
    Work × Tile × Tile × List (Nat × Nat × Root) :=
  let one : List (Nat × Nat) := [(0, 1), (0, 1), (0, 1)]
  let (w, ta) := loadBox w 0 a u ((0, k) :: (t.m0, t.ms) :: one)
  let (w, tb) := loadBox w 1 b u ((0, k) :: (t.n0, t.ns) :: one)
  let (w, tc) : Work × Option Tile := match c with
    | some d => if d.format == 0xF then (w, none)
      else (let (w, t) := loadBox w 2 d u ((t.n0, t.ns) :: (t.m0, t.ms) :: one); (w, some t))
    | none => (w, none)
  (w, ta, tb, (List.range t.ms).flatMap fun i => (List.range t.ns).map fun j =>
    let m := t.m0 + i
    let n := t.n0 + j
    let own := blockValues ta tb k (fun x => [x, m, 0, 0, 0]) (fun x => [x, n, 0, 0, 0])
    let r := joinPartial own (spillAt spills m n)
    let acc := match tc with
      | some t => addAcc r.acc (accumulateVal t [n, m, 0, 0, 0])
      | none => r.acc
    (m, n, { r with acc := acc }))

/-- Write a tile's results as A48 spill (R73, R74). -/
def storeSpill (w : Work) (d : Desc) (m n : Nat) (t : OutTile) (u : Exec) (rs : List (Nat × Nat × Root)) : Work :=
  let head := (rs.head?.map (·.2.2)).getD {}
  let nc := rs.any (·.2.2.nonCanon)
  outPut w d u (spillOffset w.f.word m n t) (spillOffset w.f.word m n t) (spillBytes
    { tensorId := d.tensorId, first := head.first, count := head.count, flags := spillFlags head.first head.count nc
      rows := t.ms, cols := t.ns, originM := t.m0, originN := t.n0, values := rs.map fun r => enc48 r.2.2.acc.v })

/-- NONCANONICAL of a result: the log, the census flag and the condition (R91, R92). -/
def noteNonCanon (w : Work) (d : Desc) (u : Exec) (panelComb spill : Bool) (range : Nat × Nat) : Work :=
  let w := noteCond { w with s := logNonCanon w.s u panelComb d.tensorId range.1 range.2 } { status := 0x0A }
  if spill then w else noteCensus w u.panel d { nonCanon := true, valid := true, tensorId := d.tensorId }

/-- Write the results of a drawer tile: as A48 spill, without the operands' scales (R84), or into the gathering of the destination. -/
def putTile (g : Gather) (d : Desc) (m n : Nat) (ta tb : Tile) (t : OutTile) (u : Exec) (rs : List (Nat × Nat × Root)) : Gather :=
  if d.format == 0xF then { g with w := storeSpill g.w d m n t u rs }
  else rs.foldl (fun g r => putRow g d u r.2.1 [r.1, 0, 0, 0] [scaleRoot ta tb r.2.2.acc]) g

/-- One drawer tile of MM or MMA. -/
def runMatrixTile (a b d : Desc) (c : Option Desc) (spills : List SpillTile) (k m n : Nat) (g : Gather) (t : OutTile) (u : Exec) :
    Gather :=
  let (w, ta, tb, rs) := matrixTile g.w a b c spills k t u
  let w := { w with s := storeCarry w.s w.f.word (carryLevels (blockCount k)) t u (rs.map fun r => (r.1, r.2.1, r.2.2.carry)) }
  let w := match rs.find? (·.2.2.nonCanon) with
    | some r => noteNonCanon w d u false (d.format == 0xF) r.2.2.range
    | none => w
  putTile { g with w := w } d m n ta tb t u rs

def effectMatrix (acc : Bool) (w : Work) : Work :=
  match slotDesc w.f 0, slotDesc w.f 1, slotDesc w.f 3 with
  | some a, some b, some d =>
    let k := descExt a 0
    let m := descExt a 1
    let n := descExt b 1
    let c := if acc then slotDesc w.f 2 else none
    let deal := dealTiles w.f (planTiles w.f.word 1 m n)
    let isSpill := descTest c fun c => c.format == 0xF
    let (w, spills) : Work × List SpillTile := match c, isSpill with
      | some c, true => readSpills w c m n deal
      | _, _ => (w, [])
    if isSpill && spillsBad spills m n (blockCount k) then noteCond w { status := 2, detail := 0x000E }
    else
      let lost := w.cut
      let g := overTiles (fun _ => (kSteps k, 0)) (fun g t u =>
        let g := runMatrixTile a b d c spills k m n g t u
        { g with w := { g.w with cut := g.w.cut || lost } }) deal (if d.format == 0xF then { w := w } else gather w d)
      let w := if d.format == 0xF then g.w else storeGather g d
      { w with s := countDeliveries w.s w.f a b k deal }
  | _, _, _ => w

/-- Formats of an operand pair (R76). -/
def pairFaults (f : Flight) (x y : Nat) : List Nat :=
  match slotDesc f x, slotDesc f y with
  | some a, some b => on ((pairKind (descFmt a) (descFmt b)).isNone) 0x0006
  | _, _ => []

def faultsMatrix (acc : Bool) (s : State) (f : Flight) : List Nat :=
  let flat (d : Desc) : Bool := (d.extents.drop 2).any (· != 1)
  let shape := match slotDesc f 0, slotDesc f 1, slotDesc f 3 with
    | some a, some b, some d =>
      flat a || flat b || flat d || descExt a 0 != descExt b 0 ||
      descExt d 0 != descExt b 1 || descExt d 1 != descExt a 1 ||
      (descMx a && a.blockAxis != 0) || (descMx b && b.blockAxis != 0) ||
      (acc && (match slotDesc f 2 with | some c => c.extents != d.extents | none => false)) ||
      tiledFootBad s f (some a) (some b) (some d) (descExt a 1) (descExt b 1) (descExt a 0) (blockCount (descExt a 0))
    | _, _, _ => false
  unusedFaults f [(40, 63)] ++ slotFaults f (if acc then [0, 1, 2, 3] else [0, 1, 3]) [] ++ pairFaults f 0 1 ++
  on shape 0x0007

/-! The panel combiner (R90 to R95): partials of an MMA that its bench passes on (R94). -/

/-- The unit that reads for the combiner. -/
def combUnit (f : Flight) : Exec := { panel := f.panel, bench := (dealtBenches f f.panel).headD 0 }

/-- The blocks of the operation: the MI's own and its accumulate partial's. -/
def combBlocks (s : State) (f : Flight) : Nat :=
  let k := match slotDesc f 0 with | some a => descExt a 0 | none => 0
  let extra := match slotDesc f 2 with
    | some c => if c.format == 0xF then (readSpill { s := s, f := f } 2 c (combUnit f) 0).2.count else 0
    | none => 0
  blockCount k + extra

def findComb (s : State) (mi : Nat) : Option Combiner := s.jig.combs.find? (·.mi == mi)

/-- Does a partial hold a value of output (m, n)? -/
def partialHas (p : Partial) (m n : Nat) : Bool :=
  p.originM ≤ m && m < p.originM + p.rows && p.originN ≤ n && n < p.originN + p.cols

/-- The value that a partial holds of output (m, n). -/
def partialAt (p : Partial) (m n : Nat) : Acc :=
  { v := dec48 (p.values.getD ((m - p.originM) * p.cols + (n - p.originN)) 0) }

/-- The combiner's result for an output: the tree over the canonical partials plus the irregular sum. -/
def combResult (c : Combiner) (m n : Nat) : Acc :=
  let tagged := (c.partials.zip c.canon).filter fun p => partialHas p.1 m n
  combineElem c.nb ((tagged.filter (·.2)).map fun p => (p.1.first, p.1.count, partialAt p.1 m n))
    ((tagged.filter fun p => !p.2).map fun p => partialAt p.1 m n)

/-- Is every block of every output covered exactly once (R93)? -/
def combComplete (c : Combiner) (m n : Nat) : Bool :=
  (List.range m).all fun i => (List.range n).all fun j =>
    coverageOk c.nb ((c.partials.filter fun p => partialHas p i j).map fun p => (p.first, p.count))

/-- Do two partials overlap: in their blocks and in their outputs? -/
def partialsOverlap (p q : Partial) : Bool :=
  decide (p.first < q.first + q.count ∧ q.first < p.first + p.count) &&
  decide (p.originM < q.originM + q.rows ∧ q.originM < p.originM + p.rows) &&
  decide (p.originN < q.originN + q.cols ∧ q.originN < p.originN + p.cols)

/-- The results of the combiner's drawer tiles; an accumulate operand that is no spill enters after the root (R86). -/
def combTile (c : Combiner) (acc : Option Desc) (m n : Nat) (ta tb : Tile) (d : Desc) (g : Gather) (t : OutTile) (u : Exec) : Gather :=
  let (w, tc) : Work × Option Tile := match acc with
    | some x => if x.format == 0xF then (g.w, none)
      else (let (w, y) := loadBox g.w 2 x u [(t.n0, t.ns), (t.m0, t.ms), (0, 1), (0, 1), (0, 1)]; (w, some y))
    | none => (g.w, none)
  let rs := (List.range t.ms).flatMap fun i => (List.range t.ns).map fun j =>
    let r := combResult c (t.m0 + i) (t.n0 + j)
    let v := match tc with
      | some y => addAcc r (accumulateVal y [t.n0 + j, t.m0 + i, 0, 0, 0])
      | none => r
    (t.m0 + i, t.n0 + j, ({ acc := v, count := c.nb, nonCanon := c.nonCanonical } : Root))
  putTile { g with w := w } d m n ta tb t u rs

/-- The combiner has every block: its result is the MI's output, converted once. -/
def combFinish (s : State) (f : Flight) (c : Combiner) : State :=
  match slotDesc f 0, slotDesc f 1, slotDesc f 3 with
  | some a, some b, some d =>
    let m := descExt a 1
    let n := descExt b 1
    let none5 := [(0, 0), (0, 0), (0, 0), (0, 0), (0, 0)]
    let (w, ta) := loadBox { s := s, f := f } 0 { a with comp := 0 } (combUnit f) none5
    let (w, tb) := loadBox w 1 { b with comp := 0 } (combUnit f) none5
    let w := match (c.partials.zip c.canon).find? fun p => !p.2 || bit p.1.flags 1 with
      | some p => noteNonCanon w d (combUnit f) true (d.format == 0xF) (p.1.first, p.1.count)
      | none => w
    let g := (dealTiles f (planTiles f.word 1 m n)).foldl (fun g t => combTile c (slotDesc f 2) m n ta tb d g t.1 t.2)
      (if d.format == 0xF then { w := w } else gather w d)
    let w := if d.format == 0xF then g.w else storeGather g d
    finishWork { w with
      f := { w.f with mi := f.mi }
      s := { w.s with jig := { w.s.jig with combs := w.s.jig.combs.filter (·.mi != f.mi) } } }
  | _, _, _ => s

/-- The coverage of an operation fails: the result is discarded and the MI is malformed (R93). -/
def combRefused (s : State) (f : Flight) : State :=
  putFlight { s with jig := { s.jig with combs := s.jig.combs.filter (·.mi != f.mi) } }
    { f with phase := .executed, conds := f.conds ++ [{ status := 2, detail := 0x000E }] }

/-- A partial reaches the combiner of an MI. -/
def partialArrives (mi : Nat) (p : Partial) (s : State) : State :=
  match findFlight s mi with
  | none => s
  | some f =>
    if miOpcode f.word != 0x02 || (f.phase != .issued && f.phase != .waiting) then s
    else
      let c := (findComb s mi).getD { mi := mi, nb := combBlocks s f }
      if p.count == 0 || c.nb < p.first + p.count || c.partials.any (partialsOverlap p) then combRefused s f
      else
        let canonical := isNodeRange c.nb p.first p.count (bit p.flags 0)
        let c := { c with partials := c.partials ++ [p], canon := c.canon ++ [canonical]
                          nonCanonical := c.nonCanonical || !canonical || bit p.flags 1 }
        let m := match slotDesc f 0 with | some a => descExt a 1 | none => 0
        let n := match slotDesc f 1 with | some b => descExt b 1 | none => 0
        let s := { s with jig := { s.jig with combs := upsert (fun x => x.mi == mi) c s.jig.combs } }
        if combComplete c m n then combFinish s f c
        else if p.last then combRefused s f
        else putFlight s { f with phase := .waiting }

def execMm (mi : Nat) (s : State) : Result := .next (whileRunning mi (runMi 0x01 [0, 1] true (effectMatrix false) mi) s)
def execMma (mi : Nat) (s : State) : Result := .next (whileRunning mi (runMi 0x02 [0, 1, 2] true (effectMatrix true) mi) s)
def execCombinerPartialArrival (mi : Nat) (p : Partial) (s : State) : Result := .next (partialArrives mi p s)

end Sys2Proof.Machine
end

