-- ==== Sys2Proof/Machine/Attention.lean ====
section
/-!
DEFINITION. Attention (08_attention_kv.md R223 to R234, R254) and the canton index (R246 to R252).
-/
namespace Sys2Proof.Machine

/-! Parameters (R223, R224). -/

def attnMask (f : Flight) : Nat := param f 40 1
def attnPaged (f : Flight) : Bool := bit (param f 41 1) 0
def attnPool (f : Flight) : Nat := bits (param f 41 1) 3 1
def attnPartialOut (f : Flight) : Bool := bit (param f 41 1) 4
def attnPartialIn (f : Flight) : Bool := bit (param f 41 1) 5
def attnW (f : Flight) : Nat := param f 48 4
def attnQlen (f : Flight) : Nat := param f 52 6
/-- X0 to X3, as places after the slots in the flight's descriptors. -/
def attnX (f : Flight) (k : Nat) : Option Desc := slotDesc f (5 + k)
/-- The index that an X field holds. -/
def attnXField (f : Flight) (k : Nat) : Nat :=
  match k with | 0 => param f 42 2 | 1 => param f 58 2 | 2 => param f 60 2 | _ => param f 62 2

/-- Query length of a sequence (R226): the clamped entries of the query tensors that have one. -/
def queryLen (f : Flight) (ds : List (Option Desc)) (seq ext : Nat) : Nat :=
  if ds.any (fun d => descTest d (·.lenEn)) then min (f.qlens.getD seq 0) ext else ext

/-- Key length of a sequence of unpaged keys. -/
def keyLen (f : Flight) (ds : List (Option Desc)) (seq ext : Nat) : Nat :=
  if ds.any (fun d => descTest d (·.lenEn)) then min (f.lens.getD seq 0) ext else ext

/-! Visibility (R231). -/

/-- Is key `j` visible to a row of absolute position `a`? `pages` is the page list of its query block. -/
def visible (mask w : Nat) (a : Int) (j : Nat) (pages : List Nat) : Bool :=
  match mask with
  | 0 => true
  | 1 => decide ((j : Int) ≤ a)
  | 2 => decide (0 ≤ a) && decide (j / w ≤ a.toNat / w)
  | 3 => decide (0 ≤ a) && decide (a - w < j) && decide ((j : Int) ≤ a)
  | _ => decide ((j : Int) ≤ a) && pages.contains (j / 256)

/-- The page list of a query block (R251), from X0. -/
def readPageList (w : Work) (u : Exec) (d : Desc) (blk seq head : Nat) : Work × List Nat :=
  let off := rowOffset d [0, blk, seq, head, 0]
  let dense := 4 * linIndex d.extents [0, blk, seq, head, 0]
  let (w, b) := operandGet w 5 d u off dense 4
  let n := min (bits (leVal b) 12 0) (descExt d 0 - 1)
  let (w, bs) := operandGet w 5 d u (off + 4) (dense + 4) (4 * n)
  (w, (List.range n).map fun k => leAt bs (4 * k) 4)

/-! Scores (R228). -/

/-- s: the root over the head elements with the tensor scales, rounded RNE to FP32. -/
def attnScore (tq tk : Tile) (d : Nat) (q k : List Nat) : Acc :=
  let r := scaleRoot tq tk (carryRoot (blockValues tq tk d (fun e => e :: q) (fun e => e :: k)))
  step32 r r.v

/-- z = rne32(s × SIGMA). -/
def attnZ (sigma : Val) (s : Acc) : Acc := step32 s (s.v.mul sigma)

/-! The product with rounded weights (R229). -/

/-- A block value of narrow elements that carry their own block scales: the exact sum of the products, rounded once; R79
where the scales agree (log entry 30). -/
def scaledBlock (ps : List (Val × Val)) : Acc :=
  if ps.any (fun p => p.1.isNan || p.2.isNan) then { v := .nan, nanIn := true }
  else
    let prods := ps.map fun p => p.1.mul p.2
    let pinf := prods.contains (.inf false)
    let ninf := prods.contains (.inf true)
    if prods.any Val.isNan || (pinf && ninf) then { v := .nan }
    else if pinf then { v := .inf false }
    else if ninf then { v := .inf true }
    else
      let s := prods.foldl Val.add Val.zero
      if s.isZero then { v := .fin (ps.length == 32 && prods.all Val.isNeg) 0 0 } else { v := rne48 s }

/-- Up to 32 weights rounded as R229 says for a partner: BF16, or E4M3 under MX32 with its block scale. -/
def roundWeights (narrow : Bool) (ps : List Val) : List Val × Val :=
  if narrow then
    let (code, kind) := mxScale .e4m3 false (ps.map fun v => { v := v })
    (ps.map fun v =>
      if kind == 1 || kind == 2 then Val.zero
      else decodeElem .e4m3 true (convertTo .e4m3 true .rne true 0 (v.scale2 (127 - (code : Int))) 1).code, e8m0 code)
  else (ps.map fun v => roundVal .bf16 .rne false v 1, Val.one)

/-- The block value of weights against partner elements (value before its block scale, block scale), with the histories of the
weights (04_rounding_census_ledger.md R612). A weight that is absent contributes an exact zero (R233). -/
def weightBlock (narrow : Bool) (ps : List (Option Acc)) (vs : List (Val × Val)) : Acc :=
  let (es, x) := roundWeights narrow (ps.map fun p => match p with | some a => a.v | none => Val.zero)
  let pairs := (es.zip (ps.zip vs)).map fun p =>
    if p.2.1.isSome then (p.1, p.2.2) else (Val.zero, (Val.zero, Val.one))
  let b := if narrow then scaledBlock (pairs.map fun p => (p.1.mul x, p.2.1.mul p.2.2))
    else wideBlock (pairs.map fun p => (p.1, p.2.1))
  let h := ps.foldl (fun (h : Acc) p => match p with | some a => h.join a h.v | none => h) {}
  let made := ps.any fun p => match p with | some a => a.v.isNan && !a.nanIn | none => false
  { b with nanIn := (b.nanIn && !made) || h.nanIn || pairs.any (fun p => p.2.1.isNan || p.2.2.isNan)
           ovf := b.ovf || h.ovf, under := b.under || h.under, recOvf := h.recOvf, recSat := h.recSat }

/-! One query row of the forward pass. -/

/-- A row as it streams: m, l, the carry stack of each output element with what its carry area holds, the prior accumulators of R254,
and the function-unit results taken. -/
structure RowState where
  m : Val := .inf true
  l : Val := Val.zero
  blocks : List (List CarryEntry) := []
  carry : List (List (Nat × Val)) := []
  prior : List Acc := []
  evals : Nat := 0
deriving Inhabited

/-- An open A48 value times the correction factor (R218). -/
def rescale (f : Val) (a : Acc) : Acc := a.step (a.v.mul f) (rne48 (a.v.mul f))

/-- Push a block value on each stack. -/
def pushBlocks (blocks : List (List CarryEntry)) (b : Nat) (vs : List Acc) : List (List CarryEntry) :=
  (blocks.zip vs).map fun p => carryPush p.1 { level := 0, first := b, acc := p.2 }

/-- One score chunk of R218. `c` is the chunk's number, `zs` its scores with masked positions absent; `val j e` gives V. A
chunk that contributes nothing leaves every value as it is: its blocks enter as +0 (log entry 31). -/
def attnChunk (f : Flight) (narrow : Bool) (es : List Nat) (val : Nat → Nat → Val × Val) (st : RowState) (c : Nat)
    (zs : List (Option Acc)) : RowState :=
  let k := softChunk f st.m st.l zs
  let nb := ceilDiv zs.length 32
  let note (st : RowState) : RowState := { st with carry := (st.carry.zip st.blocks).map fun p => noteCarry p.1 p.2 }
  if !k.active || zs.all Option.isNone then
    note { st with blocks := (List.range nb).foldl (fun s b => pushBlocks s (4 * c + b) (es.map fun _ => {})) st.blocks }
  else
    let (blocks, prior) := match k.factor with
      | none => (st.blocks, st.prior)
      | some f => (st.blocks.map fun s => s.map fun e => { e with acc := rescale f e.acc }, st.prior.map (rescale f))
    note { st with
      m := k.m, l := k.l, prior := prior, evals := st.evals + zs.length + (if k.factor.isSome then 1 else 0)
      blocks := (List.range nb).foldl (fun s b =>
        let ps := ((k.ps.drop (32 * b)).take 32).map some
        pushBlocks s (4 * c + b) (es.map fun e =>
          weightBlock narrow ps ((List.range ps.length).map fun i => val (128 * c + 32 * b + i) e))) blocks }

/-- What a row yields: the A48 roots of its elements before the division, m, l and its fate. -/
structure RowOut where
  roots : List Acc
  m : Val
  l : Val
  fate : RowFate
  carry : List (List (Nat × Val)) := []
  evals : Nat := 0
deriving Inhabited

def attnRow (f : Flight) (narrow : Bool) (es : List Nat) (val : Nat → Nat → Val × Val) (st0 : RowState) (zs : List (Option Acc)) :
    RowOut :=
  let fate0 := rowFate zs
  let fate : RowFate := if st0.m.isNan then .nanProp
    else match fate0 with
      | .empty => if st0.m == .inf true then .empty else .ordinary
      | x => x
  let st := ((chunksOf (ceilDiv zs.length 128) zs).zipIdx).foldl (fun st c => attnChunk f narrow es val st c.2 c.1)
    { st0 with blocks := es.map (fun _ => []), carry := es.map fun _ => [] }
  let own := st.blocks.map carryFold
  let roots := if st.prior.isEmpty then own else (st.prior.zip own).map fun p => addAcc p.1 p.2
  let out : RowOut := { roots := roots, m := st.m, l := st.l, fate := fate, carry := st.carry, evals := st.evals }
  match fate with
  | .nanProp | .nanProd => { out with roots := es.map fun _ => (fateOutput fate {}).getD {}, m := .nan, l := .nan }
  | _ => out

/-- The primary output of a finished row before its destination's conversion (R220, R230). -/
def attnOutput (f : Flight) (tv : Tile) (r : RowOut) : List Acc :=
  r.roots.map fun a =>
    match fateOutput r.fate a with
    | some x => if r.fate == .empty then {} else x
    | none =>
      if r.m == .inf true then {}
      else if tv.bad then { a with v := .nan, nanIn := false }
      else
        let v := a.v.mul (natAcc f 0x01 {} r.l).v
        { a with v := match tv.r with | some s => v.mul s | none => v }

/-! The forward MI (R227). -/

/-- What the forward pass knows of its operands. -/
structure AttnPlan where
  d : Nat
  nq : Nat
  seqs : Nat
  heads : Nat
  kvHeads : Nat
  keyExt : Nat
  fq : Fmt
  fk : Fmt
  fv : Fmt
deriving Inhabited

def attnPlan (s : State) (f : Flight) : AttnPlan :=
  let q := (slotDesc f 0).getD {}
  let k := (slotDesc f 1).getD {}
  let paged := attnPaged f
  { d := descExt q 0, nq := descExt q 1, seqs := descExt q 2, heads := descExt q 3
    kvHeads := if paged then descExt k 2 else descExt k 3
    keyExt := if paged then 256 * descExt k 0 else descExt k 1
    fq := descFmt q
    fk := if paged then (match poolOf s f.part (attnPool f) with | some p => poolFmt p | none => .bf16) else descFmt k
    fv := if paged then (match poolOf s f.part (attnPool f) with | some p => poolFmt p | none => .bf16)
      else descFmt ((slotDesc f 2).getD {}) }

def attnLk (f : Flight) (pl : AttnPlan) (seq : Nat) : Nat :=
  if attnPaged f then pagedLen f ((slotDesc f 1).getD {}) seq
  else keyLen f ([slotDesc f 1, slotDesc f 2] ++ (if miOpcode f.word == 0x05 then [attnX f 0, attnX f 3] else [])) seq pl.keyExt

def attnLq (f : Flight) (pl : AttnPlan) (seq : Nat) : Nat :=
  queryLen f [slotDesc f 0, slotDesc f 3, slotDesc f 4, attnX f 1, attnX f 2] seq pl.nq

/-- The pinned pages of a sequence and KV head (in the order of `coveredEntries`). -/
def pinnedPages (f : Flight) (d : Desc) (ids : List Nat) (seq head : Nat) : List Nat :=
  ((coveredEntries f d).zip ids).filterMap fun p => if p.1.2.1 == seq && p.1.2.2 == head then some p.2 else none

/-- Keys, or values, of a sequence and KV head. -/
def attnKv (w : Work) (u : Exec) (pl : AttnPlan) (seq head len : Nat) (v : Bool) : Work × Tile :=
  if attnPaged w.f then
    match poolOf w.s w.f.part (attnPool w.f) with
    | some p => pagedTile w p u.panel (pinnedPages w.f ((slotDesc w.f 1).getD {}) w.f.data seq head) len seq head v
    | none => (w, default)
  else
    let n := if v then 2 else 1
    loadBox w n ((slotDesc w.f n).getD {}) u [(0, pl.d), (0, len), (seq, 1), (head, 1), (0, 1)]

/-- Page lists of the query blocks that rows `m0` to `m1 − 1` lie in. -/
def tileLists (w : Work) (u : Exec) (m0 m1 seq head : Nat) : Work × List (Nat × List Nat) :=
  match attnX w.f 0 with
  | none => (w, [])
  | some d =>
    if m1 ≤ m0 then (w, [])
    else (List.range ((m1 - 1) / 64 - m0 / 64 + 1)).foldl (fun (acc : Work × List (Nat × List Nat)) i =>
      let (w, l) := readPageList acc.1 u d (m0 / 64 + i) seq head
      (w, acc.2 ++ [(m0 / 64 + i, l)])) (w, [])

def listFor (ls : List (Nat × List Nat)) (row : Nat) : List Nat :=
  ((ls.find? fun l => l.1 == row / 64).map (·.2)).getD []

/-- Place of a spill tile of an attention output: problems in order, each with its drawer-tile grid row by row (log entry
25). -/
def attnSpillOffset (tiles : List OutTile) (t : OutTile) : Nat :=
  ((tiles.filter fun x => x.prob < t.prob ||
    (x.prob == t.prob && (x.m0 < t.m0 || (x.m0 == t.m0 && x.n0 < t.n0)))).map fun x => spillSize (x.ms * x.ns)).sum

/-- The spill tiles of a prior accumulator, problem by problem (R254): in T0 and T1 each unit holds those of its own drawer tiles,
elsewhere they follow one another from BASE (log entry 25). -/
def readPriors (w : Work) (d : Desc) (pl : AttnPlan) (tiles : List OutTile) (deal : List (OutTile × Exec)) :
    Work × List (Nat × SpillTile) :=
  if d.tier ≤ 1 then
    deal.foldl (fun (p : Work × List (Nat × SpillTile)) t =>
      let (w, x) := readSpill p.1 6 d t.2 (attnSpillOffset tiles t.1)
      (w, p.2 ++ [(t.1.prob, x)])) (w, [])
  else
    let out := (List.range (pl.heads * pl.seqs)).foldl (fun (p : Work × Nat × List (Nat × SpillTile)) q =>
      let (w, ts) := walkSpills 6 d ((deal.head?.map (·.2)).getD default) pl.nq pl.d (pl.nq * pl.d) p.2.1 p.1 []
      (w, p.2.1 + (ts.map fun t => spillSize (t.rows * t.cols)).sum, p.2.2 ++ ts.map fun t => (q, t))) (w, 0, [])
    (out.1, out.2.2)

/-- The prior accumulators of a row of a problem; +0 where no tile holds one (log entry 139). -/
def priorRow (ps : List (Nat × SpillTile)) (prob row : Nat) (es : List Nat) : List Acc :=
  let ts := (ps.filter (·.1 == prob)).map (·.2)
  es.map fun e => match spillAt ts row e with | some x => x.1 | none => {}

/-- The prior row state under PARTIAL_IN (R254). -/
def priorState (w : Work) (u : Exec) (seq head row : Nat) (prior : List Acc) : Work × RowState :=
  match attnX w.f 2 with
  | none => (w, {})
  | some d =>
    let (w, t) := loadBox w 7 d u [(0, 2), (row, 1), (seq, 1), (head, 1), (0, 1)]
    (w, { m := elemVal t [0, row, seq, head, 0], l := elemVal t [1, row, seq, head, 0], prior := prior })

/-- Steps of a tile in which some key is visible to some row (R181, R232). -/
def visibleSteps (f : Flight) (m0 m1 lq lk steps : Nat) (lists : List (Nat × List Nat)) : List Nat :=
  (List.range steps).filter fun k => ((List.range m1).drop m0).any fun r =>
    r < lq && ((List.range (min lk (256 * (k + 1)))).drop (256 * k)).any fun j =>
      visible (attnMask f) (attnW f) ((r : Int) + lk - lq) j (listFor lists r)

/-- Rows of one drawer tile: row number and what it yields. -/
def attnTile (w : Work) (u : Exec) (pl : AttnPlan) (priors : List (Nat × SpillTile)) (t : OutTile) :
    Work × Tile × List (Nat × RowOut) :=
  let seq := t.prob % pl.seqs
  let head := t.prob / pl.seqs
  let kv := head / max 1 (pl.heads / pl.kvHeads)
  let lk := attnLk w.f pl seq
  let lq := attnLq w.f pl seq
  let m1 := min (t.m0 + t.ms) lq
  let dq := (slotDesc w.f 0).getD {}
  let (w, tq) := loadBox w 0 dq u [(0, pl.d), (t.m0, m1 - t.m0), (seq, 1), (head, 1), (0, 1)]
  let (w, tk) := attnKv w u pl seq kv lk false
  let (w, tv) := attnKv w u pl seq kv lk true
  let (w, lists) := if attnMask w.f == 4 then tileLists w u t.m0 m1 seq head else (w, [])
  let sigma := f32 (param w.f 44 4)
  let es := (List.range t.ns).map (t.n0 + ·)
  let narrow := fmtNarrow pl.fv
  let val (j e : Nat) : Val × Val := let c := [e, j, seq, kv, 0]; (rawVal tv c, scaleVal tv c)
  let out := ((List.range m1).drop t.m0).foldl (fun (acc : Work × List (Nat × RowOut)) r =>
    let (w, st0) := if attnPartialIn acc.1.f then priorState acc.1 u seq head r (priorRow priors t.prob r es) else (acc.1, {})
    let zs := (List.range lk).map fun j =>
      if visible (attnMask w.f) (attnW w.f) ((r : Int) + lk - lq) j (listFor lists r) then
        some (attnZ sigma (attnScore tq tk pl.d [r, seq, head, 0] [j, seq, kv, 0]))
      else none
    let o := attnRow w.f narrow es val st0 zs
    ({ w with s := countSfu w.s u (o.evals + 2) }, acc.2 ++ [(r, o)])) (w, [])
  (out.1, tv, out.2)

/-- Drawer steps of a tile, completed and skipped (R181, R232). -/
def attnSteps (w : Work) (pl : AttnPlan) (t : OutTile) (u : Exec) : List Nat :=
  let seq := t.prob % pl.seqs
  let lq := attnLq w.f pl seq
  let m1 := min (t.m0 + t.ms) lq
  let lists := if attnMask w.f == 4 then (tileLists w u t.m0 m1 seq (t.prob / pl.seqs)).2 else []
  visibleSteps w.f t.m0 m1 lq (attnLk w.f pl seq) (ceilDiv pl.keyExt 256) lists

/-- L2, or m and l, of the rows of a tile (R230, R254). -/
def storeRows (w : Work) (u : Exec) (seq head : Nat) (rows : List (Nat × RowOut)) : Work :=
  match slotDesc w.f 4 with
  | none => w
  | some d => rows.foldl (fun w r =>
    let vs := if attnPartialOut w.f then [r.2.m, r.2.l] else [softL2 w.f r.2.fate r.2.m r.2.l]
    storeSecondary w d u [(0, vs.length), (r.1, 1), (seq, 1), (head, 1), (0, 1)] (vs.map some).toArray) w

/-- Write the unnormalised rows of a tile as A48 spill (R254). Its FLAGS show the range as R73 has it, and NONCANONICAL, which a combiner
that receives the tile carries on (log entry 139). -/
def storeAttnSpill (w : Work) (d : Desc) (u : Exec) (tiles : List OutTile) (t : OutTile) (lk : Nat) (rows : List (Nat × RowOut)) : Work :=
  let codes := (List.range t.ms).flatMap fun i =>
    match rows.find? (fun r => r.1 == t.m0 + i) with
    | some r => r.2.roots.map fun a => enc48 a.v
    | none => List.replicate t.ns 0
  let count := max 1 (blockCount lk)
  outPut w d u (attnSpillOffset tiles t) (attnSpillOffset tiles t) (spillBytes
    { tensorId := d.tensorId, first := 0, count := count, flags := spillFlags 0 count true, rows := t.ms, cols := t.ns
      originM := t.m0, originN := t.n0, values := codes })

/-- One drawer tile of ATTN_FWD. -/
def runAttnTile (d : Desc) (pl : AttnPlan) (tiles : List OutTile) (priors : List (Nat × SpillTile)) (g : Gather) (t : OutTile) (u : Exec) :
    Gather :=
  let seq := t.prob % pl.seqs
  let head := t.prob / pl.seqs
  let (w, tv, rows) := attnTile g.w u pl priors t
  let lk := attnLk w.f pl seq
  let w := { w with s := storeCarry w.s w.f.word (carryLevels (blockCount pl.keyExt)) t u (rows.flatMap fun r => r.2.carry.zipIdx.map fun c => (r.1, t.n0 + c.2, c.1)) }
  let w := if t.n0 == 0 then storeRows w u seq head rows else w
  if attnPartialOut w.f then { g with w := storeAttnSpill w d u tiles t lk rows }
  else
    rows.foldl (fun g r =>
      if lk == 0 then g else putRow g d u t.n0 [r.1, seq, head, 0] (attnOutput g.w.f tv r.2)) { g with w := w }

/-- The deliveries of ATTN_FWD: each tile's Q rows once, and for each drawer step that it executes 256 keys and 256 values (log entry
20). -/
def attnRequests (w : Work) (pl : AttnPlan) (deal : List (OutTile × Exec)) : List (Nat × List Nat × Nat) :=
  let q := (slotDesc w.f 0).getD {}
  deal.flatMap fun (t, u) =>
    let seq := t.prob % pl.seqs
    let kv := t.prob / pl.seqs / max 1 (pl.heads / pl.kvHeads)
    let steps := attnSteps w pl t u
    let beats (f : Fmt) (rows n : Nat) : Nat := ceilDiv (rows * rowBytes f n) 256
    let keys (k : Nat) : Nat := min 256 (attnLk w.f pl seq - 256 * k)
    (if steps.isEmpty then [] else [(u.panel, [0, t.prob, t.m0], beats (descFmt q) t.ms pl.d)]) ++
    steps.flatMap fun k =>
      [(u.panel, [1, seq, kv, k], beats pl.fk (keys k) pl.d), (u.panel, [2, seq, kv, t.n0, k], beats pl.fv (keys k) t.ns)]

def effectAttnFwd (w : Work) : Work :=
  match slotDesc w.f 3 with
  | none => w
  | some d =>
    let pl := attnPlan w.s w.f
    let pts := planTiles w.f.word (pl.heads * pl.seqs) pl.nq pl.d
    let tiles := pts.flatten
    let deal := dealTiles w.f pts
    let (w, priors) : Work × List (Nat × SpillTile) := match attnPartialIn w.f, attnX w.f 1 with
      | true, some x => readPriors w x pl tiles deal
      | _, _ => (w, [])
    let lost := w.cut
    let steps (t : OutTile) : Nat × Nat :=
      let u := ((deal.find? fun x => x.1.no == t.no).map (·.2)).getD default
      let done := (attnSteps w pl t u).length
      (done, ceilDiv pl.keyExt 256 - done)
    let g := overTiles steps (fun g t u =>
      let g := runAttnTile d pl tiles priors g t u
      { g with w := { g.w with cut := g.w.cut || lost } }) deal (if attnPartialOut w.f then { w := w } else gather w d)
    let w := if attnPartialOut w.f then g.w else storeGather g d
    let w := { w with s := countRequests (miShared w.f.word) w.s (attnRequests w pl deal) }
    if attnPaged w.f && !w.halt then unpinPages w (attnPool w.f) else w

/-! What makes the attention MIs malformed (R223 to R226). -/

/-- Formats of R225 for Q, K, V and dO: the descriptor and its block axis under a narrow format. -/
def attnFmtFaults (d : Option Desc) (axis : Nat) : List Nat :=
  on (descTest d fun d => !([1, 2, 3, 4, 5].contains d.format) ||
    (fmtNarrow (descFmt d) && (!(descMx d) || d.blockAxis != axis))) 0x0004

/-- A length table that is misaligned, or missing where a query tensor needs it (R144, R226). -/
def qlenFaults (table : Nat) (ds : List (Option Desc)) : List Nat :=
  on (table % 4 != 0 || (table == 0 && ds.any fun d => descTest d (·.lenEn))) 0x000D

/-- Extents `e` of a descriptor that is present differ. -/
def extTest (d : Option Desc) (e : List Nat) : Bool := descTest d fun d => d.extents != e

def sigmaBad (code : Nat) : Bool :=
  match f32 code with | .fin neg m _ => neg || m == 0 | _ => true

/-- Is the footprint of an attention MI too large (06_jig.md R176)? Q and K stand for A and B (log entry 131). -/
def attnFootBad (s : State) (f : Flight) (pl : AttnPlan) (out : Option Desc) (m k nb : Nat) : Bool :=
  let keys : Option Desc := if attnPaged f then some { format := fmtCode pl.fk, scaling := if pl.fk == .e4m3 then 1 else 0 } else slotDesc f 1
  tiledFootBad s f (slotDesc f 0) keys out m pl.d k (blockCount nb)

def faultsAttnFwd (s : State) (f : Flight) : List Nat :=
  let mask := attnMask f
  let paged := attnPaged f
  let w := attnW f
  let q := (slotDesc f 0).getD {}
  let k := (slotDesc f 1).getD {}
  let pl := attnPlan s f
  let out := attnPartialOut f
  let inp := attnPartialIn f
  let rows (n : Nat) : List Nat := [n, pl.nq, pl.seqs, pl.heads, descExt q 4]
  let pool := poolOf s f.part (attnPool f)
  on (4 < mask) 0x0001 ++
  on (64 ≤ param f 41 1 || (w != 0 && mask != 2 && mask != 3)) 0x0002 ++
  slotFaults f ([0, 1, 3] ++ (if paged then [] else [2])) (if paged then [2] else []) ++
  on ((List.range 4).any fun i =>
    let used := if i == 0 then mask == 4 else if i == 3 then false else inp
    if used then (attnX f i).isNone else attnXField f i != 0xFFFF) 0x0003 ++
  attnFmtFaults (slotDesc f 0) 0 ++ (if paged then tableFaults (slotDesc f 1) else
    attnFmtFaults (slotDesc f 1) 0 ++ attnFmtFaults (slotDesc f 2) 1) ++
  on (descTest (slotDesc f 3) fun d => (d.format == 0xF) != out) 0x0004 ++
  on (inp && descTest (attnX f 1) fun d => d.format != 0xF) 0x0004 ++ fp32Faults (slotDesc f 4) ++
  fp32Faults (attnX f 0) ++ fp32Faults (attnX f 2) ++
  (if paged then on (match pool with | some p => pairKind pl.fq (poolFmt p) == none | none => false) 0x0006
    else pairFaults f 0 1) ++
  on (sigmaBad (param f 44 4) || (w == 0 && (mask == 2 || mask == 3))) 0x0007 ++
  on (pl.d % 32 != 0 || pl.d == 0 || 256 < pl.d || pl.kvHeads == 0 || pl.heads % pl.kvHeads != 0 || descExt q 4 != 1 ||
    (!out && extTest (slotDesc f 3) q.extents) || extTest (slotDesc f 4) (rows (if out then 2 else 1)) ||
    extTest (attnX f 2) (rows 2) || (if paged then descExt k 1 else descExt k 2) != pl.seqs ||
    (!paged && (descExt k 0 != pl.d || extTest (slotDesc f 2) k.extents)) ||
    (match pool with | some p => paged && p.head != pl.d | none => false) ||
    descTest (attnX f 0) (fun d => 4097 < descExt d 0)) 0x0007 ++
  on ([slotDesc f 0, slotDesc f 3, slotDesc f 4, attnX f 1, attnX f 2].any (fun d => descTest d fun d => d.lenEn && d.lenDim != 1) ||
    (!paged && descTest (slotDesc f 1) fun d => d.lenEn && d.lenDim != 1)) 0x000D ++
  qlenFaults (attnQlen f) [slotDesc f 0, slotDesc f 3, slotDesc f 4, attnX f 1, attnX f 2] ++
  on (attnFootBad s f pl (slotDesc f 3) pl.nq pl.keyExt pl.keyExt) 0x0007

/-! The backward MI (R233, R234). -/

/-- The pieces of one visible pair: p, ds, with their histories. -/
def backPair (f : Flight) (z : Acc) (l2 : Val) (dp : Acc) (delta : Val) : Acc × Acc :=
  let x := step32 { z with nanIn := z.nanIn || l2.isNan } (z.v.sub l2)
  let p := natAcc f 0x04 x x.v
  let y := step32 { dp with nanIn := dp.nanIn || delta.isNan } (dp.v.sub delta)
  (p, step32 (p.join y p.v) (p.v.mul y.v))

/-- Sum of weights against partners over a contraction, in canonical order. -/
def weightSum (narrow : Bool) (ws : List (Option Acc)) (vs : List (Val × Val)) : Acc :=
  carryRoot ((List.range (ceilDiv ws.length 32)).map fun b =>
    weightBlock narrow ((ws.drop (32 * b)).take 32) ((vs.drop (32 * b)).take 32))

def elemParts (t : Tile) (c : List Nat) : Val × Val := (rawVal t c, scaleVal t c)

/-- A root times a factor and a reciprocal tensor scale, exact. -/
def backScale (t : Tile) (c : Val) (a : Acc) : Acc :=
  if t.bad then { a with v := .nan, nanIn := false }
  else
    let v := a.v.mul c
    { a with v := match t.r with | some r => v.mul r | none => v }

/-- dO · V over the head: V and dO carry their narrow scales along the positions, so each element brings its own. -/
def headBlocks (ta tb : Tile) (k : Nat) (a b : Nat → List Nat) : List Acc :=
  if fmtNarrow ta.f then
    (List.range (blockCount k)).map fun j => scaledBlock ((List.range (min 32 (k - 32 * j))).map fun i =>
      let x := elemParts ta (a (32 * j + i))
      let y := elemParts tb (b (32 * j + i))
      (x.1.mul x.2, y.1.mul y.2))
  else blockValues ta tb k a b

/-- What a drawer tile of the backward pass holds: the tiles of Q, K and dO, and p and ds of each pair by (query head in the group,
row, key from `j0`); none for a pair that contributes nothing. -/
structure BackTile where
  tq : Tile
  tk : Tile
  tdo : Tile
  j0 : Nat
  pairs : Array (Array (Array (Option (Acc × Acc))))
deriving Inhabited

def BackTile.pair (b : BackTile) (g i j : Nat) : Option (Acc × Acc) :=
  ((b.pairs.getD g #[]).getD i #[]).getD (j - b.j0) none

/-- The pairs of `n` keys from `j0` of a (sequence, KV head) with every query row (R233). -/
def backTile (w : Work) (u : Exec) (pl : AttnPlan) (seq kv j0 n : Nat) : Work × BackTile :=
  let grp := pl.heads / max 1 pl.kvHeads
  let lk := attnLk w.f pl seq
  let lq := attnLq w.f pl seq
  let dsc (n : Nat) : Desc := (slotDesc w.f n).getD {}
  let h0 := kv * grp
  let qb := [(0, pl.d), (0, lq), (seq, 1), (h0, grp), (0, 1)]
  let kb := [(0, pl.d), (j0, n), (seq, 1), (kv, 1), (0, 1)]
  let rb := [(0, 1), (0, lq), (seq, 1), (h0, grp), (0, 1)]
  let (w, tq) := loadBox w 0 (dsc 0) u qb
  let (w, tk) := loadBox w 1 (dsc 1) u kb
  let (w, tv) := loadBox w 2 (dsc 2) u kb
  let (w, tdo) := loadBox w 4 (dsc 4) u qb
  let (w, tl) := loadBox w 6 (dsc 6) u rb
  let (w, td) := loadBox w 7 (dsc 7) u rb
  let sigma := f32 (param w.f 44 4)
  let pairs := ((List.range grp).map fun g => ((List.range lq).map fun i =>
    let h := h0 + g
    let l2 := elemVal tl [0, i, seq, h, 0]
    let delta := elemVal td [0, i, seq, h, 0]
    ((List.range n).map fun x =>
      let j := j0 + x
      if l2 == .inf true || !(visible (attnMask w.f) (attnW w.f) ((i : Int) + lk - lq) j []) then none
      else
        let z := attnZ sigma (attnScore tq tk pl.d [i, seq, h, 0] [j, seq, kv, 0])
        let r := scaleRoot tdo tv (carryRoot (headBlocks tdo tv pl.d (fun e => [e, i, seq, h, 0]) (fun e => [e, j, seq, kv, 0])))
        some (backPair w.f z l2 (step32 r r.v) delta)).toArray).toArray).toArray
  let count := (pairs.toList.flatMap fun g => g.toList.map fun r => r.toList.countP (·.isSome)).sum
  ({ w with s := countSfu w.s u count }, { tq := tq, tk := tk, tdo := tdo, j0 := j0, pairs := pairs })

/-- The constant c of R233. -/
def backConst (f : Flight) : Val := rne32 ((f32 (param f 44 4)).mul (.fin false fxLn2 (-(fxP : Int))))

/-- The sum over the contraction index t = g × EXTENT1(Q) + i of one weight of each pair with key `j` against a query-side tensor (R234). -/
def backColumn (b : BackTile) (pl : AttnPlan) (grp lq seq h0 j e : Nat) (pick : Acc × Acc → Acc) (tt : Tile) : Acc :=
  let total := if grp == 0 then 0 else (grp - 1) * pl.nq + lq
  let row (t : Nat) : Nat × Nat := (t / max 1 pl.nq, t % max 1 pl.nq)
  weightSum (fmtNarrow tt.f) ((List.range total).map fun t => (b.pair (row t).1 (row t).2 j).map pick)
    ((List.range total).map fun t =>
      let (g, i) := row t
      if i < lq then elemParts tt [e, i, seq, h0 + g, 0] else (Val.zero, Val.one))

/-- Put values into a gathering at coordinates. -/
def putAt (g : Gather) (d : Desc) (u : Exec) (c : List Nat) (v : Acc) : Gather :=
  let k := linIndex d.extents c
  { g with vals := g.vals.set! k (some v), units := g.units.set! k u }

/-- One drawer tile of dK and dV: the gathering of dK in `g`, whose second half holds dV. -/
def runBackTile (pl : AttnPlan) (dk dv : Desc) (g : Gather) (t : OutTile) (u : Exec) : Gather :=
  let seq := t.prob % pl.seqs
  let kv := t.prob / pl.seqs
  let grp := pl.heads / max 1 pl.kvHeads
  let lq := attnLq g.w.f pl seq
  let n := min (t.m0 + t.ms) (attnLk g.w.f pl seq) - t.m0
  let (w, b) := backTile g.w u pl seq kv t.m0 n
  let c := backConst w.f
  ((List.range n).flatMap fun x => (List.range t.ns).map fun e => (t.m0 + x, t.n0 + e)).foldl (fun (g : Gather) p =>
    let at' := [p.2, p.1, seq, kv, 0]
    let k := linIndex dk.extents at'
    let v := descCount dk + linIndex dv.extents at'
    let col := backColumn b pl grp lq seq (kv * grp) p.1 p.2
    { g with
      vals := (g.vals.set! k (some (backScale b.tq c (col (·.2) b.tq)))).set! v (some (backScale b.tdo Val.one (col (·.1) b.tdo)))
      units := (g.units.set! k u).set! v u }) { g with w := w }

/-- dQ of every problem, out of the home panel's combiner (R234). -/
def backQueries (pl : AttnPlan) (dq : Desc) (home : Exec) (w : Work) : Gather :=
  let grp := pl.heads / max 1 pl.kvHeads
  (List.range (pl.kvHeads * pl.seqs)).foldl (fun g prob =>
    let seq := prob % pl.seqs
    let kv := prob / pl.seqs
    let lk := attnLk g.w.f pl seq
    let (w, b) := backTile g.w home pl seq kv 0 lk
    let w := { w with s := g.w.s }
    let c := backConst w.f
    ((List.range grp).flatMap fun h => (List.range (attnLq w.f pl seq)).flatMap fun i => (List.range pl.d).map fun e => (h, i, e)).foldl
      (fun g x => putAt g dq home [x.2.2, x.2.1, seq, kv * grp + x.1, 0]
        (backScale b.tk c (weightSum (fmtNarrow b.tk.f) ((List.range lk).map fun j => (b.pair x.1 x.2.1 j).map (·.2))
          ((List.range lk).map fun j => elemParts b.tk [x.2.2, j, seq, kv, 0])))) { g with w := w }) (gather w dq)

/-- Drawer steps of a tile of ATTN_BWD, completed and skipped (06_jig.md R181): a step whose keys lie at or beyond their length, or that
holds no query row below its length, is skipped. -/
def backSteps (f : Flight) (pl : AttnPlan) (t : OutTile) : List Nat :=
  let seq := t.prob % pl.seqs
  let total := pl.heads / max 1 pl.kvHeads * pl.nq
  let lq := attnLq f pl seq
  if attnLk f pl seq ≤ t.m0 then []
  else (List.range (ceilDiv total 256)).filter fun k =>
    ((List.range (min total (256 * (k + 1)))).drop (256 * k)).any fun x => x % max 1 pl.nq < lq

/-- The deliveries of ATTN_BWD: each tile's K and V rows once, and for each drawer step that it executes 256 rows of Q and of dO (log
entry 20). -/
def backRequests (f : Flight) (pl : AttnPlan) (deal : List (OutTile × Exec)) : List (Nat × List Nat × Nat) :=
  let fmt (n : Nat) : Fmt := descFmt ((slotDesc f n).getD {})
  let total := pl.heads / max 1 pl.kvHeads * pl.nq
  let beats (g : Fmt) (rows : Nat) : Nat := ceilDiv (rows * rowBytes g pl.d) 256
  deal.flatMap fun (t, u) =>
    let steps := backSteps f pl t
    (if steps.isEmpty then [] else
      [(u.panel, [0, t.prob, t.m0], beats (fmt 1) t.ms), (u.panel, [1, t.prob, t.m0], beats (fmt 2) t.ms)]) ++
    steps.flatMap fun k =>
      let rows := min 256 (total - 256 * k)
      [(u.panel, [2, t.prob, k], beats (fmt 0) rows), (u.panel, [3, t.prob, k], beats (fmt 4) rows)]

def effectAttnBwd (w : Work) : Work :=
  match slotDesc w.f 3, attnX w.f 0, attnX w.f 3 with
  | some dq, some dk, some dv =>
    let pl := attnPlan w.s w.f
    let deal := dealTiles w.f (planTiles w.f.word (pl.kvHeads * pl.seqs) pl.keyExt pl.d)
    let home : Exec := { panel := w.f.panel, bench := (dealtBenches w.f w.f.panel).headD 0 }
    let size := descCount dk + descCount dv
    let all := ceilDiv (pl.heads / max 1 pl.kvHeads * pl.nq) 256
    let g := overTiles (fun t => let k := (backSteps w.f pl t).length; (k, all - k)) (runBackTile pl dk dv) deal
      { w := w, vals := Array.replicate size none, units := Array.replicate size default }
    let half (d : Desc) (o : Nat) (w : Work) : Work :=
      storeGather { w := w, vals := g.vals.extract o (o + descCount d), units := g.units.extract o (o + descCount d) } d
    let w := half dv (descCount dk) (half dk 0 g.w)
    let w := { w with s := countRequests (miShared w.f.word) w.s (backRequests w.f pl deal) }
    if w.halt then w else storeGather (backQueries pl dq home w) dq
  | _, _, _ => w

def faultsAttnBwd (s : State) (f : Flight) : List Nat :=
  let mask := attnMask f
  let w := attnW f
  let q := (slotDesc f 0).getD {}
  let k := (slotDesc f 1).getD {}
  let pl := attnPlan s f
  let rows := [1, pl.nq, pl.seqs, pl.heads, descExt q 4]
  on (3 < mask || bits (param f 41 1) 5 0 != 0) 0x0001 ++
  on (64 ≤ param f 41 1 || (w != 0 && mask != 2 && mask != 3)) 0x0002 ++
  slotFaults f [0, 1, 2, 3, 4] [] ++ on ((List.range 4).any fun i => (attnX f i).isNone) 0x0003 ++
  attnFmtFaults (slotDesc f 0) 0 ++ attnFmtFaults (slotDesc f 1) 0 ++ attnFmtFaults (slotDesc f 2) 1 ++
  attnFmtFaults (slotDesc f 4) 1 ++ fp32Faults (attnX f 1) ++ fp32Faults (attnX f 2) ++
  pairFaults f 0 1 ++ pairFaults f 2 4 ++
  on (sigmaBad (param f 44 4) || (w == 0 && (mask == 2 || mask == 3))) 0x0007 ++
  on (pl.d % 32 != 0 || pl.d == 0 || 256 < pl.d || pl.kvHeads == 0 || pl.heads % pl.kvHeads != 0 || descExt q 4 != 1 ||
    descExt k 0 != pl.d || descExt k 2 != pl.seqs || extTest (slotDesc f 2) k.extents || extTest (slotDesc f 3) q.extents ||
    extTest (slotDesc f 4) q.extents || extTest (attnX f 0) k.extents || extTest (attnX f 3) k.extents ||
    extTest (attnX f 1) rows || extTest (attnX f 2) rows) 0x0007 ++
  on ([0, 1, 2, 3, 4, 5, 6, 7, 8].any fun n => descTest (slotDesc f n) fun d => d.lenEn && d.lenDim != 1) 0x000D ++
  qlenFaults (attnQlen f) [slotDesc f 0, slotDesc f 3, slotDesc f 4, attnX f 1, attnX f 2] ++
  on (attnFootBad s f pl (attnX f 0) pl.keyExt (pl.heads / max 1 pl.kvHeads * pl.nq) (pl.heads / max 1 pl.kvHeads * pl.nq)) 0x0007

/-! CANTON_SELECT (R247 to R251). -/

def cantonCertified (f : Flight) : Bool := bit (param f 40 1) 0
def cantonPool (f : Flight) : Nat := bits (param f 40 1) 3 1
def cantonP (f : Flight) : Nat := param f 42 2
def cantonSink (f : Flight) : Nat := param f 44 2
def cantonLocal (f : Flight) : Nat := param f 46 2
def cantonQlen (f : Flight) : Nat := param f 56 6

/-- The page bound B of R247 for a query row and a summary; sums run over ascending head elements (log entry 32). -/
def pageBound (sigma : Val) (q lows highs : List Val) : Val :=
  if (lows ++ highs).any (fun v => v.isNan || v.isInf) then .inf false
  else
    let up (a b : Val) : Val := rup48 (a.add b)
    let terms := q.zip (lows.zip highs)
    let u := terms.foldl (fun s t => up s (Val.max (t.1.mul t.2.2) (t.1.mul t.2.1))) Val.zero
    let a := terms.foldl (fun s t => up s (t.1.abs.mul (Val.max t.2.1.abs t.2.2.abs))) Val.zero
    let b := rup32 (sigma.mul (rup48 (u.add (a.scale2 (-21)))))
    if b.isNan then .inf false else b

/-- A candidate page of a query block: page index, its largest bound, and each row's bound. -/
structure Candidate where
  page : Nat
  best : Val
  bounds : List Val
deriving Inhabited

/-- Add the candidates of the largest block bound, ties to the lower page, until `n` stand. -/
def takeBest : Nat → List Candidate → List Candidate → List Candidate
  | 0, chosen, _ => chosen
  | fuel + 1, chosen, rest =>
    match rest with
    | [] => chosen
    | c :: cs =>
      let best := cs.foldl (fun b x => if Val.lt b.best x.best then x else b) c
      takeBest fuel (chosen ++ [best]) (rest.filter fun x => x.page != best.page)

/-- What a block's list is: its pages ascending and whether it overflowed, with the candidates left out (R249). -/
def cantonChoose (f : Flight) (cap lastPage : Nat) (ms : List Val) (cands : List Candidate) :
    List Nat × Bool × List Candidate :=
  let always := cands.filter fun c => c.page < cantonSink f || (lastPage < c.page + cantonLocal f && c.page ≤ lastPage)
  let others := cands.filter fun c => !(always.any fun a => a.page == c.page)
  let tau := f32 (param f 48 4)
  let wanted := if cantonCertified f then
      others.filter fun c => (c.bounds.zip ms).any fun p => Val.lt (p.2.sub tau) p.1
    else others
  let limit := if cantonCertified f then always.length + wanted.length else max (cantonP f) always.length
  let qualify := min (always.length + wanted.length) limit
  let chosen := takeBest (min limit cap - always.length) always wanted
  let pages := (cands.map (·.page)).filter fun p => chosen.any fun c => c.page == p
  (pages, cap < qualify, cands.filter fun c => !(pages.contains c.page))

/-- The mass report of a row (R250): `n c` keys of the page are visible to it. -/
def cantonMass (f : Flight) (row : Nat) (m : Val) (visibleKeys : Candidate → Nat) (out : List Candidate) : Val :=
  out.foldl (fun d c =>
    let n := visibleKeys c
    if n == 0 then d
    else
      let e := (natAcc f 0x04 {} (rup32 ((c.bounds.getD row .nan).sub m))).v
      let t := rup32 ((Val.ofNat n).mul (rup32 (e.mul (.fin false (2 ^ 21 + 1) (-21)))))
      rup32 (d.add t)) Val.zero

/-- One query block: its rows are `r0` to `r1 − 1`. -/
def cantonBlock (w : Work) (u : Exec) (p : Pool) (dq table : Desc) (blk seq head lq lk : Nat) : Work :=
  let kvHeads := descExt table 2
  let kv := head / max 1 (descExt dq 3 / max 1 kvHeads)
  let r0 := 64 * blk
  let r1 := min (r0 + 64) lq
  match slotDesc w.f 3 with
  | none => w
  | some dl =>
    if r1 ≤ r0 then w
    else
      let d := descExt dq 0
      let rows := (List.range r1).drop r0
      let pos (r : Nat) : Int := (r : Int) + lk - lq
      let (w, tq) := loadBox w 0 dq u [(0, d), (r0, r1 - r0), (seq, 1), (head, 1), (0, 1)]
      let q (r : Nat) : List Val := (List.range d).map fun e =>
        (vecVal (miMode w.f.word) (miSat w.f.word) tq [e, r, seq, head, 0]).v
      let sigma := f32 (param w.f 52 4)
      let ids := pinnedPages w.f table w.f.data seq kv
      let last := pos (r1 - 1)
      let (w, cands) := (ids.zipIdx).foldl (fun (acc : Work × List Candidate) id =>
        if last < 256 * id.2 then acc
        else
          let (w, bs) := kvGet acc.1 p (p.ctn + 1024 * id.1) 1024
          let lows := (List.range d).map fun e => decodeElem .bf16 false (leAt bs (2 * e) 2)
          let highs := (List.range d).map fun e => decodeElem .bf16 false (leAt bs (512 + 2 * e) 2)
          let bounds := rows.map fun r => pageBound sigma (q r) lows highs
          (w, acc.2 ++ [{ page := id.2, best := bounds.foldl Val.max (.inf true), bounds := bounds }])) (w, [])
      let lastPage := if last < 0 then 0 else last.toNat / 256
      let always := cands.filter fun c =>
        c.page < cantonSink w.f || (lastPage < c.page + cantonLocal w.f && c.page ≤ lastPage)
      let (w, tk) := pagedTile w p u.panel ids lk seq kv false
      let ms := rows.map fun r => always.foldl (fun m c =>
        ((List.range (min lk (256 * (c.page + 1)))).drop (256 * c.page)).foldl (fun (m : Val) (j : Nat) =>
          if decide ((j : Int) ≤ pos r) then Val.max m (attnZ sigma (attnScore tq tk d [r, seq, head, 0] [j, seq, kv, 0])).v else m) m)
        (.inf true)
      let cap := descExt dl 0 - 1
      let (pages, exceeds, left) := cantonChoose w.f cap lastPage ms cands
      let words := (pages.length + (if exceeds then 2 ^ 31 else 0)) :: pages
      let words := words ++ List.replicate (descExt dl 0 - words.length) 0
      let w := putWords w dl u [0, blk, seq, head, 0] words
      match slotDesc w.f 4 with
      | none => w
      | some dm => (rows.zipIdx).foldl (fun w r =>
        let keys (c : Candidate) : Nat :=
          ((List.range (min lk (256 * (c.page + 1)))).drop (256 * c.page)).filter (fun (j : Nat) => decide ((j : Int) ≤ pos r.1)) |>.length
        storeSecondary w dm u [(0, 1), (r.1, 1), (seq, 1), (head, 1), (0, 1)]
          #[some (cantonMass w.f r.2 (ms.getD r.2 .nan) keys left)]) w

def effectCantonSelect (w : Work) : Work :=
  match slotDesc w.f 0, slotDesc w.f 1, poolOf w.s w.f.part (cantonPool w.f) with
  | some dq, some table, some p =>
    let u : Exec := { panel := w.f.panel, bench := (dealtBenches w.f w.f.panel).headD 0 }
    let w := (List.range (descExt dq 3)).foldl (fun w h => (List.range (descExt dq 2)).foldl (fun w i =>
      let lq := queryLen w.f [slotDesc w.f 0, slotDesc w.f 4] i (descExt dq 1)
      (List.range (ceilDiv (descExt dq 1) 64)).foldl (fun w b =>
        cantonBlock w u p dq table b i h lq (pagedLen w.f table i)) w) w) w
    if w.halt then w else unpinPages w (cantonPool w.f)
  | _, _, _ => w

def faultsCantonSelect (s : State) (f : Flight) : List Nat :=
  let q := (slotDesc f 0).getD {}
  let t := (slotDesc f 1).getD {}
  let l := (slotDesc f 3).getD {}
  let top := !(cantonCertified f)
  let always := cantonSink f + cantonLocal f
  let tauBad := match f32 (param f 48 4) with | .fin neg m _ => neg && m != 0 | _ => true
  let pool := poolOf s f.part (cantonPool f)
  on (16 ≤ param f 40 1) 0x0002 ++ unusedFaults f [(41, 41), (62, 63)] ++ slotFaults f [0, 1, 3] [] ++
  attnFmtFaults (slotDesc f 0) 0 ++ tableFaults (slotDesc f 1) ++ fp32Faults (slotDesc f 3) ++ fp32Faults (slotDesc f 4) ++
  on (match pool with | some p => pairKind (descFmt q) (poolFmt p) == none | none => false) 0x0006 ++
  on ((top && (cantonP f == 0 || 4096 < cantonP f || cantonP f < always)) || (!top && tauBad) ||
    sigmaBad (param f 52 4) || descExt l 0 < always + 1 || 4097 < descExt l 0 ||
    extTest (slotDesc f 3) [descExt l 0, ceilDiv (descExt q 1) 64, descExt q 2, descExt q 3, 1] ||
    extTest (slotDesc f 4) [1, descExt q 1, descExt q 2, descExt q 3, 1] || descExt q 4 != 1 ||
    descExt q 0 % 32 != 0 || descExt q 0 == 0 || 256 < descExt q 0 || descExt t 1 != descExt q 2 || descExt t 2 == 0 ||
    descExt q 3 % descExt t 2 != 0 || (match pool with | some p => p.head != descExt q 0 | none => false)) 0x0007 ++
  on (descTest (slotDesc f 0) fun d => d.lenEn && d.lenDim != 1) 0x000D ++
  qlenFaults (cantonQlen f) [slotDesc f 0, slotDesc f 4]

/-! The meanings. -/

def execAttnFwd (mi : Nat) (s : State) : Result := .next (whileRunning mi (runMi 0x04 [0, 1, 2, 5, 6, 7] true effectAttnFwd mi) s)
def execAttnBwd (mi : Nat) (s : State) : Result := .next (whileRunning mi (runMi 0x05 [0, 1, 2, 4, 6, 7] true effectAttnBwd mi) s)
def execCantonSelect (mi : Nat) (s : State) : Result := .next (whileRunning mi (runMi 0x1B [0] false effectCantonSelect mi) s)

end Sys2Proof.Machine
end

