-- ==== Sys2Proof/Machine/Queue.lean ====
section
/-!
DEFINITION. Command queues (05_macro_instructions.md R125 to R132): a queue's registers, its ring, the MIs in flight of a queue
and of a partition, and the check unit bound to an MI (14_integrity.md R389).
-/
namespace Sys2Proof.Machine

/-! Registers of queue `q` of a panel. -/

def qCfg (s : State) (p q : Nat) : Nat := rget s (panelReg .jigQcfg p q)
def qPtr (s : State) (p q : Nat) : Nat := rget s (panelReg .jigQptr p q)
def qEnabled (s : State) (p q : Nat) : Bool := bit (qCfg s p q) 0
def qPrio (s : State) (p q : Nat) : Nat := bits (qCfg s p q) 2 1
def qRing (s : State) (p q : Nat) : Nat := bits (qCfg s p q) 4 3
def qPart (s : State) (p q : Nat) : Nat := bits (qCfg s p q) 15 8
def qMask (s : State) (p q : Nat) : Nat := bits (qCfg s p q) 31 16
def qTail (s : State) (p q : Nat) : Nat := bits (qPtr s p q) 15 0
def qHead (s : State) (p q : Nat) : Nat := bits (qPtr s p q) 31 16
def qStopped (s : State) (p q : Nat) : Bool := bit (qPtr s p q) 32
/-- Partition address of the queue area (R126). -/
def qArea (s : State) (p q : Nat) : Nat := bits (rget s (panelReg .jigQbase p q)) 47 12 * 4096
/-- Slots of the ring. -/
def qSlots (s : State) (p q : Nat) : Nat := 2 ^ bits (rget s (panelReg .jigQbase p q)) 51 48
/-- The partition address of a slot. -/
def slotAddr (s : State) (p q i : Nat) : Nat := qArea s p q + 0x1000 + 64 * i
/-- COUNT_M1 and address of the descriptor table. -/
def qDescCount (s : State) (p q : Nat) : Nat := bits (rget s (panelReg .jigQdesc p q)) 63 48
def qDescAddr (s : State) (p q : Nat) : Nat := bits (rget s (panelReg .jigQdesc p q)) 47 6 * 64

def setStopped (s : State) (p q : Nat) (b : Bool) : State :=
  rsetField s (panelReg .jigQptr p q) 32 32 (if b then 1 else 0)

/-- Partition states (18_partitions.md R489). -/
def partState (s : State) (part : Nat) : Nat := pnum s .partitionState part

/-- The MIs of a queue in flight, oldest first; a salvage program's MIs are not its own (10_training.md R281). -/
def queueFlights (s : State) (p q : Nat) : List Flight :=
  s.jig.flights.filter fun f => f.panel == p && f.q == q && f.run.isNone

/-- Earlier MIs of an MI's queue that have not completed. -/
def earlier (s : State) (f : Flight) : List Flight := (queueFlights s f.panel f.q).filter fun g => g.mi < f.mi

/-! The check unit bound to an MI (14_integrity.md R389 to R394). -/

/-- The MIs in flight of a queue's ring, or of a salvage run on the queue. -/
def streamFlights (s : State) (p q : Nat) (run : Option Nat) : List Flight :=
  s.jig.flights.filter fun f => f.panel == p && f.q == q && f.run == run

/-- The CHECK that takes the MI which now issues as its next: the latest of its stream, issued and not yet bound. -/
def openCheck (s : State) (p q : Nat) (run : Option Nat) : Option Nat :=
  ((streamFlights s p q run).find? fun c => miOpcode c.word == 0x30 && !c.noEffect && c.phase != .executed &&
    (streamFlights s p q run).all fun g => g.mi ≤ c.mi && g.check != some c.mi).map (·.mi)

/-- The CHECK that an MI is bound to, while both are in flight. -/
def boundCheck (s : State) (f : Flight) : Option Flight := f.check.bind (findFlight s)

/-- CHK_CTLu.BOUND: a CHECK in flight, not denied, has bound the unit on a panel (R389, R391, R392). -/
def unitBound (s : State) (p u : Nat) : Bool :=
  s.jig.flights.any fun c => miOpcode c.word == 0x30 && !c.noEffect && bits (wordByte c.word 40) 1 0 == u &&
    ((panelsOf c).contains p || c.panel == p)

/-- Does a CHECK cover the source image (SIDE 0) of an MI? -/
def checksSource (s : State) (f : Flight) : Bool :=
  match boundCheck s f with
  | some c => !(bit (wordByte c.word 40) 6)
  | none => false

/-- The image of a tensor from its codes and block scales (R387): `sc` in the order of the block box. -/
def tensorImage (d : Desc) (codes sc : Array Nat) : List Nat :=
  if d.format == 0xF then codes.toList
  else
    let bb := blockBox d.blockAxis (wholeBox d)
    codesImage d codes ++
    (if descMx d then
      (boxCoords (dropAt d.blockAxis bb)).flatMap fun o =>
        (List.range ((bb.getD d.blockAxis (0, 0)).2)).map fun k => sc.getD (boxIndex bb (insertAt d.blockAxis k o)) 0
     else [])

end Sys2Proof.Machine
end

