-- ==== Sys2Proof/Machine/Window.lean ====
section
/-!
DEFINITION. Convolution, pooling, regions and detections (09_sliding_window.md R255 to R274).
-/
namespace Sys2Proof.Machine

/-! Grids (R255, R258). -/

/-- Output extent of R258; none where the numerator is negative. -/
def outExtent (i k s e lo hi : Nat) : Option Nat :=
  if i + lo + hi < e * (k - 1) + 1 then none else some ((i + lo + hi - e * (k - 1) - 1) / s + 1)

/-- A position of a grid: x, y, t, batch. -/
def gridPos (exts : List Nat) (m : Nat) : List Nat := rowCoord (exts.drop 1) m

/-- The home panel's first bench of those that take part. -/
def homeUnit (f : Flight) : Exec := { panel := f.panel, bench := (dealtBenches f f.panel).headD 0 }

/-! CONV. -/

/-- Byte `40 + i` of the MI word. -/
def pb (f : Flight) (i : Nat) : Nat := param f (40 + i) 1

/-- Stride, dilation, low and high padding of axis `a`. -/
def convAxis (f : Flight) (a : Nat) : Nat × Nat × Nat × Nat := (pb f a, pb f (3 + a), pb f (6 + 2 * a), pb f (7 + 2 * a))

def convGroups (f : Flight) : Nat := param f 54 2
def convPadMode (f : Flight) : Nat := bits (pb f 12) 1 0

/-- An input position along one axis: the place it resolves to, none for a padded position that takes no element (R259). -/
def padPlace (mode : Nat) (p : Int) (ext : Nat) : Option Nat :=
  if 0 ≤ p && p < ext then some p.toNat
  else
    match mode with
    | 2 => some (if p < 0 then (-p).toNat else (2 * ((ext : Int) - 1) - p).toNat)
    | 3 => some (if p < 0 then 0 else ext - 1)
    | _ => none

/-- The constant of PAD_MODE 1 as an operand: its element value and block scale (R259). -/
def padConst (d : Desc) (code : Nat) : Val × Val :=
  let f := descFmt d
  let v := timesScale d (f32 code)
  if descMx d then
    let (sc, kind) := mxScale f true [{ v := v }]
    if kind == 1 || kind == 2 then (Val.zero, .nan)
    else (decodeElem f true (convertTo f true .rne true 0 (v.scale2 (127 - (sc : Int))) 1).code, e8m0 sc)
  else (decodeElem f false (convertTo f false .rne true 0 v 1).code, Val.one)

/-- The operand element of X for a channel at an input position (x, y, t, batch). -/
def convInput (f : Flight) (dx : Desc) (t : Tile) (c : Nat) (px py pt : Int) (b : Nat) : Val × Val :=
  let mode := convPadMode f
  match padPlace mode px (descExt dx 1), padPlace mode py (descExt dx 2), padPlace mode pt (descExt dx 3) with
  | some x, some y, some z => elemParts t [c, x, y, z, b]
  | _, _, _ => if mode == 1 then padConst dx (param f 56 4) else (Val.zero, Val.one)

/-- The block values of one output of CONV (R260): taps t, y, x, and within a tap the channels in blocks of 32. -/
def convBlocks (f : Flight) (dx dw : Desc) (tx tw : Tile) (g oc : Nat) (pos : List Nat) : List Acc :=
  let cg := descExt dw 0
  let kx := descExt dw 1
  let ky := descExt dw 2
  let kt := descExt dw 3
  let place (a o i : Nat) : Int := let (s, e, lo, _) := convAxis f a; (o * s : Nat) - (lo : Int) + (e * i : Nat)
  let kind := (pairKind tx.f tw.f).getD .narrow
  (List.range kt).flatMap fun it => (List.range ky).flatMap fun iy => (List.range kx).flatMap fun ix =>
    (List.range (ceilDiv cg 32)).map fun j =>
      let ps := (List.range (min 32 (cg - 32 * j))).map fun i =>
        let c := 32 * j + i
        (convInput f dx tx (g * cg + c) (place 0 (pos.getD 0 0) ix) (place 1 (pos.getD 1 0) iy) (place 2 (pos.getD 2 0) it)
          (pos.getD 3 0), elemParts tw [c, ix, iy, it, oc])
      match kind with
      | .narrow => scaledBlock (ps.map fun p => (p.1.1.mul p.1.2, p.2.1.mul p.2.2))
      | _ => wideBlock (ps.map fun p => (p.1.1, p.2.1))

/-- The contraction extent of CONV, its taps padded to whole blocks (R260). -/
def convExtent (dw : Desc) : Nat := descExt dw 1 * descExt dw 2 * descExt dw 3 * 32 * ceilDiv (descExt dw 0) 32

/-- The result of an output of CONV before its destination's scale (R262): the root times both scales, plus the bias, exact. -/
def convResult (tx tw : Tile) (bias : Option Tile) (oc : Nat) (own : List Acc) : Acc :=
  let a := scaleRoot tx tw (carryRoot own)
  match bias with
  | some b =>
    let v := elemVal b [oc, 0, 0, 0, 0]
    { a with v := a.v.add v, nanIn := a.nanIn || v.isNan }
  | none => { a with v := a.v.add Val.zero }

/-- One drawer tile of CONV; `og` is the output channels of a group. -/
def runConvTile (dx dw dy : Desc) (og : Nat) (g : Gather) (t : OutTile) (u : Exec) : Gather :=
  let cg := descExt dw 0
  let oc (j : Nat) : Nat := t.prob * og + t.n0 + j
  let boxX := (t.prob * cg, cg) :: (dx.extents.drop 1).map fun e => (0, e)
  let boxW := ((dw.extents.take 4).map fun e => (0, e)) ++ [(oc 0, t.ns)]
  let (w, tx) := loadBox g.w 0 dx u boxX
  let (w, tw) := loadBox w 1 dw u boxW
  let (w, bias) : Work × Option Tile := match slotDesc w.f 2 with
    | some db => (let (w, t) := loadBox w 2 db u [(oc 0, t.ns), (0, 1), (0, 1), (0, 1), (0, 1)]; (w, some t))
    | none => (w, none)
  let outs := (List.range t.ms).flatMap fun i => (List.range t.ns).map fun j =>
    (i, j, convBlocks w.f dx dw tx tw t.prob (oc j) (gridPos dy.extents (t.m0 + i)))
  let w := { w with s := storeCarry w.s w.f.word (carryLevels (convExtent dw / 32)) t u (outs.map fun o =>
    (t.m0 + o.1, t.n0 + o.2.1, carryTrace (o.2.2.zipIdx.map fun e => { level := 0, first := e.2, acc := e.1 }))) }
  outs.foldl (fun g o =>
    putRow g dy u (oc o.2.1) (gridPos dy.extents (t.m0 + o.1)) [convResult tx tw bias (oc o.2.1) o.2.2]) { g with w := w }

def effectConv (w : Work) : Work :=
  match slotDesc w.f 0, slotDesc w.f 1, slotDesc w.f 3 with
  | some dx, some dw, some dy =>
    let groups := max 1 (convGroups w.f)
    let og := descExt dw 4 / groups
    let k := convExtent dw
    let deal := dealTiles w.f (planTiles w.f.word groups (rowCount dy) og)
    let w := storeGather (overTiles (fun _ => (kSteps k, 0)) (runConvTile dx dw dy og) deal (gather w dy)) dy
    { w with s := countDeliveries w.s w.f dx dw k deal }
  | _, _, _ => w

def faultsConv (s : State) (f : Flight) : List Nat :=
  let x := (slotDesc f 0).getD {}
  let k := (slotDesc f 1).getD {}
  let y := (slotDesc f 3).getD {}
  let groups := convGroups f
  let mode := convPadMode f
  let constCode := param f 56 4
  let axisBad (a : Nat) : Bool :=
    let (st, e, lo, hi) := convAxis f a
    let i := descExt x (1 + a)
    st == 0 || 16 < st || e == 0 || 16 < e || descExt k (1 + a) == 0 || 31 < descExt k (1 + a) ||
    outExtent i (descExt k (1 + a)) st e lo hi != some (descExt y (1 + a)) ||
    (mode == 2 && (i ≤ lo || i ≤ hi))
  let cin := descExt x 0
  let cout := descExt k 4
  let kk := convExtent k
  let mxBad (d : Desc) : Bool := descMx d && d.blockAxis != 0
  unusedFaults f [(53, 53), (60, 63)] ++ on (4 ≤ pb f 12) 0x0002 ++ slotFaults f [0, 1, 3] [4] ++
  on (descTest (slotDesc f 2) (fun d => d.format != 0) || mxBad x || mxBad k) 0x0004 ++ pairFaults f 0 1 ++
  on ([0, 1, 2].any axisBad || groups == 0 || cin % max 1 groups != 0 || cout % max 1 groups != 0 ||
    descExt k 0 != cin / max 1 groups || !((f32 constCode).isFin) || (mode != 1 && constCode != 0) ||
    descExt y 0 != cout || descExt y 4 != descExt x 4 ||
    descTest (slotDesc f 2) (fun d => d.extents != [cout, 1, 1, 1, 1]) ||
    (slotDesc f 0).isSome && (slotDesc f 1).isSome && (slotDesc f 3).isSome &&
      tiledFootBad s f (slotDesc f 0) (slotDesc f 1) (slotDesc f 3) (rowCount y) (cout / max 1 groups) kk (kk / 32)) 0x0007

/-! POOL (R263 to R265). -/

/-- The in-bound input positions of one axis for output `o`: ordinary windows, and adaptive ones. -/
def poolSpan (f : Flight) (a o i out : Nat) : List Nat :=
  if 2 ≤ pb f 0 then
    (List.range (ceilDiv ((o + 1) * i) out)).drop (o * i / out)
  else
    let k := pb f (1 + a)
    let st := pb f (4 + a)
    let lo := pb f (7 + 2 * a)
    (List.range k).filterMap fun t => if lo ≤ o * st + t && o * st + t - lo < i then some (o * st + t - lo) else none

def poolElem (f : Flight) (dx dy : Desc) (t : Tile) (c : Nat) (pos : List Nat) : Acc :=
  let span (a : Nat) : List Nat := poolSpan f a (pos.getD a 0) (descExt dx (1 + a)) (descExt dy (1 + a))
  let xs := (span 2).flatMap fun z => (span 1).flatMap fun y => (span 0).map fun x =>
    vecVal (miMode f.word) (miSat f.word) t [c, x, y, z, pos.getD 3 0]
  if pb f 0 % 2 == 0 then rowReduce 0x02 xs
  else
    let n := if pb f 0 < 2 && bit (pb f 13) 0 then pb f 1 * pb f 2 * pb f 3 else xs.length
    overCount (rowReduce 0x00 xs) n

def effectPool (w : Work) : Work :=
  match slotDesc w.f 0, slotDesc w.f 3 with
  | some dx, some dy =>
    let deal := dealTiles w.f (planTiles w.f.word 1 (rowCount dy) (descExt dy 0))
    storeGather (overTiles (fun _ => (1, 0)) (fun g t u =>
      let (w, tx) := loadBox g.w 0 dx u ((t.n0, t.ns) :: (dx.extents.drop 1).map fun e => (0, e))
      (List.range t.ms).foldl (fun g i =>
        let pos := gridPos dy.extents (t.m0 + i)
        putRow g dy u t.n0 pos ((List.range t.ns).map fun j => poolElem g.w.f dx dy tx (t.n0 + j) pos)) { g with w := w })
      deal (gather w dy)) dy
  | _, _ => w

def faultsPool (s : State) (f : Flight) : List Nat :=
  let x := (slotDesc f 0).getD {}
  let y := (slotDesc f 3).getD {}
  let op := pb f 0
  let adaptive := 2 ≤ op
  let axisBad (a : Nat) : Bool :=
    let k := pb f (1 + a)
    let st := pb f (4 + a)
    let lo := pb f (7 + 2 * a)
    let hi := pb f (8 + 2 * a)
    if adaptive then descExt x (1 + a) < descExt y (1 + a)
    else k == 0 || 31 < k || st == 0 || 16 < st || k ≤ lo || k ≤ hi ||
      outExtent (descExt x (1 + a)) k st 1 lo hi != some (descExt y (1 + a))
  on (3 < op) 0x0001 ++ unusedFaults f ((54, 63) :: if adaptive then [(41, 52)] else []) ++ on (2 ≤ pb f 13) 0x0002 ++
  slotFaults f [0, 3] [] ++
  on ([0, 1, 2].any axisBad || descExt x 0 != descExt y 0 || descExt x 4 != descExt y 4 ||
    flatFootBad s f (rowCount y) (descExt y 0)) 0x0007

/-! CROP_RESIZE (R266 to R269). -/

/-- A floor that lies outside every image for a value that is not finite. -/
def floorOr (v : Val) : Int :=
  match v with
  | .fin _ _ _ => v.floorInt
  | .inf false => 2 ^ 30
  | _ => -(2 ^ 30)

/-- Sample coordinate of R267 along one axis, with the history of its steps (04_rounding_census_ledger.md R612). -/
def sampleAt (f : Flight) (a0 a1 : Val) (n j : Nat) : Acc :=
  let d := step32 {} (a1.sub a0)
  let step := sfuAcc d (sfuDiv false d.v (Val.ofNat n) (miMode f.word) (miSat f.word))
  let off := step32 step ((Val.fin false (2 * j + 1) (-1)).mul step.v)
  let at' := step32 off (a0.add off.v)
  step32 at' (at'.v.sub (.fin false 1 (-1)))

/-- v(ix, iy) with EDGE. -/
def sampleElem (f : Flight) (dx : Desc) (t : Tile) (c img : Nat) (ix iy : Int) : Acc :=
  let inside (p : Int) (e : Nat) : Bool := decide (0 ≤ p) && decide (p < (e : Int))
  let clampTo (p : Int) (e : Nat) : Nat := if p < 0 then 0 else min p.toNat (e - 1)
  let wd := descExt dx 1
  let ht := descExt dx 2
  if (inside ix wd && inside iy ht) || pb f 1 == 1 then
    vecVal (miMode f.word) (miSat f.word) t [c, clampTo ix wd, clampTo iy ht, img, 0]
  else paramAcc (param f 44 4)

def cropElem (f : Flight) (dx : Desc) (t : Tile) (img : Nat) (box : List Val) (ow oh c jx jy : Nat) : Acc :=
  let u := sampleAt f (box.getD 1 .nan) (box.getD 3 .nan) ow jx
  let v := sampleAt f (box.getD 2 .nan) (box.getD 4 .nan) oh jy
  let half : Val := .fin false 1 (-1)
  if pb f 0 == 1 then sampleElem f dx t c img (floorOr (rne32 (u.v.add half))) (floorOr (rne32 (v.v.add half)))
  else
    let ix := floorOr u.v
    let iy := floorOr v.v
    let ax := step32 u (u.v.sub (Val.ofInt ix))
    let ay := step32 v (v.v.sub (Val.ofInt iy))
    let blend (p q a : Acc) : Acc :=
      let d := step32 ((p.join q p.v).join a p.v) (q.v.sub p.v)
      let m := step32 d (a.v.mul d.v)
      step32 m (p.v.add m.v)
    let top := blend (sampleElem f dx t c img ix iy) (sampleElem f dx t c img (ix + 1) iy) ax
    let bot := blend (sampleElem f dx t c img ix (iy + 1)) (sampleElem f dx t c img (ix + 1) (iy + 1)) ax
    blend top bot ay

/-- A box row read as FP32 values, and its image if the box is good (R268). -/
def cropBox (images : Nat) (box : List Val) : Option Nat :=
  match box with
  | v :: rest =>
    if rest.all Val.isFin && v.isFin && !(Val.lt (Val.ofInt v.floorInt) v) then
      let i := v.floorInt
      if 0 ≤ i && i < images then some i.toNat else none
    else none
  | [] => none

/-- Note a bad box: the condition keeps the index of the first (R268). -/
def noteBadBox (w : Work) (b : Nat) : Work :=
  match w.f.conds.find? (·.detail == 0x0301) with
  | some c => { w with f := { w.f with conds := w.f.conds.map fun x => if x.detail == 0x0301 then { x with aux := min c.aux b } else x } }
  | none => noteCond w { status := 0, detail := 0x0301, aux := b }

/-- One drawer tile of CROP_RESIZE: output positions of one box. -/
def runCropTile (dx db dy : Desc) (g : Gather) (t : OutTile) (u : Exec) : Gather :=
  let ow := descExt dy 1
  let oh := descExt dy 2
  let (w, tb) := loadBox g.w 1 db u [(0, 5), (t.prob, 1), (0, 1), (0, 1), (0, 1)]
  let box := (List.range 5).map fun i => elemVal tb [i, t.prob, 0, 0, 0]
  let put (w : Work) (elem : Nat → Nat → Nat → Acc) : Gather :=
    (List.range t.ms).foldl (fun g i =>
      let jx := (t.m0 + i) % ow
      let jy := (t.m0 + i) / ow
      putRow g dy u t.n0 [jx, jy, t.prob, 0] ((List.range t.ns).map fun c => elem (t.n0 + c) jx jy)) { g with w := w }
  match cropBox (descExt dx 3) box with
  | none => put (noteBadBox w t.prob) fun _ _ _ => { mute := true }
  | some img =>
    let (w, tx) := loadBox w 0 dx u [(t.n0, t.ns), (0, descExt dx 1), (0, descExt dx 2), (img, 1), (0, 1)]
    let w := { w with s := countSfu w.s u (2 * t.ms) }
    put w fun c jx jy => cropElem w.f dx tx img box ow oh c jx jy

def effectCropResize (w : Work) : Work :=
  match slotDesc w.f 0, slotDesc w.f 1, slotDesc w.f 3 with
  | some dx, some db, some dy =>
    let deal := dealTiles w.f (planTiles w.f.word (descExt dy 3) (descExt dy 1 * descExt dy 2) (descExt dy 0))
    storeGather (overTiles (fun _ => (1, 0)) (runCropTile dx db dy) deal (gather w dy)) dy
  | _, _, _ => w

def faultsCropResize (s : State) (f : Flight) : List Nat :=
  let x := (slotDesc f 0).getD {}
  let b := (slotDesc f 1).getD {}
  let y := (slotDesc f 3).getD {}
  on (1 < pb f 0 || 1 < pb f 1) 0x0001 ++ unusedFaults f [(42, 43), (48, 63)] ++ slotFaults f [0, 1, 3] [] ++
  fp32Faults (slotDesc f 1) ++
  on (descExt b 0 != 5 || descExt b 1 != descExt y 3 || (b.extents.drop 2).any (· != 1) || descExt y 0 != descExt x 0 ||
    descExt y 4 != 1 || descExt x 4 != 1 || flatFootBad s f (descExt y 1 * descExt y 2) (descExt y 0)) 0x0007

/-! BOX_DECODE (R270, R271). -/

/-- The MI word with tiles of 128 rows (R274). -/
def boxWord (word : List Nat) : List Nat := word.set 2 (setBits (word.getD 2 0) 2 0 1)

/-- The steps of R271: values rounded RNE to FP32. -/
def boxCorners (f : Flight) (ds as' : List Val) : List Val :=
  let d (i : Nat) : Val := ds.getD i .nan
  let a (i : Nat) : Val := as'.getD i .nan
  let half (v : Val) : Val := v.mul (.fin false 1 (-1))
  let vxy := f32 (param f 44 4)
  let vwh := f32 (param f 48 4)
  let cl := f32 (param f 52 4)
  let (cx, cy, w, h) : Val × Val × Val × Val :=
    if pb f 0 == 1 then (a 0, a 1, a 2, a 3)
    else
      let w := rne32 ((a 2).sub (a 0))
      let h := rne32 ((a 3).sub (a 1))
      (rne32 ((a 0).add (rne32 (half w))), rne32 ((a 1).add (rne32 (half h))), w, h)
  let centre (c t w : Val) : Val := rne32 (c.add (rne32 ((rne32 (t.mul vxy)).mul w)))
  let size (t w : Val) : Val := rne32 (w.mul (natAcc f 0x0D {} (Val.min (rne32 (t.mul vwh)) cl)).v)
  let cx' := centre cx (d 0) w
  let cy' := centre cy (d 1) h
  let hw := rne32 (half (size (d 2) w))
  let hh := rne32 (half (size (d 3) h))
  let clip (lim v : Val) : Val := if Val.lt Val.zero lim then Val.min (Val.max v Val.zero) lim else v
  let cw := f32 (param f 56 4)
  let ch := f32 (param f 60 4)
  [clip cw (rne32 (cx'.sub hw)), clip ch (rne32 (cy'.sub hh)), clip cw (rne32 (cx'.add hw)), clip ch (rne32 (cy'.add hh))]

def effectBoxDecode (w : Work) : Work :=
  match slotDesc w.f 0, slotDesc w.f 1, slotDesc w.f 3 with
  | some dd, some da, some dy =>
    let deal := dealTiles w.f (planTiles (boxWord w.f.word) 1 (rowCount dd) 4)
    storeGather (overTiles (fun _ => (1, 0)) (fun g t u =>
      (tileRows dd t).foldl (fun g c =>
        let one := c.map fun i => (i, 1)
        let (w, td) := loadBox g.w 0 dd u ((0, 4) :: one)
        let (w, ta) := loadBox w 1 da u [(0, 4), (c.getD 0 0, 1), (0, 1), (0, 1), (0, 1)]
        let ds := (List.range 4).map fun i => (vecVal (miMode w.f.word) (miSat w.f.word) td (i :: c)).v
        let as' := (List.range 4).map fun i => elemVal ta [i, c.getD 0 0, 0, 0, 0]
        putRow { g with w := { w with s := countSfu w.s u 2 } } dy u 0 c
          ((boxCorners w.f ds as').map fun v => { v := v, mute := true })) g) deal (gather w dy)) dy
  | _, _, _ => w

def faultsBoxDecode (s : State) (f : Flight) : List Nat :=
  let d := (slotDesc f 0).getD {}
  let a := (slotDesc f 1).getD {}
  on (1 < pb f 0) 0x0001 ++ unusedFaults f [(41, 43)] ++ slotFaults f [0, 1, 3] [] ++
  on (descTest (slotDesc f 0) fun d => 2 < d.format) 0x0004 ++ fp32Faults (slotDesc f 1) ++ fp32Faults (slotDesc f 3) ++
  on (descExt d 0 != 4 || descExt a 0 != 4 || descExt a 1 != descExt d 1 || (a.extents.drop 2).any (· != 1) ||
    (d.extents.drop 3).any (· != 1) || extTest (slotDesc f 3) d.extents ||
    flatFootBad s { f with word := boxWord f.word } (rowCount d) 4) 0x0007

/-! NMS (R272, R273). -/

/-- iou() of R273. -/
def boxIou (f : Flight) (a b : List Val) : Val :=
  let g (x : List Val) (i : Nat) : Val := x.getD i .nan
  let lo (x : List Val) (i : Nat) : Val := Val.min (g x i) (g x (i + 2))
  let hi (x : List Val) (i : Nat) : Val := Val.max (g x i) (g x (i + 2))
  let side (h l : Val) : Val := rne32 (h.sub l)
  let area (x : List Val) : Val := rne32 ((side (hi x 0) (lo x 0)).mul (side (hi x 1) (lo x 1)))
  let shared (i : Nat) : Val := Val.max Val.zero (side (Val.min (hi a i) (hi b i)) (Val.max (lo a i) (lo b i)))
  let inter := rne32 ((shared 0).mul (shared 1))
  let union := rne32 (((area a).add (area b)).sub inter)
  if union.isZero then Val.zero else (sfuDiv false inter union (miMode f.word) (miSat f.word)).v

/-- RNE of a quotient by a positive value (R273). -/
def quot32 (a b : Val) : Val :=
  match a, b with
  | .fin n m e, .fin k d c => rne32q (.fin (n != k) m (e - c)) d
  | .inf n, .fin _ _ _ => .inf n
  | .fin n _ _, .inf _ => .fin n 0 0
  | _, _ => .nan

/-- A candidate: index, box, score. -/
structure NmsBox where
  index : Nat
  box : List Val
  score : Val
deriving DecidableEq, Repr, Inhabited

/-- The member of highest score, the lowest index on ties. -/
def bestBox (c : NmsBox) (cs : List NmsBox) : NmsBox := cs.foldl (fun b x => if Val.lt b.score x.score then x else b) c

/-- The `n` members of highest score, in index order. -/
def topBoxes : Nat → List NmsBox → List NmsBox
  | 0, _ => []
  | n + 1, l =>
    match l with
    | [] => []
    | c :: cs =>
      let b := bestBox c cs
      b :: topBoxes n (l.filter (·.index != b.index))

/-- nms_batch: the kept boxes with their final scores, in keep order. -/
def nmsBatch (f : Flight) : Nat → List NmsBox → List NmsBox
  | 0, _ => []
  | fuel + 1, cand =>
    match cand with
    | [] => []
    | c :: cs =>
      let b := bestBox c cs
      let min' := f32 (param f 48 4)
      let rest := (cand.filter (·.index != b.index)).filterMap fun j =>
        let v := boxIou f b.box j.box
        let above := Val.lt (f32 (param f 44 4)) v
        let score := match pb f 0 with
          | 1 => if above then rne32 (j.score.mul (rne32 (Val.one.sub v))) else j.score
          | 2 => rne32 (j.score.mul (natAcc f 0x0D {} (quot32 (rne32 (v.mul v)).neg (f32 (param f 52 4)))).v)
          | _ => j.score
        if (pb f 0 == 0 && above) || Val.lt score min' then none else some { j with score := score }
      b :: nmsBatch f fuel rest

/-- The address of a queue's bound-table entry (05_macro_instructions.md R126). -/
def boundAddr (s : State) (panel q i : Nat) : Nat := bits (rget s (panelReg .jigQbase panel q)) 47 12 * 4096 + 4 * i

def effectNms (w : Work) : Work :=
  match slotDesc w.f 0, slotDesc w.f 1, slotDesc w.f 3 with
  | some db, some ds, some dk =>
    let n := descExt db 1
    let maxKeep := param w.f 42 2
    let deal := dealTiles w.f (planTiles w.f.word (descExt db 2) 1 1)
    (overTiles (fun _ => (1, 0)) (fun g t u =>
      let b := t.prob
      let (w, tb) := loadBox g.w 0 db u [(0, 4), (0, n), (b, 1), (0, 1), (0, 1)]
      let (w, ts) := loadBox w 1 ds u [(0, n), (b, 1), (0, 1), (0, 1), (0, 1)]
      let all := (List.range n).map fun i =>
        ({ index := i, box := (List.range 4).map fun e => elemVal tb [e, i, b, 0, 0], score := elemVal ts [i, b, 0, 0, 0] } : NmsBox)
      let cand := all.filter fun c => Val.le (f32 (param w.f 48 4)) c.score
      let cand := if 16384 < cand.length then
          (let top := topBoxes 16384 cand; cand.filter fun c => top.any (·.index == c.index)) else cand
      let kept := nmsBatch w.f maxKeep cand
      let k := kept.length
      let words := k :: kept.map (·.index) ++ List.replicate (maxKeep - k) 0
      let w := putWords w dk u [0, b, 0, 0, 0] words
      let w := match slotDesc w.f 4 with
        | some d4 => storeSecondary w d4 u [(0, k + 1), (b, 1), (0, 1), (0, 1), (0, 1)]
            ((some Val.zero :: kept.map fun c => some c.score)).toArray
        | none => w
      let w := if bit (pb w.f 1) 7 then
          memPut w w.f.panel (boundAddr w.s w.f.panel w.f.q (bits (pb w.f 1) 5 0 + b)) (leBytes 4 k)
        else w
      { g with w := { w with s := countSfu w.s u (cand.length - 1) } }) deal { w := w }).w
  | _, _, _ => w

def faultsNms (s : State) (f : Flight) : List Nat :=
  let b := (slotDesc f 0).getD {}
  let sc := (slotDesc f 1).getD {}
  let method := pb f 0
  let keep := param f 42 2
  let sigma := param f 52 4
  on (2 < method) 0x0001 ++ on (bit (pb f 1) 6) 0x0002 ++ unusedFaults f [(56, 63)] ++ slotFaults f [0, 1, 3] [] ++
  fp32Faults (slotDesc f 0) ++ fp32Faults (slotDesc f 1) ++ fp32Faults (slotDesc f 3) ++ fp32Faults (slotDesc f 4) ++
  on (keep == 0 || 16384 < keep || (if method == 2 then !(Val.lt Val.zero (f32 sigma)) else sigma != 0) ||
    descExt b 0 != 4 || (b.extents.drop 3).any (· != 1) || descExt sc 0 != descExt b 1 || descExt sc 1 != descExt b 2 ||
    (sc.extents.drop 2).any (· != 1) || extTest (slotDesc f 3) [keep + 1, descExt b 2, 1, 1, 1] ||
    extTest (slotDesc f 4) [keep + 1, descExt b 2, 1, 1, 1] || flatFootBad s f 1 1) 0x0007 ++
  on (bit (pb f 1) 7 && 64 < bits (pb f 1) 5 0 + descExt b 2) 0x0008

/-! The meanings. -/

def execConv (mi : Nat) (s : State) : Result := .next (whileRunning mi (runMi 0x03 [0, 1, 2] true effectConv mi) s)
def execPool (mi : Nat) (s : State) : Result := .next (whileRunning mi (runMi 0x38 [0] true effectPool mi) s)
def execCropResize (mi : Nat) (s : State) : Result := .next (whileRunning mi (runMi 0x39 [0, 1] true effectCropResize mi) s)
def execBoxDecode (mi : Nat) (s : State) : Result := .next (whileRunning mi (runMi 0x3A [0, 1] true effectBoxDecode mi) s)
def execNms (mi : Nat) (s : State) : Result := .next (whileRunning mi (runMi 0x3B [0, 1] true effectNms mi) s)

end Sys2Proof.Machine
end

