-- ==== Sys2Proof/Machine/Mover.lean ====
section
/-!
DEFINITION. The movers: MOVE (11_drawers_tiers.md R317 to R319), MCAST (06_jig.md R185 to R192), FLUSH and PREFETCH
(11_drawers_tiers.md R315, R316).
-/
namespace Sys2Proof.Machine

/-! A source read tile by tile. -/

/-- A whole tensor as read: its tile over the whole box, and the unit that moves each element. -/
structure WholeRead where
  w : Work
  tile : Tile
  units : Array Exec
deriving Inhabited

/-- Put the codes and scales of a part into the whole. -/
def mergePart (a : Desc) (t part : Tile) : Tile :=
  let bb := blockBox a.blockAxis t.box
  let pb := blockBox a.blockAxis part.box
  { t with
    codes := ((boxCoords part.box).zipIdx).foldl (fun arr c =>
      arr.set! (boxIndex t.box c.1) (part.codes.getD c.2 0)) t.codes
    sc := if part.mx then ((boxCoords pb).zipIdx).foldl (fun arr c =>
      arr.set! (boxIndex bb c.1) (part.sc.getD c.2 0)) t.sc else t.sc }

/-- Read the tensor of a slot, each row of each tile by its unit. -/
def readDealt (w : Work) (slot : Nat) (a : Desc) (deal : List (OutTile × Exec)) : WholeRead :=
  let box := wholeBox a
  let n := descCount a
  let scn := (blockBox a.blockAxis box).foldl (fun k p => k * p.2) 1
  let start : Tile := { f := descFmt a, mx := descMx a, axis := a.blockAxis, box := box
                        r := if descTensor a then some (recipScale a.tscale) else none
                        bad := descTensor a && badScale a.tscale
                        codes := Array.replicate n 0, sc := Array.replicate scn 0 }
  deal.foldl (fun (r : WholeRead) (t, u) =>
    (tileRows a t).foldl (fun (r : WholeRead) c =>
      let part := (t.n0, t.ns) :: c.map fun i => (i, 1)
      let (w, x) := loadBox r.w slot a u part
      { w := w, tile := mergePart a r.tile x
        units := (List.range t.ns).foldl (fun us i => us.set! (linIndex a.extents ((t.n0 + i) :: c)) u) r.units }) r)
    { w := w, tile := start, units := Array.replicate n default }

/-- The bytes of a spill tensor, each tile's part read by its unit. -/
def readParts (w : Work) (slot : Nat) (a : Desc) (deal : List (OutTile × Exec)) : Work × List Nat :=
  deal.foldl (fun (p : Work × List Nat) t =>
    let (w, bs) := operandGet p.1 slot a t.2 (64 * t.1.n0) (64 * t.1.n0) (64 * t.1.ns)
    (w, p.2 ++ bs)) (w, [])

/-- Keep the image as read for a check unit that covers the source (14_integrity.md R390). -/
def keepImage (w : Work) (bytes : List Nat) : Work :=
  if checksSource w.s w.f then { w with f := { w.f with bytes := bytes } } else w

/-- The image of a tensor as its units read it. -/
def dealtImage (w : Work) (slot : Nat) (a : Desc) (deal : List (OutTile × Exec)) : Work × List Nat :=
  if a.format == 0xF then readParts w slot a deal
  else
    let r := readDealt w slot a deal
    (r.w, tensorImage a r.tile.codes r.tile.sc)

/-! MOVE. -/

/-- Does a MOVE run on the home panel's bench BENCH (R319)? -/
def moveOnBench (f : Flight) : Bool :=
  descTest (slotDesc f 0) (·.tier == 0) || descTest (slotDesc f 3) (·.tier == 0)

def moveBench (f : Flight) : Exec := { panel := f.panel, bench := param f 40 1 }

/-- BENCH names a bench that the partition does not own (R319). -/
def moveDenied (s : State) (f : Flight) : Bool := moveOnBench f && !(ownsBench s f.part f.panel (param f 40 1))

/-- Does a MOVE copy bits (R317)? A different block axis lays the scales out otherwise, and converts (log entry 33). -/
def moveCopies (a d : Desc) : Bool :=
  a.format == d.format && a.scaling == d.scaling && (!(descMx a) || a.blockAxis == d.blockAxis)

/-- The tiles of a MOVE with the units that move them (R318, R319). -/
def moveDeal (f : Flight) (d : Desc) : List (OutTile × Exec) :=
  if moveOnBench f then (planTiles f.word 1 (rowCount d) (descExt d 0)).flatten.map fun t => (t, { moveBench f with tile := t.no })
  else elementDeal f d

/-- Copy spill tiles byte for byte (R317). -/
def moveSpill (deal : List (OutTile × Exec)) (a d : Desc) (w : Work) : Work :=
  (overTiles (fun _ => (1, 0)) (fun g t u =>
    let (w, bs) := operandGet g.w 0 a u (64 * t.n0) (64 * t.n0) (64 * t.ns)
    { g with w := outPut (keepImage w (w.f.bytes ++ bs)) d u (64 * t.n0) (64 * t.n0) bs }) deal { w := w }).w

/-- What a converted element takes its value from. -/
def elementAcc (t : Tile) (c : List Nat) : Acc :=
  let v := elemVal t c
  { v := v, nanIn := v.isNan && !t.bad }

/-- Read the source of a MOVE tile by tile: an element's code stands for it in the gathering. -/
def moveRead (deal : List (OutTile × Exec)) (a : Desc) (w : Work) : Gather :=
  overTiles (fun _ => (1, 0)) (fun g t u =>
    (tileRows a t).foldl (fun g c =>
      let (w, codes) := readCodes g.w 0 a u ((t.n0, t.ns) :: c.map fun i => (i, 1))
      putRow { g with w := w } a u t.n0 c (codes.toList.map fun k => { v := Val.ofNat k })) g) deal (gather w a)

/-- Copy or convert what was read (R317). -/
def moveElements (deal : List (OutTile × Exec)) (a d : Desc) (w : Work) : Work :=
  let g := moveRead deal a w
  let (w, sc) : Work × Array Nat :=
    if descMx a then readScales g.w a ((deal.head?.map (·.2)).getD default) (wholeBox a) else (g.w, #[])
  let codes := g.vals.map fun v => v.map fun x => x.v.floorInt.toNat
  let tile : Tile :=
    { f := descFmt a, mx := descMx a, axis := a.blockAxis, box := wholeBox a, codes := codes.map (·.getD 0), sc := sc
      r := if descTensor a then some (recipScale a.tscale) else none, bad := descTensor a && badScale a.tscale }
  let w := keepImage w (tensorImage a tile.codes sc)
  if moveCopies a d then
    storeConv w d { codes := codes, cens := #[], scales := sc.map some }
      ((List.range g.vals.size).filter fun i => (g.vals.getD i none).isSome) g.vals g.units
  else
    storeAll w d (miMode w.f.word) (miSat w.f.word) true
      (((boxCoords (wholeBox d)).zipIdx).map fun c => (g.vals.getD c.2 none).map fun _ => elementAcc tile c.1).toArray g.units

/-- The effect of MOVE. One that runs on bench BENCH alone has no auditor (R319); what the tiles written before a park read is read
again for a check unit; and the writes that the channels held have drained when it ends (12_hbm_lpddr.md R345). -/
def effectMove (w : Work) : Work :=
  match slotDesc w.f 0, slotDesc w.f 3 with
  | some a, some d =>
    let deal := moveDeal w.f d
    let audit := w.f.audit
    let start := { w with f := { w.f with bytes := [], audit := if moveOnBench w.f then 0 else audit } }
    let w := if a.format == 0xF then moveSpill deal a d start else moveElements deal a d start
    let w := if checksSource w.s w.f && !w.f.written.isEmpty then (let (w, bs) := dealtImage w 0 a deal; keepImage w bs) else w
    { w with s := drainAll w.s, f := { w.f with audit := audit } }
  | _, _ => w

/-- Is the footprint of a MOVE too large (06_jig.md R176)? Under R319 only bench BENCH counts. -/
def moveFootBad (s : State) (f : Flight) : Bool :=
  if moveOnBench f then
    ownsBench s f.part f.panel (param f 40 1) &&
    descTest (slotDesc f 3) fun d =>
      workArea s f.panel (param f 40 1) <
        footprint f.word (slotDesc f 0) none (some d) (openTiles f.word (rowCount d) (descExt d 0) 1 1 1) 1
  else descTest (slotDesc f 3) fun d => tiledFootBad s f (slotDesc f 0) none (some d) (rowCount d) (descExt d 0) 1 1

/-- What makes a MOVE malformed (R317). -/
def faultsMove (s : State) (f : Flight) : List Nat :=
  let spill (n : Nat) : Bool := descTest (slotDesc f n) fun d => d.format == 0xF
  on (31 < param f 40 1) 0x0002 ++ unusedFaults f [(41, 63)] ++ slotFaults f [0, 3] [1, 2, 4] ++
  on (spill 0 != spill 3) 0x0004 ++
  on (!(sameExtents (slotDesc f 0) (slotDesc f 3) 0) ||
    [0, 3].any (fun n => spill n && descTest (slotDesc f n) fun d => d.ndim != 1) || moveFootBad s f) 0x0007

/-- The step of MOVE: a BENCH that is not the partition's ends it before any access. AUX is the address of the drawer that BENCH stands
for: DESIGN CHOICE, log entry 116. -/
def moveStep (mi : Nat) (s : State) : State :=
  match findFlight s mi with
  | some f =>
    if f.phase == .issued && miOpcode f.word == 0x10 && moveDenied s f then
      finishWork (noteCond { s := s, f := { f with noEffect := true } }
        { status := 2, detail := 0x0100, aux := drawerBase f.panel ((physOf s f.panel (param f 40 1)).getD (param f 40 1)) })
    else runMi 0x10 [0] true effectMove mi s
  | none => s

/-! MCAST. -/

def mcastPanels (f : Flight) : List Nat := setPositions 16 (param f 40 2)
def mcastBenches (f : Flight) : List Nat := setPositions 32 (param f 44 4)

/-- Targets: units, and none where the partition does not own the logical bench (R185, R190). -/
def mcastTargets (s : State) (f : Flight) (d : Desc) : List (Exec × Bool) :=
  if d.tier == 0 then
    (mcastPanels f).flatMap fun p => (mcastBenches f).map fun b =>
      ({ panel := p, bench := b }, ownsBench s f.part p b && (physOf s p b).isSome)
  else (mcastPanels f).map fun p => ({ panel := p, bench := 0 }, true)

/-- Write an image of codes to one target. -/
def mcastTo (w : Work) (d : Desc) (codes : Array Nat) (t : Exec × Bool) : Work :=
  if !t.2 then
    noteCond w { status := 2, detail := 0x0100
                 aux := drawerBase t.1.panel ((physOf w.s t.1.panel t.1.bench).getD t.1.bench) + d.base }
  else if d.format == 0xF then tierPut w d t.1 0 codes.toList
  else writeCodes w d t.1 (wholeBox d) (codes.map some)

def effectMcast (w : Work) : Work :=
  match slotDesc w.f 0, slotDesc w.f 3 with
  | some a, some d =>
    let u := homeUnit w.f
    let (w, codes, sc) : Work × Array Nat × Array Nat :=
      if a.format == 0xF then (let (w, bs) := imageGet w 0 a u; (w, bs.toArray, #[]))
      else (let (w, t) := loadBox w 0 a u (wholeBox a); (w, t.codes, t.sc))
    let w := keepImage w (tensorImage a codes sc)
    let w := { w with s := (mcastPanels w.f).foldl (fun s p => countBeats s p (ceilDiv (imageBytes w.f.word a) 256)) w.s }
    let w := (mcastTargets w.s w.f d).foldl (fun w t => mcastTo w d codes t) w
    if descMx d then writeScales w d u (wholeBox d) (sc.map some) else w
  | _, _ => w

/-- Does an MCAST name no target (R187)? -/
def mcastNowhere (f : Flight) : Bool :=
  (mcastPanels f).isEmpty || (descTest (slotDesc f 3) (·.tier == 0) && (mcastBenches f).isEmpty)

/-- The step of MCAST: one without a target ends without any access. -/
def mcastStep (mi : Nat) (s : State) : State :=
  match findFlight s mi with
  | some f =>
    if f.phase == .issued && miOpcode f.word == 0x11 && mcastNowhere f then finishWork { s := s, f := { f with noEffect := true } }
    else runMi 0x11 [0] false effectMcast mi s
  | none => s

/-- What makes an MCAST malformed (R186, R187). -/
def faultsMcast (f : Flight) : List Nat :=
  let (a, d) := (slotDesc f 0, slotDesc f 3)
  on (descTest d (·.tier == 1) && param f 44 4 != 0) 0x0002 ++
  unusedFaults f [(42, 43), (48, 63)] ++ slotFaults f [0, 3] [] ++
  on (match a, d with
    | some a, some d => a.format != d.format || descMx a != descMx d || (descMx a && a.blockAxis != d.blockAxis)
    | _, _ => false) 0x0004 ++
  on (!(sameExtents a d 0) || [a, d].any fun x => descTest x fun x => x.format == 0xF && x.ndim != 1) 0x0007 ++
  on (descTest d fun d => 1 < d.tier) 0x0009

/-! FLUSH and PREFETCH. -/

/-- The byte ranges of T2 that the elements of a descriptor touch: its rows, or its sealed slots. -/
def touchedRanges (word : List Nat) (d : Desc) : List (Nat × Nat) :=
  if descCount d == 0 then []
  else if d.comp != 0 then [(d.base, imageBlocks word d * slotSize (descSealTag d))]
  else (boxCoords ((wholeBox d).drop 1)).map fun c => (d.base + rowOffset d (0 :: c), rowBytes (descFmt d) (descExt d 0))

/-- First addresses of the 64 KiB frames that ranges touch, in order. -/
def framesTouched (rs : List (Nat × Nat)) : List Nat :=
  (rs.flatMap fun r => (List.range ((r.1 + r.2 - 1) / 0x10000 + 1 - r.1 / 0x10000)).map fun i =>
    (r.1 / 0x10000 + i) * 0x10000).eraseDups

/-- One frame under FLUSH (R315). -/
def flushFrame (wb inv : Bool) (s : State) (f : CacheFrame) : State :=
  let s := if wb then writeBackFrame s f else s
  if inv then dropFrame s f else s

/-- The frames of a partition's contexts on some panels. -/
def partFrames (s : State) (part : Nat) (panels : List Nat) : List CacheFrame :=
  s.cache.frames.filter fun f => panels.contains f.panel && rfield s (panelReg .sbdCcfg f.panel f.n) 15 8 == part

def effectFlush (w : Work) : Work :=
  let b := param w.f 40 1
  let hit (f : CacheFrame) : Bool := bit b 2 ||
    (match slotDesc w.f 0 with | some d => (framesTouched (touchedRanges w.f.word d)).contains f.addr | none => false)
  let fs := (partFrames w.s w.f.part (setPositions 16 w.f.mask)).filter hit
  { w with s := fs.foldl (flushFrame (bit b 0) (bit b 1)) w.s }

def faultsFlush (f : Flight) : List Nat :=
  let all := bit (param f 40 1) 2
  on (7 < param f 40 1) 0x0002 ++ unusedFaults f [(41, 63)] ++
  (if all then slotFaults f [] [0, 1, 2, 3, 4] else slotFaults f [0] [1, 2, 3, 4]) ++
  on (descTest (slotDesc f 0) fun d => d.tier != 2) 0x0009

/-- One frame on one panel under PREFETCH (R316): the state, and whether the panel has no window for it. -/
def prefetchFrame (part : Nat) (acc : State × Bool) (pf : Nat × Nat) : State × Bool :=
  match cacheCtx acc.1 pf.1 part pf.2 with
  | none => (acc.1, true)
  | some n =>
    match findFrame acc.1 pf.1 n pf.2 with
    | some f => (touchFrame acc.1 f, acc.2)
    | none => ((installFrame acc.1 pf.1 n pf.2 .filling).1, acc.2)

def effectPrefetch (w : Work) : Work :=
  match slotDesc w.f 0 with
  | none => w
  | some d =>
    let fs := framesTouched (touchedRanges w.f.word d)
    let (s, out) := ((setPositions 16 w.f.mask).flatMap fun p => fs.map fun a => (p, a)).foldl
      (prefetchFrame w.f.part) (w.s, false)
    let w := { w with s := s }
    if out then noteCond w { status := 0, detail := 0x0601 } else w

def faultsPrefetch (f : Flight) : List Nat :=
  unusedFaults f [(40, 63)] ++ slotFaults f [0] [1, 2, 3, 4] ++ on (descTest (slotDesc f 0) fun d => d.tier != 2) 0x0009

/-- Is a frame that a PREFETCH named still filling (R316)? -/
def prefetchPending (s : State) (f : Flight) : Bool :=
  miOpcode f.word == 0x13 &&
  (match slotDesc f 0 with
   | some d =>
     let fs := framesTouched (touchedRanges f.word d)
     (partFrames s f.part (setPositions 16 f.mask)).any fun c => c.state == .filling && fs.contains c.addr
   | none => false)

/-! The meanings. -/

def execMove (mi : Nat) (s : State) : Result := .next (whileRunning mi (moveStep mi) s)
def execMcast (mi : Nat) (s : State) : Result := .next (whileRunning mi (mcastStep mi) s)
def execFlush (mi : Nat) (s : State) : Result := .next (whileRunning mi (runMi 0x12 [] false effectFlush mi) s)
def execPrefetch (mi : Nat) (s : State) : Result := .next (whileRunning mi (runMi 0x13 [] false effectPrefetch mi) s)

end Sys2Proof.Machine
end

