-- ==== Sys2Proof/Machine/CheckUnit.lean ====
section
/-!
DEFINITION. Check units (14_integrity.md R385 to R397): what makes a CHECK malformed, the image that it covers, its result, and
the restoring of a unit.
-/
namespace Sys2Proof.Machine

/-! The fields of CHECK (R389). -/

def chkUnit (f : Flight) : Nat := bits (param f 40 1) 1 0
def chkPoly (f : Flight) : Nat := bits (param f 40 1) 3 2
def chkCompare (f : Flight) : Bool := bit (param f 40 1) 4
def chkContinue (f : Flight) : Bool := bit (param f 40 1) 5
def chkSide (f : Flight) : Bool := bit (param f 40 1) 6
def chkResult (f : Flight) : Nat := param f 42 6
def chkExpect (f : Flight) : Nat := param f 48 8

/-- Panels whose units a CHECK binds: the participating panels and the home panel, which combines (R388). -/
def chkPanels (f : Flight) : List Nat := allPanels.filter fun p => p == f.panel || (panelsOf f).contains p

/-- The causes of R391, which deny the bound MI too; `next` is the opcode of the next MI. -/
def checkCauses (s : State) (next : Nat) (f : Flight) : List Nat :=
  on (!([0x10, 0x11, 0x48].contains next) || (next == 0x48 && !(chkSide f))) 0x0801 ++
  on ((panelsOf f).any fun p => rfield s (panelReg .chkCtl p (chkUnit f)) 15 8 != f.part) 0x0802 ++
  on (chkCompare f && 2 ^ crcWidth (chkPoly f) ≤ chkExpect f) 0x0803

/-- What makes a CHECK malformed (R389, R391). -/
def faultsCheck (s : State) (next : Nat) (f : Flight) : List Nat :=
  on (bit (param f 40 1) 7) 0x0002 ++ unusedFaults f [(41, 41), (56, 63)] ++ slotFaults f [] [0, 1, 2, 3, 4] ++
  on (chkResult f % 8 != 0) 0x0005 ++ checkCauses s next f

/-- A binding sets POLY of the units that it binds (CHK_CTLu). -/
def bindUnits (s : State) (f : Flight) : State :=
  (chkPanels f).foldl (fun s p => rsetField s (panelReg .chkCtl p (chkUnit f)) 2 1 (chkPoly f)) s

/-! The image. -/

/-- An image read back: the panel and physical bench that hold it, and its bytes. -/
structure ReadBack where
  panel : Nat := 0
  phys : Nat := 0
  bytes : List Nat := []
deriving Inhabited

/-- Read a destination back from one unit. -/
def readTarget (w : Work) (d : Desc) (u : Exec) : Work × List Nat :=
  if d.format == 0xF then imageGet w 3 d u
  else
    let (w, t) := loadBox w 3 d u (wholeBox d)
    (w, tensorImage d t.codes t.sc)

/-- The destination images of a bound MI (R390): every target's of an MCAST, else the one image that its units wrote. -/
def readBack (w : Work) (d : Desc) : Work × List ReadBack :=
  if miOpcode w.f.word == 0x11 then
    ((mcastTargets w.s w.f d).filter (·.2)).foldl (fun (acc : Work × List ReadBack) t =>
      let (w, bs) := readTarget acc.1 d t.1
      (w, acc.2 ++ [{ panel := t.1.panel
                      phys := if d.tier == 0 then (physOf w.s t.1.panel t.1.bench).getD 0 else 0, bytes := bs }])) (w, [])
  else
    let (w, bs) := if miOpcode w.f.word == 0x10 then dealtImage w 3 d (moveDeal w.f d) else readTarget w d (homeUnit w.f)
    (w, [{ bytes := bs }])

/-! The result. -/

/-- The running register and the byte count from which a CHECK starts (R389); no bit above the width of POLY counts (R386). -/
def chkStart (s : State) (f : Flight) : Nat × Nat :=
  if chkContinue f then
    (rget s (panelReg .chkState f.panel (chkUnit f)) % 2 ^ crcWidth (chkPoly f), rfield s (panelReg .chkCnt f.panel (chkUnit f)) 47 0)
  else (crcInit (chkPoly f), 0)

/-- Capture a mismatch in the home panel's unit (R393, CHK_LOGu). -/
def logMismatch (s : State) (f : Flight) (r : ReadBack) (tag : Nat) : State :=
  let s := rbump s (panelReg .chkCtl f.panel (chkUnit f)) 47 32 1
  let a := panelReg .chkLog f.panel (chkUnit f)
  if rbit s a 63 then s else rset s a (r.phys % 64 + (r.panel % 16) <<< 6 + (tag % 2 ^ 31) <<< 32 + 1 <<< 63)

/-- Finish a CHECK over the images that it covers, `b` the bound MI: with several images the value is that of the first
mismatching one, else of the first (log entry 35). -/
def finishCheck (s : State) (f b : Flight) (images : List ReadBack) : State :=
  let start := chkStart s f
  let p := chkPoly f
  let val (r : ReadBack) : Nat := crcRun p start.1 r.bytes
  let bad := if chkCompare f then images.find? fun r => (val r ^^^ crcXorOut p) != chkExpect f else none
  let r := bad.getD (images.headD {})
  let reg := val r
  let s := rset s (panelReg .chkState f.panel (chkUnit f)) reg
  let s := rset s (panelReg .chkCnt f.panel (chkUnit f)) ((start.2 + r.bytes.length) % 2 ^ 48)
  let w : Work := { s := s, f := f }
  let w := if chkResult f != 0 then memPut w f.panel (chkResult f) (leBytes 8 (reg ^^^ crcXorOut p)) else w
  if bad.isSome then
    let s := logMismatch w.s f r (miTag b.word)
    let s := condFor s (some b.mi) { status := 0x0C }
    finishWork (noteCond { w with s := s } { status := 0x0C, detail := 0x0810, aux := reg ^^^ crcXorOut p })
  else finishWork w

/-- The MI that a CHECK in flight has bound. -/
def boundMi (s : State) (c : Flight) : Option Flight :=
  s.jig.flights.find? fun f => f.check == some c.mi

/-- The step of CHECK: once its bound MI has come about and its writes are visible, the unit covers the image. A bound MI that
performed no access gives no image, and the CHECK ends without a result (log entry 34). -/
def checkStep (mi : Nat) (s : State) : State :=
  match findFlight s mi with
  | some c =>
    if c.phase == .issued && miOpcode c.word == 0x30 then
      match boundMi s c with
      | some b =>
        if b.phase != .executed || awaits s b.mi || !b.puts.isEmpty then s
        else if b.noEffect then finishWork { s := s, f := c }
        else if !(chkSide c) then finishCheck s c b [{ bytes := b.bytes }]
        else
          match slotDesc b 3 with
          | none => finishWork { s := s, f := c }
          | some d =>
            let failed := c.conds.any fun x => statusRank x.status == 2
            let b' := { b with mi := c.mi, remote := c.remote, conds := [], damages := [] }
            let (w, images) := readBack { s := { s with fab := { s.fab with asks := [] } }, f := b' } d
            let miss := missingRemote b' [3] ++ w.s.fab.asks.map fun a => (a.2.1, a.2.2.2)
            if !miss.isEmpty && !failed then sendWants (putFlight s { c with phase := .waiting, wants := miss }) c.mi
            else
              finishCheck { w.s with fab := { w.s.fab with asks := [] } } { c with conds := c.conds ++ w.f.conds } b images
      | none => s
    else s
  | none => s

def execCheck (mi : Nat) (s : State) : Result := .next (whileRunning mi (checkStep mi) s)

/-! Saving and restoring (R396). -/

/-- A write of CHK_CTLu, CHK_STATEu or CHK_CNTu: discarded and counted while the unit is `bound`; PARTITION of CHK_CTLu is
written all the same. The bits of a running register above the width of POLY read zero (R386). -/
def chkWrite (s : State) (bound : Bool) (a : RegAddr) (v : Nat) : State :=
  if bound then
    let s := rbump s { a with id := .chkCtl } 31 16 1
    if a.id == .chkCtl then rsetField s a 15 8 (bits v 15 8) else s
  else plainWrite s a v

end Sys2Proof.Machine
end

