-- ==== Sys2Proof/Machine/Training.lean ====
section
/-!
DEFINITION. The ledger and census MIs (04_rounding_census_ledger.md R117, R121, R122, R619) and salvage (10_training.md R276 to
R288): SALVAGE_MARK, parking, runs and their end.
-/
namespace Sys2Proof.Machine

/-! LEDGER_UPDATE and CENSUS_READ. -/

def selFirst (f : Flight) : Nat := bits (param f 40 2) 11 0
def selCount (f : Flight) : Nat := param f 42 2

/-- Faults that both share (R619). -/
def selFaults (f : Flight) : List Nat :=
  on (bits (param f 40 2) 15 12 != 0 || 3 < param f 44 1) 0x0002 ++ unusedFaults f [(45, 63)] ++
  on (selCount f == 0 || 4096 < selFirst f + selCount f) 0x0007

def selEntries (f : Flight) : List Nat := (List.range (selCount f)).map (selFirst f + ·)

/-- A ledger entry as it lies in its home panel's sideboard; an entry whose slice is refused (11_drawers_tiers.md R305) reads as
empty. -/
def ledgerEntry (s : State) (part e : Nat) : Option Ledger :=
  (ledgerAddr s part e).map fun a => ledgerOfBytes (((recordGet s part a 128).2).getD [])

/-- What makes a LEDGER_UPDATE malformed (R121, R619); without a home panel it is NOT_PRESENT instead (R120). -/
def faultsLedgerUpdate (s : State) (f : Flight) : List Nat :=
  selFaults f ++ slotFaults f [] [0, 1, 2, 3, 4] ++
  on ((ledgerHome s f.part).isSome && selCount f ≤ 4096 && (selEntries f).any fun e =>
    match ledgerEntry s f.part e with
    | some l => ledgerBad l
    | none => true) 0x000C

/-- R122 for one entry. -/
def ledgerStep (part : Nat) (clear adopt : Bool) (s : State) (e : Nat) : State :=
  let (c, s) := readCensus s part e clear
  match ledgerAddr s part e with
  | none => s
  | some a =>
    match recordGet s part a 128 with
    | (s, some old) => recordPut s part a (ledgerBytes (ledgerUpdate adopt c (ledgerOfBytes old)))
    | (s, none) => s

def effectLedgerUpdate (w : Work) : Work :=
  let o := param w.f 44 1
  { w with s := (selEntries w.f).foldl (ledgerStep w.f.part (bit o 0) (bit o 1)) w.s }

def faultsCensusRead (f : Flight) : List Nat :=
  let d := slotDesc f 3
  selFaults f ++ slotFaults f [3] [0, 1, 2, 4] ++
  on (descTest d fun d => d.format != 0 || d.scaling != 0) 0x0004 ++
  on (descTest d fun d => d.base % 64 != 0) 0x0005 ++
  on (descTest d fun d => d.ndim != 1 || descExt d 0 < 16 * selCount f + (if bit (param f 44 1) 1 then 2 else 0)) 0x0007 ++
  on (descTest d fun d => d.tier == 0 || d.tier == 4) 0x0009 ++
  on (descTest d fun d => d.comp != 0) 0x000A

def effectCensusRead (w : Work) : Work :=
  match slotDesc w.f 3 with
  | none => w
  | some d =>
    let o := param w.f 44 1
    let u : Exec := { panel := w.f.panel, bench := 0 }
    let w := ((selEntries w.f).zipIdx).foldl (fun w e =>
      let (c, s) := readCensus w.s w.f.part e.1 (bit o 0)
      tierPut { w with s := s } d u (64 * e.2) (cenBytes c)) w
    if bit o 1 then tierPut w d u (64 * selCount w.f) (leBytes 8 (summaryOr w.s w.f.part)) else w

/-! The salvage table (R285, R288). -/

/-- The enabled salvage context of a partition on its sync home panel (R163, R618). -/
def salvCtx (s : State) (part : Nat) : Option (Nat × Nat) :=
  (syncHome s part).bind fun p => ((List.range 16).find? fun n =>
    let v := rget s (panelReg .jigSalv p n)
    bit v 0 && bits v 15 8 == part).map fun n => (p, n)

/-- The partition address of an entry, where the table holds it. -/
def salvAddr (s : State) (c : Nat × Nat) (id : Nat) : Option Nat :=
  if id ≤ rfield s (panelReg .jigSalv c.1 c.2) 27 16 then
    some (rfield s (panelReg .jigSalvb c.1 c.2) 47 6 * 64 + 64 * id)
  else none

/-- A salvage table entry (R288). -/
structure SalvEntry where
  id : Nat
  flags : Nat
  count : Nat
  descM1 : Nat
  prog : Nat
  descs : Nat
  step : Nat
  tensorId : Nat
  runs : Nat
  last : Nat
deriving DecidableEq, Repr, Inhabited

def salvOfBytes (b : List Nat) : SalvEntry :=
  { id := leAt b 0 2, flags := b.getD 2 0, count := leAt b 4 2, descM1 := leAt b 6 2, prog := leAt b 8 6
    descs := leAt b 14 6, step := leAt b 20 4, tensorId := leAt b 24 4, runs := leAt b 28 4, last := leAt b 32 8 }

def salvBytes (e : SalvEntry) : List Nat :=
  leBytes 2 e.id ++ [e.flags, 0] ++ leBytes 2 e.count ++ leBytes 2 e.descM1 ++ leBytes 6 e.prog ++ leBytes 6 e.descs ++
  leBytes 4 e.step ++ leBytes 4 e.tensorId ++ leBytes 4 e.runs ++ leBytes 8 e.last ++ List.replicate 24 0

/-- A request of the sync home panel for a partition. -/
def homeReq (c : Nat × Nat) (part : Nat) : Req := { part := some part, panel := some c.1 }

/-- Read or write an entry from the sync home panel. -/
def salvGet (s : State) (part : Nat) (c : Nat × Nat) (a : Nat) : State × SalvEntry :=
  let g := partGet s (homeReq c part) part a 64
  (g.s, salvOfBytes g.bytes)

def salvPut (s : State) (part : Nat) (c : Nat × Nat) (a : Nat) (e : SalvEntry) : State :=
  (partPut s (homeReq c part) part a (salvBytes e)).s

/-- The run in progress of an entry. -/
def runOf (s : State) (part id : Nat) : Option SalvageRun := s.jig.runs.find? fun r => r.part == part && r.id == id

/-! SALVAGE_MARK (R286). -/

/-- What makes a SALVAGE_MARK malformed: a MI_COUNT outside 1 to 256 counts as an extent rule, and an address off its multiple as
an alignment rule (log entry 36). -/
def faultsSalvageMark (s : State) (f : Flight) : List Nat :=
  let fl := param f 58 1
  on (3 < fl) 0x0002 ++ unusedFaults f [(59, 63)] ++ slotFaults f [0] [1, 2, 3, 4] ++
  on (!(bit fl 1) && (param f 44 6 % 64 != 0 || param f 50 6 % 64 != 0)) 0x0005 ++
  on (!(bit fl 1) && (param f 42 2 == 0 || 256 < param f 42 2)) 0x0007 ++
  on (param f 40 2 == 0 || (match salvCtx s f.part with
    | some c => (salvAddr s c (param f 40 2)).isNone
    | none => false)) 0x0016

def effectSalvageMark (w : Work) : Work :=
  match slotDesc w.f 0, salvCtx w.s w.f.part with
  | some d, some c =>
    let id := param w.f 40 2
    match salvAddr w.s c id with
    | none => w
    | some a =>
      let (w, bs) := memGet w c.1 a 64
      let e := salvOfBytes bs
      let fl := param w.f 58 1
      memPut w c.1 a (salvBytes (if bit fl 1 then { e with flags := setBits e.flags 0 0 0 }
        else
          { e with
            id := id, flags := 1 + boolBit (bit fl 0) 1, count := param w.f 42 2, descM1 := param w.f 56 2
            prog := param w.f 44 6, descs := param w.f 50 6, step := miStep w.f.word, tensorId := d.tensorId }))
  | _, _ => w

/-! Parking (R276, R277, R280, R285). -/

/-- A consumer ends: DAMAGED with a DETAIL. -/
def endDamaged (s : State) (f : Flight) (detail aux : Nat) : State :=
  finishWork (noteCond { s := s, f := { f with noEffect := true } } { status := 3, detail := detail, aux := aux })

/-- The descriptor indices that a word names: the slots, and X0 to X3 of the attention MIs. -/
def wordIndices (w : List Nat) : List Nat :=
  (List.range 5).map (miSlot w) ++
  (if miOpcode w == 0x04 || miOpcode w == 0x05 then [leAt w 42 2, leAt w 58 2, leAt w 60 2, leAt w 62 2] else [])

/-- Read the descriptors that a program's word names, of those that its table holds. -/
def readProgDescs (part : Nat) (req : Req) (e : SalvEntry) (w : List Nat) (s : State) :
    State × List (Option (List Nat × Option Cond)) :=
  (wordIndices w).foldl (fun x i =>
    if i == 0xFFFF || e.descM1 < i then (x.1, x.2 ++ [none])
    else
      let va := e.descs + 64 * i
      let g := partGet x.1 req part va 64
      (g.s, x.2 ++ [some (g.bytes, g.cond.map fun c => { c with aux := va })])) (s, [])

/-- Read a program when its run starts (R281, R287). -/
def readProgram (part : Nat) (req : Req) (e : SalvEntry) (s : State) : State × List ProgMi :=
  (List.range e.count).foldl (fun x i =>
    let va := e.prog + 64 * i
    let g := partGet x.1 req part va 64
    let word := if bit e.flags 1 then g.bytes.take 16 ++ leBytes 4 e.step ++ g.bytes.drop 20 else g.bytes
    match g.cond with
    | some c => (g.s, x.2 ++ [{ word := word, cond := some { c with aux := va } }])
    | none =>
      let (s, ds) := readProgDescs part req e word g.s
      (s, x.2 ++ [{ word := word, descs := ds }])) (s, [])

/-- Start a run of an entry on the consumer's queue (R280). -/
def startRun (s : State) (f : Flight) (c : Nat × Nat) (a id block : Nat) (e : SalvEntry) : State :=
  let s := salvPut s f.part c a { e with flags := setBits e.flags 2 2 1, runs := satAdd 32 e.runs 1 }
  let s := rbump s (panelReg .jigSalv c.1 c.2) 47 32 1
  let (s, prog) := readProgram f.part (homeReq c f.part) e s
  let run : SalvageRun := { part := f.part, id := id, addr := block, panel := f.panel, q := f.q, left := prog.length, prog := prog }
  putFlight { s with jig := { s.jig with runs := s.jig.runs ++ [run] } }
    { f with phase := .parked, tried := (id, 0) :: f.tried }

/-- A consumer with damage under SALVAGE meets its entry (R285). -/
def meetEntry (s : State) (f : Flight) (dm : Damage) : State :=
  match f.tried.find? (·.1 == dm.salvage) with
  | some t => endDamaged s f (if t.2 == 1 then 0x0401 else 0x0404) dm.addr
  | none =>
    match salvCtx s f.part with
    | none => endDamaged s f 0x0403 dm.addr
    | some c =>
      match salvAddr s c dm.salvage with
      | none => endDamaged s f 0x0403 dm.addr
      | some a =>
        let (s, e) := salvGet s f.part c a
        let own := ((slotDesc f dm.slot).map (·.tensorId)).getD 0
        if !(bit e.flags 0) || e.tensorId != own then endDamaged s f 0x0403 dm.addr
        else if (runOf s f.part dm.salvage).isSome then
          putFlight s { f with phase := .parked, tried := (dm.salvage, 1) :: f.tried }
        else startRun s f c a dm.salvage dm.addr e

/-- The damaged block that decides: the first under FAULT, else the first under SALVAGE. -/
def decidingDamage (f : Flight) : Option Damage :=
  match f.damages.find? (·.policy == 0) with
  | some d => some d
  | none => f.damages.find? (·.policy == 2)

/-- A consumer that met damage ends or parks. -/
def parkFlight (f : Flight) (s : State) : State :=
  match decidingDamage f with
  | some d => if d.policy == 0 then endDamaged s f d.detail d.addr else meetEntry s f d
  | none => s

def damageParkStep (mi : Nat) (s : State) : State :=
  match findFlight s mi with
  | some f => if f.phase == .damaged then viaNeighbor f.part (parkFlight f) s else s
  | none => s

/-! The end of a run (R280, R284, R285). -/

/-- Consumers parked behind an entry, with whether each started the run. -/
def parkedOn (s : State) (part id : Nat) : List Flight :=
  s.jig.flights.filter fun f => f.part == part && f.phase == .parked &&
    (match f.tried with | t :: _ => t.1 == id | [] => false)

/-- A parked consumer when its run has ended: it re-reads, or it ends (R284). -/
def wakeConsumer (r : SalvageRun) (s : State) (f : Flight) : State :=
  if r.failed then
    match f.tried with
    | (_, 1) :: _ => endDamaged s f 0x0401 ((f.damages.head?.map (·.addr)).getD 0)
    | _ => endDamaged s f 0x0402 (r.id + r.failIndex <<< 16 + r.failStatus <<< 32)
  else putFlight s { f with phase := .issued, damages := [], remote := [] }

/-- Has a run ended: it failed or has no program MI left, and none is in flight? -/
def runOver (s : State) (r : SalvageRun) : Bool :=
  (r.failed || r.left == 0) && !(s.jig.flights.any fun f => f.part == r.part && f.run == some r.id)

/-- A run's entry when it has ended: RUNNING clears and LAST_RUN is the time. -/
def endEntry (r : SalvageRun) (s : State) : State :=
  match salvCtx s r.part with
  | none => s
  | some c =>
    let s := if r.failed then rbump s (panelReg .jigSalv c.1 c.2) 63 48 1 else s
    match salvAddr s c r.id with
    | none => s
    | some a =>
      let (s, e) := salvGet s r.part c a
      salvPut s r.part c a { e with flags := setBits e.flags 2 2 0, last := s.time }

/-- End a run that is over. -/
def endRun (r : SalvageRun) (s : State) : State :=
  let s := { s with jig := { s.jig with runs := s.jig.runs.filter fun x => !(x.part == r.part && x.id == r.id) } }
  let s := endEntry r s
  (parkedOn s r.part r.id).foldl (wakeConsumer r) s

def salvageRunEndStep (part id : Nat) (s : State) : State :=
  match runOf s part id with
  | none => s
  | some r => if runOver s r then viaNeighbor part (endRun r) s else s

/-! The meanings. -/

def execLedgerUpdate (mi : Nat) (s : State) : Result := .next (whileRunning mi (runMi 0x28 [] false effectLedgerUpdate mi) s)
def execCensusRead (mi : Nat) (s : State) : Result := .next (whileRunning mi (runMi 0x29 [] false effectCensusRead mi) s)
def execSalvageMark (mi : Nat) (s : State) : Result := .next (whileRunning mi (runMi 0x4F [] false effectSalvageMark mi) s)
def execDamagePark (mi : Nat) (s : State) : Result := .next (whileRunning mi (damageParkStep mi) s)
def execSalvageRunEnd (part id : Nat) (s : State) : Result := .next (salvageRunEndStep part id s)

end Sys2Proof.Machine
end

