-- ==== Sys2Proof/Machine/Mitre.lean ====
section
/-!
DEFINITION. Mitre collectives (16_mitre_mapping.md R436 to R454) and GATHER_RETAIN (10_training.md R289 to R291). What the other
members send arrives with the command (log entry 37).
-/
namespace Sys2Proof.Machine

/-! Contexts (R436, R437). -/

/-- An enabled context as COLLs use it: its number, its members, this device's rank, its limit in ns. -/
structure Comm where
  c : Nat
  size : Nat
  rank : Nat
  limit : Nat
deriving DecidableEq, Repr, Inhabited

def commAt (s : State) (c : Nat) : Comm :=
  let v := rget s (edgeReg .mitCtx 0 c)
  { c := c, size := bits v 27 16 + 1, rank := bits v 43 32
    limit := (if bits v 63 48 == 0 then 65536 else bits v 63 48) * 10000 }

/-- The enabled context of a partition that an MI names in PARAMS bytes 43:42 (R439). -/
def commOf (s : State) (f : Flight) : Option Comm :=
  let c := param f 42 2
  let v := rget s (edgeReg .mitCtx 0 c)
  if c < 64 && bit v 0 && bits v 15 8 == f.part then some (commAt s c) else none

/-- Write a register of a context into all four engines (R436). -/
def mitAll (s : State) (a : RegAddr) (g : State → RegAddr → State) : State :=
  [0, 1, 2, 3].foldl (fun s e => g s { a with loc := .edge e }) s

/-- The member table of a context, read for its partition (R437); none where the read is refused. -/
def readMembers (s : State) (c : Nat) : State × Option (List Nat) :=
  let v := rget s (edgeReg .mitCtx 0 c)
  let n := bits v 27 16 + 1
  let part := bits v 15 8
  let g := partGet s { part := some part } part (bits (rget s (edgeReg .mitCtxb 0 c)) 47 3 * 8) (2 * n)
  if g.cond.isSome then (g.s, none) else (g.s, some ((List.range n).map fun i => leAt g.bytes (2 * i) 2))

/-- Does a member table suit this device (R437)? -/
def membersOk (s : State) (c : Nat) (ms : List Nat) : Bool :=
  let r := rfield s (edgeReg .mitCtx 0 c) 43 32
  ms.getD r 65536 == gnum s .fabAddress && decide (r < ms.length) && decide (ms.eraseDups.length == ms.length)

/-- Was a member table read, and does it suit this device? -/
def tableSuits (s : State) (c : Nat) (ms : Option (List Nat)) : Bool :=
  match ms with | some ms => membersOk s c ms | none => false

/-- Enable a context: its member table is read, and its sequence counter starts anew. -/
def enableComm (a : RegAddr) (v : Nat) (s : State) : State :=
  let (s, ms) := readMembers s a.i
  if tableSuits s a.i ms then
    let s := mitAll s { a with id := .mitCtxb } (fun s b => rsetField s b 63 48 0)
    let s := mitAll s a (fun s b => rsetField s b 0 0 1)
    { s with mit := { s.mit with members := upsert (fun e => e.1 == a.i) (a.i, ms.getD []) s.mit.members } }
  else refuseEnable (mitAll s a (fun s b => rsetField s b 0 0 0)) a v

/-- Enable a context, at once or when its table has arrived from a neighbour. -/
def enableMit (a : RegAddr) (v : Nat) (s : State) : State :=
  enableVia (rfield s a 15 8) (fun s => mitAll s a (fun s b => rsetField s b 0 0 0)) (enableComm a v) a v s

/-- A write of MIT_CTXc or MIT_CTXBc: on edge dies 1 to 3 it does nothing (R436); a write of ENABLE as 1 reads the member
table and resets the sequence counter, at once or, where the table lies at a neighbour, when it has arrived (log entry 126). -/
def mitWrite (s : State) (a : RegAddr) (v : Nat) : State :=
  if a.loc != .edge 0 then s
  else
    let s := mitAll (cancelEnable s a) a (fun s b => plainWrite s b v)
    if a.id == .mitCtx && bit v 0 then enableMit a v s else s

/-- The sequence counter rises at each COLL that issues (R438). -/
def bumpSeq (s : State) (c : Nat) : State :=
  mitAll s (edgeReg .mitCtxb 0 c) (fun s b => rwrap s b 63 48 1)

/-! The fields of COLL (R439). -/

def collOp (f : Flight) : Nat := param f 40 1
def collSingle (f : Flight) : Bool := bits (param f 41 1) 1 0 == 1
def collChk (f : Flight) : Bool := bit (param f 44 1) 0
def collUnit (f : Flight) : Nat := bits (param f 44 1) 3 1
def collPoly (f : Flight) : Nat := bits (param f 44 1) 5 4
def collCompare (f : Flight) : Bool := bit (param f 44 1) 6
def collParts (f : Flight) : Nat := param f 45 1
def collFirst (f : Flight) : Nat := param f 48 4
def collCount (f : Flight) : Nat := param f 52 4
def collNb (f : Flight) : Nat := param f 56 4
def collExpect (f : Flight) : Nat := param f 60 4

/-- The highest non-unit dimension of extents (R441). -/
def highDim (exts : List Nat) : Nat := ((List.range exts.length).filter fun k => exts.getD k 1 != 1).foldl max 0

/-- Extents with dimension `k` cut into `p` parts; none where it does not divide. -/
def cutExtents (exts : List Nat) (p : Nat) : Option (List Nat) :=
  let k := highDim exts
  let e := exts.getD k 1
  if p == 0 || e % p != 0 then none else some (exts.set k (e / p))

/-- The extents of the whole tensor of a reduction: slot 3's for ALL_REDUCE; for REDUCE_SCATTER slot 0's, or with a spill source
slot 3's with its last dimension times the member count (log entry 38). -/
def wholeExtents (f : Flight) (p : Nat) : List Nat :=
  match slotDesc f 0, slotDesc f 3 with
  | some a, some d =>
    if collOp f == 0 then d.extents
    else if a.format != 0xF then a.extents
    else d.extents.set (d.ndim - 1) (descExt d (d.ndim - 1) * p)
  | _, _ => []

/-! What makes a COLL malformed. -/

/-- Chunk rules of the copying OPs: formats, scaling and extents (R441, R447, R449). OP says which side is cut: slot 3 for
ALL_GATHER, both for ALL_TO_ALL, none for KV_PASS; how many parts there are, the context says, where it is enabled. -/
def copyFaults (f : Flight) (parts : Option Nat) (op : Nat) : List Nat :=
  let cut (t : Nat → Bool) : Bool := match parts with | some p => t p | none => false
  match slotDesc f 0, slotDesc f 3 with
  | some a, some d =>
    on (a.format != d.format || a.scaling != d.scaling || a.format == 0xF || (descMx a && a.blockAxis != d.blockAxis))
      0x0004 ++
    on (match op with
      | 2 => cut fun p => cutExtents d.extents p != some a.extents
      | 3 => a.extents != d.extents || cut fun p => (cutExtents d.extents p).isNone
      | _ => a.extents != d.extents) 0x0007
  | _, _ => []

/-- Rules of the reductions (R441, R442). NPART or N_B out of range is a coverage fault (log entry 39). -/
def reduceFaults (f : Flight) (parts : Option Nat) : List Nat :=
  match slotDesc f 0, slotDesc f 3 with
  | some a, some d =>
    let spill := a.format == 0xF
    let cutBad := match parts with
      | some p => (let whole := wholeExtents f p
                   (cutExtents whole p).isNone || (collOp f == 1 && !spill && cutExtents whole p != some d.extents))
      | none => false
    on (collNb f == 0 || (spill && (collParts f == 0 || 24 < collParts f)) || (!spill && collCount f == 0)) 0x000E ++
    on ((!spill && collOp f == 0 && a.extents != d.extents) || cutBad) 0x0007
  | _, _ => []

def faultsColl (s : State) (f : Flight) : List Nat :=
  let op := collOp f
  let spill := descTest (slotDesc f 0) fun d => d.format == 0xF
  let parts := (commOf s f).map (·.size)
  on (5 < op || 1 < bits (param f 41 1) 1 0) 0x0001 ++
  on (bits (param f 41 1) 7 4 != 0 || bit (param f 44 1) 7 || (collParts f != 0 && !(spill && op ≤ 1)) ||
    (4 ≤ op && (collFirst f != 0 || collCount f != 0)) || (2 ≤ op && collNb f != 0)) 0x0002 ++
  unusedFaults f [(46, 47)] ++ (if op == 5 then slotFaults f [0, 3, 4] [] else slotFaults f [0, 3] []) ++
  on (op == 5 && descTest (slotDesc f 0) fun d => d.format != 0 || d.scaling != 0) 0x0004 ++
  (if op ≤ 1 then reduceFaults f parts else if op ≤ 4 then copyFaults f parts op else []) ++
  on (collChk f && (List.range 4).any fun e => rfield s (edgeReg .chkCtl e (collUnit f)) 15 8 != f.part) 0x0802 ++
  on (collChk f && collCompare f && (collPoly f == 2 || 2 ^ crcWidth (collPoly f) ≤ collExpect f)) 0x0803

/-! Matching (R438, R440). -/

/-- The first member that has answered with a refusal. -/
def refusedRank (arr : List CollArrival) : Option Nat := (arr.find? (·.refused)).map (·.rank)

/-- Do the members' COLLs agree with this one in OP, N_B, and slot 3's format and extents, and the reductions among them in slot 0's
format? (Where slot 0 is copied, its format and extents follow from slot 3's.) -/
def matched (f : Flight) (arr : List CollArrival) : Bool :=
  match slotDesc f 3 with
  | some d => arr.all fun a => a.op == collOp f && a.nb == collNb f && a.fmt == d.format && a.extents == d.extents &&
      (1 < collOp f || descTest (slotDesc f 0) fun b => b.format == a.srcFmt)
  | none => true

/-- Other ranks of a communicator. -/
def otherRanks (k : Comm) : List Nat := (List.range k.size).filter (· != k.rank)

/-- Has something come from every rank of a list? -/
def allArrived (ranks : List Nat) (arr : List CollArrival) : Bool := ranks.all fun r => arr.any fun a => a.rank == r

/-! Reductions. -/

/-- The sum of the tree under RFMT 1 (R445). -/
def addAcc32 (a b : Acc) : Acc := step32 (a.join b (a.v.add b.v)) (a.v.add b.v)

/-- This member's own partials: A48 values row-major over the whole tensor (R442). -/
structure OwnPartial where
  first : Nat
  count : Nat
  flags : Nat
  vals : Array Acc
deriving Inhabited

/-- Tiles of one spill partial, ordered into whole rows; none where they disagree or leave outputs uncovered (R442). -/
def spillPartial (ts : List SpillTile) (rows cols : Nat) : Option OwnPartial :=
  match ts with
  | [] => none
  | t :: rest =>
    if rest.any (fun r => r.first != t.first || r.count != t.count || r.flags != t.flags) ||
        (List.range rows).any (fun i => (List.range cols).any fun j => (spillAt ts i j).isNone) then none
    else some { first := t.first, count := t.count, flags := t.flags
                vals := ((List.range rows).flatMap fun i => (List.range cols).map fun j =>
                  (((spillAt ts i j).map (·.1)).getD {})).toArray }

/-- Rows and columns of extents as spill tiles lay them out. -/
def gridOf (exts : List Nat) : Nat × Nat := ((exts.drop 1).foldl (· * ·) 1, exts.getD 0 1)

def ownPartials (w : Work) (whole : List Nat) : Work × Option (List OwnPartial) :=
  match slotDesc w.f 0 with
  | none => (w, none)
  | some a =>
    let u := homeUnit w.f
    if a.format == 0xF then
      let (rows, cols) := gridOf whole
      (List.range (collParts w.f)).foldl (fun (acc : Work × Option (List OwnPartial)) k =>
        let (w, ts) := walkSpills 0 a u rows cols (rows * cols) (k * a.strides.getD 3 0) acc.1 []
        (w, match acc.2, spillPartial ts rows cols with
          | some l, some p => some (l ++ [p])
          | _, _ => none)) (w, some [])
    else
      let (w, t) := loadBox w 0 a u (wholeBox a)
      (w, some [{ first := collFirst w.f, count := collCount w.f, flags := 0
                  vals := ((boxCoords (wholeBox a)).map fun c =>
                    let v := elemVal t c
                    ({ v := rne48 v, nanIn := v.isNan && !t.bad } : Acc)).toArray }])

/-- All partials of a reduction: this member's and what arrived, in arrival order. The member's own count as arriving before those of
the others (R91): DESIGN CHOICE, log entry 141. A NaN that arrives in a partial counts as a NaN operand: DESIGN CHOICE, log entry
134. -/
def allPartials (f : Flight) (own : List OwnPartial) (arr : List CollArrival) : List OwnPartial :=
  let single := collSingle f
  let narrow (p : OwnPartial) : OwnPartial :=
    if single then { p with vals := p.vals.map fun a => step32 a a.v } else p
  own.map narrow ++ arr.map fun a =>
    { first := a.first, count := a.count, flags := a.flags
      vals := (a.data.map fun c =>
        let v := if single then f32 c else dec48 c
        ({ v := v, nanIn := v.isNan } : Acc)).toArray }

/-- Is a partial placed as a node (R89, R443)? -/
def placed (nb : Nat) (p : OwnPartial) : Bool := isNodeRange nb p.first p.count (rangeAligned p.first p.count)

/-- The root of one element. -/
def rootAt (single : Bool) (nb : Nat) (ps : List OwnPartial) (i : Nat) : Acc :=
  combineBy (if single then addAcc32 else addAcc) nb
    ((ps.filter (placed nb)).map fun p => (p.first, p.count, p.vals.getD i {}))
    ((ps.filter fun p => !(placed nb p)).map fun p => p.vals.getD i {})

/-- Capture a NONCANONICAL result in the engine of edge die 0 (R443; log entry 37). -/
def logMitreNc (s : State) (tensorId : Nat) (p : OwnPartial) : State :=
  let a0 := edgeReg .mitNcLog0 0 0
  let s := rbump s a0 47 32 1
  if rbit s a0 63 then s
  else rset (rsetField (rsetField s a0 31 0 tensorId) a0 63 63 1) (edgeReg .mitNcLog1 0 0)
    (p.first % 2 ^ 32 + (p.count % 2 ^ 32) <<< 32)

/-- A flight whose SR_ORIGIN is moved on by `k` elements (R446). -/
def withOrigin (f : Flight) (k : Nat) : Flight :=
  { f with word := f.word.take 20 ++ leBytes 8 ((miOrigin f.word + k) % 2 ^ 64) ++ f.word.drop 28 }

/-- Write the roots of a reduction into slot 3 (R446): `off` is the place of slot 3's first element in the whole tensor. -/
def storeRoots (w : Work) (d : Desc) (off : Nat) (ps : List OwnPartial) (nc : Bool) (roots : Array Acc) : Work :=
  let u := homeUnit w.f
  if d.format == 0xF then
    let (rows, cols) := gridOf d.extents
    let first := (ps.map (·.first)).foldl min ((ps.head?.map (·.first)).getD 0)
    let count := (ps.map (·.count)).sum
    let (r, c) := tileShape (miShape w.f.word)
    let tiles := (pairsIn false (ceilDiv rows r) (ceilDiv cols c)).map fun q =>
      (q.1 * r, min r (rows - q.1 * r), q.2 * c, min c (cols - q.2 * c))
    (tiles.foldl (fun (acc : Work × Nat) t =>
      let (m0, ms, n0, ns) := t
      let vals := (List.range ms).flatMap fun i => (List.range ns).map fun j =>
        enc48 (roots.getD ((m0 + i) * cols + n0 + j) {}).v
      (outPut acc.1 d u acc.2 acc.2 (spillBytes
        { tensorId := d.tensorId, first := first, count := count, flags := spillFlags first count nc, rows := ms
          cols := ns, originM := m0, originN := n0, values := vals }), acc.2 + spillSize (ms * ns))) (w, 0)).1
  else
    let f := w.f
    let w := storeAll { w with f := withOrigin f off } d (miMode f.word) (miSat f.word) true (roots.map some)
      (Array.replicate (descCount d) u)
    { w with f := { w.f with word := f.word } }

def reduceEffect (k : Comm) (arr : List CollArrival) (w : Work) : Work :=
  match slotDesc w.f 3 with
  | none => w
  | some d =>
    let whole := wholeExtents w.f k.size
    let (w, own) := ownPartials w whole
    match own with
    | none => noteCond { w with f := { w.f with noEffect := true } } { status := 2, detail := 0x000E }
    | some own =>
      let nb := collNb w.f
      let ps := allPartials w.f own arr
      if !(coverageOk nb (ps.map fun p => (p.first, p.count))) then
        noteCond { w with f := { w.f with noEffect := true } } { status := 2, detail := 0x000E }
      else
        let n := whole.foldl (· * ·) 1
        let (lo, cnt) := if collOp w.f == 0 then (0, n) else (k.rank * (n / k.size), n / k.size)
        let roots := ((List.range cnt).map fun i => rootAt (collSingle w.f) nb ps (lo + i)).toArray
        let odd := ps.find? fun p => !(placed nb p) || bit p.flags 1
        let w := storeRoots w d lo ps odd.isSome roots
        match odd with
        | none => w
        | some p =>
          let w := noteCond { w with s := logMitreNc w.s d.tensorId p } { status := 0x0A }
          if d.format == 0xF then w
          else noteCensus w w.f.panel d { nonCanon := true, valid := true, tensorId := d.tensorId }

/-! Copies. -/

/-- Codes and block scales of a tensor's image (R387). -/
def imageParts (d : Desc) (bs : List Nat) : Array Nat × List Nat :=
  let rb := rowBytes (descFmt d) (descExt d 0)
  let rows := (d.extents.drop 1).foldl (· * ·) 1
  (((List.range rows).flatMap fun i =>
    (unpack (descFmt d) ((bs.drop (i * rb)).take rb)).take (descExt d 0)).toArray, bs.drop (rb * rows))

/-- A part of a destination as it is put together: its codes and block scales over slot 3. -/
structure Assembly where
  codes : Array Nat
  sc : Array Nat
deriving Inhabited

/-- Put the image of chunk `r` of `p` into an assembly of slot 3. -/
def putChunk (d : Desc) (p : Nat) (acc : Assembly) (r : Nat) (bs : List Nat) : Assembly :=
  match cutExtents d.extents p with
  | none => acc
  | some ce =>
    let k := highDim d.extents
    let cd := { d with extents := ce }
    let (codes, sc) := imageParts cd bs
    let shift := r * ce.getD k 1
    let cbox := wholeBox cd
    let bb := blockBox d.blockAxis (wholeBox d)
    let cb := blockBox d.blockAxis cbox
    let runs := (cb.getD d.blockAxis (0, 0)).2
    let bshift := if k == d.blockAxis then shift / 32 else shift
    { codes := ((boxCoords cbox).zipIdx).foldl (fun a c =>
        a.set! (linIndex d.extents (c.1.set k (c.1.getD k 0 + shift))) (codes.getD c.2 0)) acc.codes
      sc := if descMx d then
          ((boxCoords (dropAt d.blockAxis cb)).zipIdx).foldl (fun a o =>
            (List.range runs).foldl (fun a b =>
              let c := insertAt d.blockAxis b o.1
              a.set! (boxIndex bb (c.set k (c.getD k 0 + bshift))) (sc.getD (o.2 * runs + b) 0)) a) acc.sc
        else acc.sc }

def assembly (d : Desc) : Assembly :=
  { codes := Array.replicate (descCount d) 0
    sc := Array.replicate ((blockBox d.blockAxis (wholeBox d)).foldl (fun a p => a * p.2) 1) 0 }

/-- Write an assembled destination, bit for bit (R447). -/
def storeAssembly (w : Work) (d : Desc) (a : Assembly) : Work :=
  let n := descCount d
  storeConv w d { codes := a.codes.map some, cens := #[], scales := a.sc.map some } (List.range n)
    (Array.replicate n (some {})) (Array.replicate n (homeUnit w.f))

/-- The image of this member's slot 0, unsealed at the sender (R447). -/
def sourceImage (w : Work) : Work × List Nat :=
  match slotDesc w.f 0 with
  | none => (w, [])
  | some a =>
    let (w, t) := loadBox w 0 a (homeUnit w.f) (wholeBox a)
    (w, tensorImage a t.codes t.sc)

/-- The image of chunk `j` of a tensor out of its whole tile. -/
def chunkImage (d : Desc) (t : Tile) (p j : Nat) : List Nat :=
  match cutExtents d.extents p with
  | none => []
  | some ce =>
    let k := highDim d.extents
    let cd := { d with extents := ce }
    let shift := j * ce.getD k 1
    let box := (wholeBox cd).set k (shift, ce.getD k 1)
    let bb := blockBox d.blockAxis t.box
    tensorImage cd ((boxCoords box).map fun c => t.codes.getD (linIndex d.extents c) 0).toArray
      ((boxCoords (blockBox d.blockAxis box)).map fun c => t.sc.getD (boxIndex bb c) 0).toArray

def arrivalData (arr : List CollArrival) (r : Nat) : List Nat := ((arr.find? (·.rank == r)).map (·.data)).getD []

/-- ALL_GATHER: chunk r of slot 3 is rank r's slot 0. -/
def gatherEffect (k : Comm) (arr : List CollArrival) (w : Work) : Work × List Nat :=
  match slotDesc w.f 3 with
  | none => (w, [])
  | some d =>
    let (w, own) := sourceImage w
    let a := (List.range k.size).foldl (fun a r =>
      putChunk d k.size a r (if r == k.rank then own else arrivalData arr r)) (assembly d)
    (storeAssembly w d a, tensorImage d a.codes a.sc)

/-- ALL_TO_ALL: chunk r of slot 3 is chunk `rank` of rank r's slot 0. -/
def exchangeEffect (k : Comm) (arr : List CollArrival) (w : Work) : Work :=
  match slotDesc w.f 0, slotDesc w.f 3 with
  | some s0, some d =>
    let (w, t) := loadBox w 0 s0 (homeUnit w.f) (wholeBox s0)
    let own := chunkImage s0 t k.size k.rank
    storeAssembly w d ((List.range k.size).foldl (fun a r =>
      putChunk d k.size a r (if r == k.rank then own else arrivalData arr r)) (assembly d))
  | _, _ => w

/-- KV_PASS: slot 3 is the slot 0 of the rank before (R449). -/
def passEffect (k : Comm) (arr : List CollArrival) (w : Work) : Work :=
  match slotDesc w.f 3 with
  | none => w
  | some d =>
    let (w, own) := sourceImage w
    let prev := (k.rank + k.size - 1) % k.size
    storeAssembly w d (putChunk d 1 (assembly d) 0 (if k.size == 1 then own else arrivalData arr prev))

/-! PERMUTE (R450 to R452). -/

/-- An entry of a move list. -/
structure MoveEntry where
  src : Nat
  dst : Nat
  srcOff : Nat
  dstOff : Nat
  len : Nat
  flags : Nat
deriving DecidableEq, Repr, Inhabited

def moveEntry (b : List Nat) : MoveEntry :=
  { src := leAt b 0 2, dst := leAt b 2 2, srcOff := leAt b 4 4, dstOff := leAt b 8 4, len := leAt b 12 3, flags := b.getD 15 0 }

def moveList : Nat → List Nat → List MoveEntry
  | 0, _ => []
  | n + 1, bs => moveEntry bs :: moveList n (bs.drop 16)

/-- Is an entry valid for `p` members, shards of `shard` bytes and staging slots of `stage` bytes (R450)? -/
def entryOk (p shard stage : Nat) (e : MoveEntry) : Bool :=
  decide (e.src < p ∧ e.dst < p ∧ 0 < e.len) && bits e.flags 7 4 == 0 &&
  decide (e.srcOff + e.len ≤ (if bit e.flags 0 then stage else shard)) &&
  decide (e.dstOff + e.len ≤ (if bit e.flags 1 then stage else shard))

/-- Where an entry's bytes lie: slot and byte offset. Slot 4's second half is staging slot 1. -/
def entryPlace (staged second : Bool) (off stage : Nat) : Nat × Nat :=
  if staged then (4, (if second then stage else 0) + off) else (3, off)

/-- Bytes of a member's shard or staging while a PERMUTE runs: slot, bytes. -/
def placeGet (m : List (Nat × List Nat)) (slot off n : Nat) : List Nat :=
  ((((m.find? (·.1 == slot)).map (·.2)).getD []).drop off).take n

def placePut (m : List (Nat × List Nat)) (slot off : Nat) (bs : List Nat) : List (Nat × List Nat) :=
  m.map fun e => if e.1 == slot then (slot, e.2.take off ++ bs ++ e.2.drop (off + bs.length)) else e

/-- The raw image bytes of a slot (its rows back to back). -/
def slotImage (w : Work) (slot : Nat) : Work × List Nat :=
  match slotDesc w.f slot with
  | none => (w, [])
  | some d => imageGet w slot d (homeUnit w.f)

/-- What this member's part of a move list does: the entries in list order, those from other members taking the next bytes that
arrived from them. -/
def runMoves (k : Comm) (arr : List CollArrival) (stage : Nat) (es : List MoveEntry) (m : List (Nat × List Nat)) :
    List (Nat × List Nat) × List (Nat × Nat × List Nat) :=
  let out := es.foldl (fun (acc : List (Nat × List Nat) × List (Nat × Nat × List Nat) × List (Nat × Nat)) e =>
    let (m, puts, used) := acc
    if e.dst != k.rank then acc
    else
      let (ss, so) := entryPlace (bit e.flags 0) (bit e.flags 2) e.srcOff stage
      let (ds, dof) := entryPlace (bit e.flags 1) (bit e.flags 3) e.dstOff stage
      let u := vcGet used e.src
      let bs := if e.src == k.rank then placeGet m ss so e.len
        else (((arrivalData arr e.src).drop u).take e.len ++ List.replicate e.len 0).take e.len
      (placePut m ds dof bs, puts ++ [(ds, dof, bs)], vcSet used e.src (u + e.len))) (m, [], [])
  (out.1, out.2.1)

/-- The move list of a PERMUTE. -/
def readMoves (w : Work) : Work × List MoveEntry :=
  match slotDesc w.f 0 with
  | none => (w, [])
  | some a =>
    let (w, t) := loadBox w 0 a (homeUnit w.f) (wholeBox a)
    let bs := t.codes.toList.flatMap (leBytes 4)
    (w, moveList (bs.length / 16) bs)

/-- Write what a PERMUTE put into slots 3 and 4. -/
def storeMoves (w : Work) (m : List (Nat × List Nat)) (puts : List (Nat × Nat × List Nat)) : Work :=
  [3, 4].foldl (fun w slot =>
    let mine := puts.filter (·.1 == slot)
    match slotDesc w.f slot with
    | none => w
    | some d =>
      if mine.isEmpty then w
      else if d.comp == 0 then mine.foldl (fun w p => tierPut w d (homeUnit w.f) p.2.1 p.2.2) w
      else sealImage w d (homeUnit w.f) (fun _ => w.f.panel) (((m.find? (·.1 == slot)).map (·.2)).getD [])) w

/-- Is an entry one that this member takes part in? -/
def entryMine (k : Comm) (e : MoveEntry) : Bool := e.src == k.rank || e.dst == k.rank

/-- How many entries of a list, from its front, can be done with what has arrived: an entry out of another member needs its bytes, one
into another member needs that member's acknowledgement. `used` counts the bytes taken of each rank. -/
def movesReady (k : Comm) (arr : List CollArrival) : List MoveEntry → List (Nat × Nat) → Nat
  | [], _ => 0
  | e :: es, used =>
    if e.src != k.rank && e.dst == k.rank then
      let u := vcGet used e.src
      if u + e.len ≤ (arrivalData arr e.src).length then 1 + movesReady k arr es (vcSet used e.src (u + e.len)) else 0
    else if e.src == k.rank && e.dst != k.rank then
      if arr.any fun a => a.rank == e.dst && !a.refused then 1 + movesReady k arr es used else 0
    else 1 + movesReady k arr es used

/-- Entries of a PERMUTE that earlier steps have carried out (R451). -/
def movesDone (f : Flight) : Nat := f.data.headD 0

/-- Carry out entries of a PERMUTE from the first that is not done: `n` of them. -/
def moveSome (k : Comm) (arr : List CollArrival) (es : List MoveEntry) (n : Nat) (w : Work) : Work :=
  match slotDesc w.f 4 with
  | none => w
  | some g =>
    let (w, b3) := slotImage w 3
    let (w, b4) := slotImage w 4
    let (m, puts) := runMoves k arr (imageBytes w.f.word g / 2) ((es.drop (movesDone w.f)).take n) [(3, b3), (4, b4)]
    let w := storeMoves w m puts
    { w with f := { w.f with data := [movesDone w.f + n] } }

/-- Are all entries of a move list valid (R450)? -/
def movesOk (k : Comm) (f : Flight) (es : List MoveEntry) : Bool :=
  match slotDesc f 3, slotDesc f 4 with
  | some d, some g => es.all (entryOk k.size (imageBytes f.word d) (imageBytes f.word g / 2))
  | _, _ => false

def permuteEffect (k : Comm) (arr : List CollArrival) (w : Work) : Work :=
  let (w, es) := readMoves w
  if !(movesOk k w.f es) then noteCond { w with f := { w.f with noEffect := true } } { status := 2, detail := 0x0A01 }
  else
    let left := es.length - movesDone w.f
    match refusedRank arr with
    | some r =>
      let n := min left ((es.drop (movesDone w.f)).findIdx fun e => (e.src == r || e.dst == r) && entryMine k e)
      let w := moveSome k arr es n w
      noteCond w { status := 2, detail := 0x0A02, aux := movesDone w.f }
    | none => moveSome k arr es left w

/-- The ranks that a PERMUTE exchanges with. -/
def permutePeers (k : Comm) (es : List MoveEntry) : List Nat :=
  (es.filterMap fun e => if e.src == k.rank && e.dst != k.rank then some e.dst
    else if e.dst == k.rank && e.src != k.rank then some e.src else none).eraseDups

/-! The check unit of a COLL (R453). -/

/-- An edge die's unit is bound while a COLL in flight names it. -/
def edgeUnitBound (s : State) (u : Nat) : Bool :=
  s.jig.flights.any fun f => miOpcode f.word == 0x20 && collChk f && collUnit f == u && f.phase != .executed

/-- The containers that an MI has sent to a neighbour, as reads of its destination will find them. -/
def landed (f : Flight) (d : Desc) : List (Nat × List Nat) :=
  if d.tier != 4 then f.remote
  else (List.range (imageBlocks f.word d)).flatMap fun j =>
    let at' := blockSlot d j
    let part (a n : Nat) : List Nat := ((((f.puts.filter (·.1 == a)).getLast?).map (·.2)).getD []).take n
    let first := part at' 64
    [(at', first ++ part (at' + 64) (slotSize (descSealTag d) - 64)), (at', first)]

/-- The binding of an edge die's unit when a COLL issues sets its POLY (14_integrity.md R397). -/
def bindEdge (s : State) (f : Flight) : State :=
  if collChk f then [0, 1, 2, 3].foldl (fun s e => rsetField s (edgeReg .chkCtl e (collUnit f)) 2 1 (collPoly f)) s else s

def collCheck (w : Work) : Work :=
  match slotDesc w.f 3 with
  | none => w
  | some d =>
    if !(collChk w.f) || w.f.noEffect then w
    else
      let w := { sealOuts w with outs := [] }
      let (r, bs) := readTarget { w with f := { w.f with remote := landed w.f d }, blocks := [] } d (homeUnit w.f)
      let w2 := { w with s := r.s }
      let p := collPoly w.f
      let a (id : RegId) : RegAddr := edgeReg id 0 (collUnit w.f)
      let reg := crcRun p (crcInit p) bs
      let s := rset (rset w2.s (a .chkState) reg) (a .chkCnt) (bs.length % 2 ^ 48)
      let val := reg ^^^ crcXorOut p
      if collCompare w.f && val != collExpect w.f then
        let s := rbump s (a .chkCtl) 47 32 1
        let s := if rbit s (a .chkLog) 63 then s
          else rset s (a .chkLog) ((miTag w.f.word % 2 ^ 31) <<< 32 + 1 <<< 63)
        noteCond { w2 with s := s } { status := 0x0C, detail := 0x0810, aux := val }
      else { w2 with s := s }

/-! The steps of COLL. -/

/-- The ranks whose part must have arrived. -/
def neededRanks (s : State) (k : Comm) (f : Flight) : List Nat :=
  match collOp f with
  | 4 => (otherRanks k).filter fun r => r == (k.rank + 1) % k.size || r == (k.rank + k.size - 1) % k.size
  | 5 => permutePeers k (readMoves { s := s, f := f }).2
  | _ => otherRanks k

/-- The effect of a COLL once everything has arrived. -/
def collEffect (op : Nat) (arr : List CollArrival) (w : Work) : Work :=
  match commOf w.s w.f with
  | none => w
  | some k =>
    if !(matched w.f arr) then noteCond { w with f := { w.f with noEffect := true } } { status := 2, detail := 0x0A03 }
    else
      match refusedRank arr, op == 5 with
      | some r, false => noteCond { w with f := { w.f with noEffect := true } } { status := 2, detail := 0x0A02, aux := r }
      | _, _ =>
        let w := match op with
          | 2 => (gatherEffect k arr w).1
          | 3 => exchangeEffect k arr w
          | 4 => passEffect k arr w
          | 5 => permuteEffect k arr w
          | _ => reduceEffect k arr w
        collCheck w

/-- A PERMUTE goes on as far as what has arrived lets it: the entries done stay done (R451, R452). Shards that lie sealed, or at a
neighbour, wait for all of it. -/
def permuteSome (k : Comm) (arr : List CollArrival) (f : Flight) (s : State) : State :=
  let (w, es) := readMoves { s := s, f := f }
  let raw := [3, 4].all fun n => descTest (slotDesc f n) fun d => d.comp == 0
  if !raw || !(movesOk k f es) || !(w.s.fab.asks.isEmpty) || !(matched f arr) || (refusedRank arr).isSome then s
  else
    let r := moveSome k arr es (movesReady k arr (es.drop (movesDone f)) []) w
    putFlight r.s { r.f with mi := f.mi }

/-- The step of a COLL with OP `op`: nothing happens until every part has arrived, but for the entries of a PERMUTE. -/
def collStep (op mi : Nat) (arr : List CollArrival) (s : State) : State :=
  match findFlight s mi with
  | some f =>
    if collOp f != op then s
    else
      match commOf s f with
      | some k =>
        if allArrived (neededRanks s k f) arr then runMi 0x20 [0] false (collEffect op arr) mi s
        else if op == 5 && f.phase == .issued then permuteSome k arr f { s with fab := { s.fab with asks := [] } }
        else s
      | none => s
  | none => s

/-- Does an MI wait for other members: a COLL, or a GATHER_RETAIN that gathers? -/
def waitsMembers (f : Flight) : Bool :=
  (miOpcode f.word == 0x20 || (miOpcode f.word == 0x21 && bits (param f 40 1) 1 0 ≤ 1)) && f.phase == .issued

/-- The time limit elapses (R440): global time has then reached the deadline (log entry 40). A PERMUTE reports the first entry that has
not been acknowledged (R452). -/
def collTimeoutStep (mi : Nat) (s : State) : State :=
  match findFlight s mi with
  | some f =>
    if waitsMembers f then
      let s := { s with time := max s.time f.deadline }
      let s := [0, 1, 2, 3].foldl (fun s e => rbump s (edgeReg .mitStat e 0) 47 32 1) s
      finishWork (noteCond { s := s, f := { f with noEffect := true } }
        { status := 7, aux := if miOpcode f.word == 0x20 && collOp f == 5 then movesDone f else 0 })
    else s
  | none => s

/-! GATHER_RETAIN (10_training.md R289 to R291). -/

def retMode (f : Flight) : Nat := bits (param f 40 1) 1 0
def retRelease (f : Flight) : Bool := bit (param f 40 1) 2
def retPoolNo (f : Flight) : Nat := bits (param f 40 1) 5 3
def retKey (f : Flight) : Nat := param f 44 4

/-- The enabled context of a partition's retain pool: panel and number (R289). -/
def retPool (s : State) (part pool : Nat) : Option (Nat × Nat) :=
  allPanels.findSome? fun p => ((List.range 8).find? fun n =>
    let v := rget s (panelReg .jigRetcfg p n)
    bit v 0 && bits v 3 1 == pool && bits v 15 8 == part).map fun n => (p, n)

def retEntries (s : State) (c : Nat × Nat) : List Retained := s.jig.retained.filter fun r => r.panel == c.1 && r.n == c.2

def retFrames (bytes : Nat) : Nat := ceilDiv bytes 0x10000

/-- Frames of one tensor on the `i`-th of `p` panels (R290). -/
def framesOn (frames p i : Nat) : Nat := if p == 0 then frames else (frames + p - 1 - i) / p

/-- The largest frame count in use on any masked panel (JIG_RETSTATn.USED). -/
def retUsed (s : State) (c : Nat × Nat) : Nat :=
  let p := (setPositions 16 (rfield s (panelReg .jigRetcfg c.1 c.2) 31 16)).length
  ((List.range p).map fun i => ((retEntries s c).map fun r => framesOn (retFrames r.size) p i).sum).foldl max 0

/-- Log a drop (JIG_RETSTATn, JIG_RETDROPn). -/
def logDrop (s : State) (c : Nat × Nat) (key reason : Nat) : State :=
  let s := rbump s (panelReg .jigRetstat c.1 c.2) 47 32 1
  rset s (panelReg .jigRetdrop c.1 c.2) (key % 2 ^ 32 + reason <<< 32 + 1 <<< 63)

def dropRetained (s : State) (c : Nat × Nat) (r : Retained) (reason : Nat) : State :=
  logDrop { s with jig := { s.jig with retained := s.jig.retained.filter (· != r) } } c r.key reason

/-- Does a pool hold within BUDGET and its directory with one more tensor of `bytes` bytes? -/
def retFits (s : State) (c : Nat × Nat) (es : List Retained) (bytes : Nat) : Bool :=
  let v := rget s (panelReg .jigRetcfg c.1 c.2)
  let p := (setPositions 16 (bits v 31 16)).length
  decide (es.length < 256) &&
  (List.range (max p 1)).all fun i =>
    ((es.map fun r => framesOn (retFrames r.size) p i).sum + framesOn (retFrames bytes) p i) ≤ bits v 61 48

/-- The frames of a tensor of `frames` frames: frame f lies on the (f mod P)-th panel of the pool (R290), in the lowest frame of its area
that no entry holds: DESIGN CHOICE, log entry 137. -/
def placeFrames (s : State) (c : Nat × Nat) (frames : Nat) : List (Nat × Nat) :=
  let v := rget s (panelReg .jigRetcfg c.1 c.2)
  let panels := setPositions 16 (bits v 31 16)
  let held := (retEntries s c).flatMap (·.frames)
  (List.range frames).foldl (fun l f =>
    let p := panels.getD (f % panels.length) c.1
    let i := ((List.range (bits v 61 48)).find? fun i => !((held ++ l).contains (p, i))).getD 0
    l ++ [(p, i)]) []

/-- The address of a frame of a pool. -/
def retFrameAddr (s : State) (c : Nat × Nat) (x : Nat × Nat) : Nat :=
  sideboardBase x.1 + (rfield s (panelReg .jigRetcfg c.1 c.2) 45 32 + x.2) * 0x10000

/-- Enter a tensor of `size` bytes that KEEP `mi` begins to retain (R290, R291): the state, and its entry unless it is refused. -/
def retain (s : State) (c : Nat × Nat) (key step size mi : Nat) : State × Option Retained :=
  let s := match (retEntries s c).find? (fun r => r.key == key && r.step == step) with
    | some r => dropRetained s c r 1
    | none => s
  if !(retFits s c [] size) then (logDrop s c key 3, none)
  else
    let s := (retEntries s c).foldl (fun s r =>
      if retFits s c (retEntries s c) size then s else dropRetained s c r 0) s
    let r : Retained := { panel := c.1, n := c.2, key := key, step := step, size := size
                          frames := placeFrames s c (retFrames size), filling := some mi }
    ({ s with jig := { s.jig with retained := s.jig.retained ++ [r] } }, some r)

/-- Write a retained tensor into its frames; its entry is no longer FILLING. -/
def fillRetained (s : State) (part : Nat) (c : Nat × Nat) (r : Retained) (bs : List Nat) : State :=
  let s := (r.frames.zipIdx).foldl (fun s x =>
    recordPut s part (retFrameAddr s c x.1) ((bs.drop (0x10000 * x.2)).take 0x10000)) s
  { s with jig := { s.jig with retained := s.jig.retained.map fun x => if x == r then { x with filling := none } else x } }

/-- Read a retained tensor out of its frames. -/
def readRetained (w : Work) (c : Nat × Nat) (r : Retained) : Work × List Nat :=
  (r.frames.zipIdx).foldl (fun (x : Work × List Nat) f =>
    let a := retFrameAddr x.1.s c f.1
    let g := physGet x.1.s { areaReq x.1.f.part with mi := some x.1.f.mi } a (min 0x10000 (r.size - 0x10000 * f.2)) a
    (noteCond? { x.1 with s := g.s } g.cond, x.2 ++ g.bytes)) (w, [])

/-- The bytes of a gathered tensor. -/
def gatheredSize (d : Desc) : Nat := (tensorImage d (assembly d).codes (assembly d).sc).length

/-- The entry that a KEEP has begun. -/
def keptBy (s : State) (c : Nat × Nat) (mi : Nat) : Option Retained := (retEntries s c).find? (·.filling == some mi)

/-- What makes a GATHER_RETAIN malformed (R289). -/
def faultsGatherRetain (s : State) (f : Flight) : List Nat :=
  let m := retMode f
  on (bits (param f 40 1) 7 6 != 0) 0x0002 ++ unusedFaults f [(41, 41), (48, 63)] ++
  (if m ≤ 1 then slotFaults f [0, 3] [] else slotFaults f [] [0, 3]) ++
  on (m ≤ 1 && descTest (slotDesc f 3) fun d => d.comp != 0) 0x000A ++
  (if m ≤ 1 then copyFaults f ((commOf s f).map (·.size)) 2 else [])

/-- Do the members' gathers agree (16_mitre_mapping.md R438)? A gather is an ALL_GATHER. -/
def gatherMatched (f : Flight) (arr : List CollArrival) : Bool :=
  match slotDesc f 3 with
  | some d => arr.all fun a => a.op == 2 && a.nb == 0 && a.fmt == d.format && a.extents == d.extents
  | none => true

/-- The gather of a KEEP or of a FETCH that misses; none where a member disagrees or refused. -/
def retGather (k : Comm) (arr : List CollArrival) (w : Work) : Work × Option (List Nat) :=
  let no (c : Cond) : Work × Option (List Nat) := (noteCond { w with f := { w.f with noEffect := true } } c, none)
  if !(gatherMatched w.f arr) then no { status := 2, detail := 0x0A03 }
  else
    match refusedRank arr with
    | some r => no { status := 2, detail := 0x0A02, aux := r }
    | none =>
      let (w, bs) := gatherEffect k arr w
      (w, some bs)

/-- The first shards of a KEEP arrive: its entry is FILLING from then on (R290). One that does not fit is refused when the gather is
done. -/
def keepBegin (arr : List CollArrival) (f : Flight) (s : State) : State :=
  match retPool s f.part (retPoolNo f), slotDesc f 3 with
  | some c, some d =>
    if (keptBy s c f.mi).isSome || !(gatherMatched f arr) || (refusedRank arr).isSome || !(retFits s c [] (gatheredSize d)) then s
    else (retain s c (retKey f) (miStep f.word) (gatheredSize d) f.mi).1
  | _, _ => s

def keepEffect (arr : List CollArrival) (w : Work) : Work :=
  match commOf w.s w.f, retPool w.s w.f.part (retPoolNo w.f) with
  | some k, some c =>
    let (w, got) := retGather k arr w
    match got with
    | none => w
    | some bs =>
      let (s, entry) := match keptBy w.s c w.f.mi with
        | some r => (w.s, some r)
        | none => retain w.s c (retKey w.f) (miStep w.f.word) bs.length w.f.mi
      match entry with
      | some r => { w with s := fillRetained s w.f.part c r bs }
      | none => noteCond { w with s := s } { status := 0, detail := 0x0502 }
  | _, _ => w

/-- The entry that a FETCH hits: its key and step, and the size of slot 3 (R290). -/
def retHit (s : State) (f : Flight) (c : Nat × Nat) : Option Retained :=
  match slotDesc f 3 with
  | none => none
  | some d =>
    (retEntries s c).find? fun r => r.key == retKey f && r.step == miStep f.word && r.size == gatheredSize d

def fetchEffect (arr : List CollArrival) (w : Work) : Work :=
  match retPool w.s w.f.part (retPoolNo w.f), slotDesc w.f 3 with
  | some c, some d =>
    (match retHit w.s w.f c with
     | some r =>
       let (w, bs) := readRetained w c r
       let w := storeAssembly w d (putChunk d 1 (assembly d) 0 bs)
       let s := rbump w.s (panelReg .jigRetstat c.1 c.2) 15 0 1
       let s := if retRelease w.f then dropRetained s c r 2 else s
       noteCond { w with s := s } { status := 0, detail := 0x0500 }
     | none =>
       let w := { w with s := rbump w.s (panelReg .jigRetstat c.1 c.2) 31 16 1 }
       if w.f.run.isSome then
         noteCond { w with f := { w.f with noEffect := true } } { status := 2, detail := 0x0402 }
       else
         match commOf w.s w.f with
         | none => w
         | some k =>
           let (w, got) := retGather k arr w
           match got with
           | none => w
           | some _ => noteCond w { status := 0, detail := 0x0501 })
  | _, _ => w

def dropEffect (all : Bool) (w : Work) : Work :=
  match retPool w.s w.f.part (retPoolNo w.f) with
  | none => w
  | some c =>
    let rs := (retEntries w.s c).filter fun r => all || (r.key == retKey w.f && r.step == miStep w.f.word)
    { w with s := rs.foldl (fun s r => dropRetained s c r 2) w.s }

/-- The step of a GATHER_RETAIN in mode `m`: a gather waits for every member's shard; a hit needs none, but waits while its entry is
FILLING. -/
def retStep (m mi : Nat) (arr : List CollArrival) (effect : Work → Work) (s : State) : State :=
  match findFlight s mi with
  | some f =>
    let entry := (retPool s f.part (retPoolNo f)).bind (retHit s f)
    let filling := m == 1 && (match entry with | some r => r.filling.isSome | none => false)
    if retMode f != m || filling then s
    else
      let hit := m == 1 && (f.run.isSome || entry.isSome)
      let ready := m ≥ 2 || hit || (match commOf s f with
        | some k => allArrived (otherRanks k) arr
        | none => false)
      if ready then runMi 0x21 (if hit || m ≥ 2 then [] else [0]) false effect mi s
      else if m == 0 && f.phase == .issued && miOpcode f.word == 0x21 && !arr.isEmpty then keepBegin arr f s
      else s
  | none => s

/-! The meanings. -/

def execAllReduce (mi : Nat) (arr : List CollArrival) (s : State) : Result := .next (whileAwake (collStep 0 mi arr) s)
def execReduceScatter (mi : Nat) (arr : List CollArrival) (s : State) : Result := .next (whileAwake (collStep 1 mi arr) s)
def execAllGather (mi : Nat) (arr : List CollArrival) (s : State) : Result := .next (whileAwake (collStep 2 mi arr) s)
def execAllToAll (mi : Nat) (arr : List CollArrival) (s : State) : Result := .next (whileAwake (collStep 3 mi arr) s)
def execKvPass (mi : Nat) (arr : List CollArrival) (s : State) : Result := .next (whileAwake (collStep 4 mi arr) s)
def execPermute (mi : Nat) (arr : List CollArrival) (s : State) : Result := .next (whileAwake (collStep 5 mi arr) s)
def execGatherRetainKeep (mi : Nat) (arr : List CollArrival) (s : State) : Result :=
  .next (whileAwake (retStep 0 mi arr (keepEffect arr)) s)
def execGatherRetainFetch (mi : Nat) (arr : List CollArrival) (s : State) : Result :=
  .next (whileAwake (retStep 1 mi arr (fetchEffect arr)) s)
def execGatherRetainDrop (mi : Nat) (s : State) : Result := .next (whileAwake (retStep 2 mi [] (dropEffect false)) s)
def execGatherRetainDropAll (mi : Nat) (s : State) : Result := .next (whileAwake (retStep 3 mi [] (dropEffect true)) s)
def execCollTimeout (mi : Nat) (s : State) : Result := .next (whileAwake (collTimeoutStep mi) s)

end Sys2Proof.Machine
end

