-- ==== Sys2Proof/Machine/Pennant.lean ====
section
/-!
DEFINITION. The pennant line (21_clocks_power.md R565 to R575): frames, time, ring measurement, barriers across modules, the
bypass; and the passing of time.
-/
namespace Sys2Proof.Machine

/-! Frames (R566, R567). -/

def penType (f : PenFrame) : Nat := bits (f.bytes.getD 0 0) 3 0
def penOrigin (f : PenFrame) : Nat := f.bytes.getD 1 0
def penCorr (f : PenFrame) : Nat := leAt f.bytes 2 4
def penBody (f : PenFrame) (i n : Nat) : Nat := leAt f.bytes (6 + i) n

/-- The bytes of a frame of this module, with its CRC (R566). -/
def penBytes (bs : List Nat) : List Nat := bs ++ leBytes 2 (crc 3 bs)

def penFrame (type origin corr : Nat) (body : List Nat) : List Nat :=
  penBytes ([type % 16, origin] ++ leBytes 4 corr ++ (body ++ List.replicate 8 0).take 8)

/-- Send a frame: a module whose bypass is closed sends nothing. -/
def penSend (s : State) (bs : List Nat) : State := if s.pen.bypassOpen then emit s (.pennant bs) else s

/-- Forward a frame with `extra` added to CORR, unless its ORIGIN is this module's own position (R566). -/
def penForward (s : State) (f : PenFrame) (extra : Nat) : State :=
  if penOrigin f == s.pen.position then s
  else penSend s (penBytes (f.bytes.take 2 ++ leBytes 4 ((penCorr f + extra) % 2 ^ 32) ++ f.bytes.drop 6))

/-- Take a frame of a type: one whose CRC fails is discarded and counted (R566). -/
def penTake (type : Nat) (f : PenFrame) (act : State → State) (s : State) : State :=
  if f.crc != crc 3 f.bytes then rbump s (halReg .clkPenstat) 55 40 1
  else if penType f == type then act s
  else s

/-! Time (R565, R569, R570). -/

/-- pen.link_trim in 1/16 ns; the object holds ps. -/
def trim16 (s : State) : Int := toSigned 32 (gnum s .penLinkTrim) * 16 / 1000

/-- This module's fixed residence time in 1/16 ns, below 400 ns (R566; log entry 11). -/
def residence16 : Nat := Config.openValue 0 566 % 6400

/-- Note an offset of the local time (R570): the last 16 magnitudes. -/
def noteOffset (p : Pennant) (now : Nat) (d : Int) : Pennant :=
  { p with offsets := (d.natAbs :: p.offsets).take 16, lastTime := now, settle := p.settle - 1 }

/-- Correct the local time by `d` ns (R565): adopted in one step by a module that has just joined, and slewed after that. An
offset above 1 µs raises a fault record. -/
def correctTime (s : State) (master : Int) : State :=
  let d := master - (s.time : Int)
  if !s.pen.adopted then
    let t := master.toNat
    let s := rsetField { s with time := t } (halReg .clkPenstat) 63 63 1
    { s with pen := { noteOffset s.pen t 0 with adopted := true, timed := true, slew := 0, slewTicks := 0 } }
  else
    let s := { s with pen := { noteOffset s.pen s.time d with slew := d } }
    if 1000 < d.natAbs then postFault s { cls := 0x0F, detail := 2 } else s

/-- E of R570 in ns: of a master A is pen.asym_allow and H is 0. -/
def timeError (s : State) : Nat :=
  let a := gnum s .penAsymAllow
  let e := if s.pen.settle == 0 then 0 else 3
  if s.pen.master then a + e
  else s.pen.offsets.foldl max 0 + a + e + (s.time - s.pen.lastTime) / 1000000

/-- 1 ns of the local clock passes: a pending offset is slewed at 1 ns in 10,000 (R565; log entry 8). Time never runs
backwards. -/
def tick (s : State) : State :=
  let p := s.pen
  if p.slew == 0 then { s with time := s.time + 1, pen := { p with slewTicks := 0 } }
  else if p.slewTicks + 1 < 10000 then { s with time := s.time + 1, pen := { p with slewTicks := p.slewTicks + 1 } }
  else if 0 < p.slew then { s with time := s.time + 2, pen := { p with slew := p.slew - 1, slewTicks := 0 } }
  else { s with pen := { p with slew := p.slew + 1, slewTicks := 0 } }

/-- A TIME frame (R569). A master that hears another module's TIME is master no longer (R565; log entry 41). A module outside the ring
only listens (R573; log entry 41). -/
def timeFrame (f : PenFrame) (s : State) : State :=
  if penOrigin f == s.pen.position || !s.pen.bypassOpen then s
  else
    let s := { s with pen := { s.pen with master := false } }
    let t := (16 * (penBody f 0 8 : Int) + penCorr f + s.pen.delay + trim16 s) / 16
    let s := correctTime s t
    penForward s f (((s.pen.delay : Int) + trim16 s + residence16).toNat)

def sendTime (s : State) : State :=
  if s.pen.master then penSend s (penFrame 1 s.pen.position 0 (leBytes 8 s.time)) else s

/-! Measurement (R568). -/

def sendMeasure (s : State) : State :=
  if s.pen.master then penSend s (penFrame 6 s.pen.position 0 [0]) else s

/-- A MEASURE frame: on its return the master has the mean link delay of hops + 1 links (log entry 41), else its residence time and
a hop are added. -/
def measureFrame (f : PenFrame) (residence elapsed : Nat) (s : State) : State :=
  let hops := penBody f 0 1
  if penOrigin f == s.pen.position then
    if s.pen.master then
      let size := hops + 1
      let l := (elapsed - penCorr f) / size
      let s := { s with pen := { s.pen with delay := l, ringSize := size } }
      penSend s (penFrame 7 s.pen.position 0 (leBytes 4 l ++ [size]))
    else s
  else
    penSend s (penBytes (f.bytes.take 2 ++ leBytes 4 ((penCorr f + residence) % 2 ^ 32) ++
      [(hops + 1) % 256] ++ f.bytes.drop 7))

def linkFrame (f : PenFrame) (s : State) : State :=
  if penOrigin f == s.pen.position then s
  else penForward { s with pen := { s.pen with delay := penBody f 0 4, ringSize := penBody f 4 1 } } f 0

/-! Barriers of SCOPE 1 (R571, R572). -/

def barId (f : Flight) : Nat := param f 40 1
def barCount (f : Flight) : Nat := param f 41 2
def barScope (f : Flight) : Nat := param f 43 1
def barTimeout (f : Flight) : Nat := param f 44 4

/-- The participants of this module in a group and ID, waiting, oldest first; `data` of a participant holds its group, and a second
entry once it has asked to withdraw. -/
def penWaiting (s : State) (group id : Nat) : List Flight :=
  s.jig.flights.filter fun f => miOpcode f.word == 0x42 && barScope f == 1 && f.phase == .waiting && barId f == id &&
    f.data.head? == some group

/-- A MI ends with a condition, or with none. -/
def endMi (s : State) (f : Flight) (c : Option Cond) : State := finishWork (noteCond? { s := s, f := f } c)

/-- RELEASE completes every waiting participant of its group and ID (R571). -/
def releaseGroup (s : State) (group id : Nat) : State := (penWaiting s group id).foldl (fun s f => endMi s f none) s

/-- WITHDRAWN completes one participant of this module: with N = 0xFFFF the newest that has not withdrawn, DENIED; else the oldest
that has, TIMEOUT (R571, R572; log entry 42). -/
def withdrawnHere (s : State) (group id n : Nat) : State :=
  let ws := penWaiting s group id
  if n == 0xFFFF then
    match (ws.filter fun f => f.data.length == 1).getLast? with
    | some f => endMi s f (some { status := 2, detail := 0x0F02 })
    | none => s
  else
    match ws.find? (fun f => f.data.length == 2) with
    | some f => endMi s f (some { status := 7 })
    | none => s

def barBody (group id target n count : Nat) : List Nat := leBytes 2 group ++ [id, target] ++ leBytes 2 n ++ leBytes 2 count

/-- The master sends RELEASE, and takes it itself. -/
def masterRelease (s : State) (group id : Nat) : State :=
  let s := { s with pen := { s.pen with counts := s.pen.counts.filter fun c => !(c.group == group && c.id == id) } }
  releaseGroup (penSend s (penFrame 4 s.pen.position 0 (barBody group id 0 0 0))) group id

/-- The master sends WITHDRAWN to a position, or takes it itself. -/
def masterWithdrawn (s : State) (group id target n : Nat) : State :=
  if target == s.pen.position then withdrawnHere s group id n
  else penSend s (penFrame 5 s.pen.position 0 (barBody group id target n 0))

/-- The master counts an arrival (R571). -/
def masterArrive (s : State) (origin group id n count : Nat) : State :=
  let c := (s.pen.counts.find? fun c => c.group == group && c.id == id).getD { group := group, id := id, need := count }
  if c.need != count then masterWithdrawn s group id origin 0xFFFF
  else
    let c := { c with origins := c.origins ++ List.replicate n origin }
    if c.need ≤ c.origins.length then masterRelease s group id
    else { s with pen := { s.pen with counts := upsert (fun x => x.group == group && x.id == id) c s.pen.counts } }

/-- The master lowers the count for a WITHDRAW that comes before its RELEASE, and ignores any other (R572). -/
def masterWithdraw (s : State) (origin group id : Nat) : State :=
  match s.pen.counts.find? (fun c => c.group == group && c.id == id && c.origins.contains origin) with
  | none => s
  | some c =>
    let rest := c.origins.erase origin
    let others := s.pen.counts.filter fun x => !(x.group == group && x.id == id)
    let s := { s with pen := { s.pen with
      counts := if rest.isEmpty then others else others ++ [{ c with origins := rest }] } }
    masterWithdrawn s group id origin 1

/-- Send an arrival or a withdrawal of this module to the master, which may be this module. -/
def barrierFrame (s : State) (type group id count : Nat) : State :=
  if s.pen.master then
    (if type == 2 then masterArrive s s.pen.position group id 1 count else masterWithdraw s s.pen.position group id)
  else penSend s (penFrame type s.pen.position 0 (barBody group id 0 1 count))

/-- ARRIVE and WITHDRAW of another module go on round the ring, as every frame does (R566); the master acts on them. -/
def arriveFrame (f : PenFrame) (s : State) : State :=
  if penOrigin f == s.pen.position then s
  else
    let s := penForward s f 0
    if s.pen.master then masterArrive s (penOrigin f) (penBody f 0 2) (penBody f 2 1) (penBody f 4 2) (penBody f 6 2) else s

def withdrawFrame (f : PenFrame) (s : State) : State :=
  if penOrigin f == s.pen.position then s
  else
    let s := penForward s f 0
    if s.pen.master then masterWithdraw s (penOrigin f) (penBody f 0 2) (penBody f 2 1) else s

def releaseFrame (f : PenFrame) (s : State) : State :=
  if penOrigin f == s.pen.position then s
  else penForward (releaseGroup s (penBody f 0 2) (penBody f 2 1)) f 0

def withdrawnFrame (f : PenFrame) (s : State) : State :=
  if penOrigin f == s.pen.position then s
  else
    let s := if penBody f 3 1 == s.pen.position then
        withdrawnHere s (penBody f 0 2) (penBody f 2 1) (penBody f 4 2)
      else s
    penForward s f 0

/-! Joining, leaving, the master (R565, R573 to R575). -/

/-- The bypass opens: the module is in the ring at a position, and will adopt the master's time (R573). -/
def openBypass (position : Nat) (s : State) : State :=
  if gnum s .penBypass == 0 && !s.pen.bypassOpen && s.pwr.stage == 6 then
    { s with pen := { s.pen with
      locked := true, bypassOpen := true, position := position, adopted := false, lastTime := s.time } }
  else s

/-- The bypass closes: the module has left the ring (R574). -/
def closeBypass (s : State) : State :=
  { s with pen := { s.pen with bypassOpen := false, position := 0xFF, master := false, adopted := false, slew := 0
                               counts := [] } }

/-- 100 µs without TIME frames: the module with the next lowest pair becomes master, from its own time (R575), or from 0 when the ring
forms and it holds none (R565). -/
def masterLoss (next : Bool) (s : State) : State :=
  if s.pen.bypassOpen && !s.pen.master && next && gnum s .penMasterEnable == 1 then
    { s with time := if s.pen.timed then s.time else 0
             pen := { s.pen with master := true, adopted := true, timed := true, slew := 0, counts := [] } }
  else s

/-! The meanings. -/

def execPenTime (f : PenFrame) (s : State) : Result := .next (penTake 1 f (timeFrame f) s)
def execPenTimeSend (s : State) : Result := .next (sendTime s)
def execArrive (f : PenFrame) (s : State) : Result := .next (penTake 2 f (arriveFrame f) s)
def execWithdraw (f : PenFrame) (s : State) : Result := .next (penTake 3 f (withdrawFrame f) s)
def execPenRelease (f : PenFrame) (s : State) : Result := .next (penTake 4 f (releaseFrame f) s)
def execWithdrawn (f : PenFrame) (s : State) : Result := .next (penTake 5 f (withdrawnFrame f) s)
def execMeasure (f : PenFrame) (residence elapsed : Nat) (s : State) : Result :=
  .next (penTake 6 f (measureFrame f residence elapsed) s)
def execMeasureSend (s : State) : Result := .next (sendMeasure s)
def execLink (f : PenFrame) (s : State) : Result := .next (penTake 7 f (linkFrame f) s)
def execPenMasterLoss (next : Bool) (s : State) : Result := .next (masterLoss next s)
def execBypassOpen (position : Nat) (s : State) : Result := .next (openBypass position s)

/-- A write of CLOSE is itself PEN_BYPASS_WRITE's; here the cause has come about (R574). -/
def execBypassClose (cause : BypassCause) (s : State) : Result :=
  .next (if cause == .write && gnum s .penBypass != 1 then s
    else closeBypass (if cause == .lockLoss then { s with pen := { s.pen with locked := false } } else s))

end Sys2Proof.Machine
end

