-- ==== Sys2Proof/Machine/Sync.lean ====
section
/-!
DEFINITION. The control and synchronisation MIs (05_macro_instructions.md R146 to R151; 21_clocks_power.md R571, R572): NOP, WAIT,
SIGNAL, BARRIER and their releases and limits.
-/
namespace Sys2Proof.Machine

def faultsNop (f : Flight) : List Nat := unusedFaults f [(40, 63)] ++ slotFaults f [] []

/-! Semaphores (R147 to R150). -/

def semAddr (f : Flight) : Nat := param f 40 8
def semValue (f : Flight) : Nat := param f 48 4

/-- An unaligned ADDR is an alignment fault (log entry 43); an address beyond 48 bits is never translated. -/
def semFaults (f : Flight) : List Nat := on (semAddr f % 4 != 0) 0x0005

def faultsWait (f : Flight) : List Nat := unusedFaults f [(56, 63)] ++ slotFaults f [] [] ++ semFaults f
def faultsSignal (f : Flight) : List Nat := unusedFaults f [(52, 63)] ++ slotFaults f [] [] ++ semFaults f

/-- Where a semaphore lies: in this device, or with a neighbour; or the condition that refuses it. -/
inductive SemPlace where
  | here (s : State) (pa : Nat)
  | remote (s : State)
  | refused (s : State) (c : Cond)

def semPlace (s : State) (f : Flight) (write : Bool) : SemPlace :=
  let va := semAddr f
  if 2 ^ 48 ≤ va then .refused s { status := 2, detail := 0x0C01, aux := va }
  else
    match translate s f.part va write with
    | (.error d, s) => .refused s { status := 2, detail := d, aux := va }
    | (.ok pa, s) => if regionOf pa == .neighbor then .remote s else .here s pa

/-- Is (word − VALUE) mod 2^32, read signed, zero or greater (R147)? -/
def semMet (word value : Nat) : Bool := (word + 2 ^ 32 - value) % 2 ^ 32 < 2 ^ 31

/-- A WAIT looks at its word: it completes when the condition holds, waits when not; a neighbour's word is asked for. -/
def waitLook (s : State) (f : Flight) : State :=
  match semPlace s f false with
  | .refused s c => endMi s f (some c)
  | .here s pa =>
    let g := physGet s { part := some f.part, byVa := true } pa 4 (semAddr f)
    if g.cond.isSome then endMi g.s f g.cond
    else if semMet (leVal g.bytes) (semValue f) then endMi g.s f none
    else putFlight g.s { f with phase := .waiting }
  | .remote s =>
    if f.conds.any (fun c => c.status != 0) then endMi s f none
    else
      match f.remote with
      | (_, bs) :: _ =>
        if bs.any (255 < ·) then endMi s f (some { status := 6 })
        else if semMet (leVal bs) (semValue f) then endMi s f none
        else putFlight s { f with phase := .waiting, remote := [] }
      | [] =>
        if awaits s f.mi then s
        else remoteAccess (putFlight s { f with phase := .waiting }) f 0 (semAddr f) 4 []

def waitStep (mi : Nat) (s : State) : State :=
  match findFlight s mi with
  | some f => if f.phase == .issued && miOpcode f.word == 0x40 then waitLook s f else s
  | none => s

/-- A waiting WAIT reads its word again (R149). -/
def waitReleaseStep (mi : Nat) (s : State) : State :=
  match findFlight s mi with
  | some f => if f.phase == .waiting && miOpcode f.word == 0x40 then waitLook s f else s
  | none => s

/-- The limit of a WAIT elapses: global time has then reached it (log entry 40). -/
def waitTimeoutStep (mi : Nat) (s : State) : State :=
  match findFlight s mi with
  | some f =>
    if miOpcode f.word == 0x40 && (f.phase == .waiting || f.phase == .issued) && f.deadline != 0 then
      endMi { s with time := max s.time f.deadline } f (some { status := 7 })
    else s
  | none => s

/-- Send an ATOMIC ADD32 to a neighbour's word (15_azoer.md R411). -/
def remoteAdd (s : State) (f : Flight) (va add : Nat) : State :=
  match translate s f.part va true with
  | (.error d, s) => condFor s (some f.mi) { status := 2, detail := d, aux := va }
  | (.ok pa, s) =>
    match sendNeighbor s (some f.mi) none (some f.part) 4 pa va 4 (leBytes 4 add) with
    | (s, some c) => condFor s (some f.mi) c
    | (s, none) => s

/-- SIGNAL, once every earlier MI of its queue has completed (R148). -/
def signalStep (mi : Nat) (s : State) : State :=
  match findFlight s mi with
  | some f =>
    if f.phase == .issued && miOpcode f.word == 0x41 && (earlier s f).isEmpty then
      match semPlace s f true with
      | .refused s c => endMi s f (some c)
      | .remote s =>
        let s := putFlight s { f with phase := .executed }
        remoteAdd s f (semAddr f) (semValue f)
      | .here s pa =>
        let r : Req := { part := some f.part, byVa := true }
        let g := physGet s r pa 4 (semAddr f)
        if g.cond.isSome then endMi g.s f g.cond
        else
          let h := physPut g.s r pa (leBytes 4 ((leVal g.bytes + semValue f) % 2 ^ 32)) (semAddr f)
          endMi h.s f h.cond
    else s
  | none => s

/-! BARRIER. -/

def faultsBarrier (f : Flight) : List Nat :=
  on (1 < barScope f) 0x0001 ++ unusedFaults f [(48, 63)] ++ slotFaults f [] []

/-- The arrivals at a barrier of SCOPE 0 of a partition. -/
def barArrivals (s : State) (part id : Nat) : List Arrival := s.jig.arrivals.filter fun a => a.part == part && a.id == id

def dropArrivals (s : State) (p : Arrival → Bool) : State :=
  { s with jig := { s.jig with arrivals := s.jig.arrivals.filter fun a => !(p a) } }

/-- A participant of SCOPE 0 arrives: one whose COUNT differs from that in force is refused as R571 says of SCOPE 1 (log entry
44). -/
def arriveHere (s : State) (f : Flight) : State :=
  match barArrivals s f.part (barId f) with
  | a :: _ =>
    if a.count != barCount f then endMi s f (some { status := 2, detail := 0x0F02 })
    else putFlight { s with jig := { s.jig with arrivals := s.jig.arrivals ++
      [{ part := f.part, id := barId f, mi := f.mi, count := barCount f }] } } { f with phase := .waiting }
  | [] => putFlight { s with jig := { s.jig with arrivals := s.jig.arrivals ++
      [{ part := f.part, id := barId f, mi := f.mi, count := barCount f }] } } { f with phase := .waiting }

/-- BARRIER, once every earlier MI of its queue has completed: the arrival is registered (R151, R571). -/
def barrierStep (mi : Nat) (s : State) : State :=
  match findFlight s mi with
  | some f =>
    if f.phase == .issued && miOpcode f.word == 0x42 && (earlier s f).isEmpty then
      if barScope f == 1 then
        let g := pnum s .partitionPenGroup f.part
        barrierFrame (putFlight s { f with phase := .waiting, data := [g] }) 2 g (barId f) (barCount f)
      else arriveHere s f
    else s
  | none => s

/-- COUNT participants have arrived at a barrier of SCOPE 0: all of them complete. -/
def barrierCompleteStep (mi : Nat) (s : State) : State :=
  match findFlight s mi with
  | some f =>
    if f.phase == .waiting && miOpcode f.word == 0x42 && barScope f == 0 then
      let as' := barArrivals s f.part (barId f)
      if barCount f ≤ as'.length then
        (as'.take (max 1 (barCount f))).foldl (fun s a =>
          let s := dropArrivals s (· == a)
          match findFlight s a.mi with
          | some g => endMi s g none
          | none => s) s
      else s
    else s
  | none => s

/-- The limit of a BARRIER elapses (R151, R572): a participant of SCOPE 0, or one that has not arrived, ends with TIMEOUT; one of
SCOPE 1 asks to withdraw and waits on. -/
def barrierTimeoutStep (mi : Nat) (s : State) : State :=
  match findFlight s mi with
  | some f =>
    if miOpcode f.word == 0x42 && (f.phase == .waiting || f.phase == .issued) && f.deadline != 0 then
      let s := { s with time := max s.time f.deadline }
      if barScope f == 1 && f.phase == .waiting then
        if f.data.length == 1 then
          barrierFrame (putFlight s { f with data := f.data ++ [1] }) 3 (f.data.headD 0) (barId f) (barCount f)
        else s
      else endMi (dropArrivals s (·.mi == mi)) f (some { status := 7 })
    else s
  | none => s

/-! The meanings. -/

def execNop (mi : Nat) (s : State) : Result := .next (whileRunning mi (runMi 0x00 [] false id mi) s)
def execWait (mi : Nat) (s : State) : Result := .next (whileRunning mi (waitStep mi) s)
def execWaitRelease (mi : Nat) (s : State) : Result := .next (whileRunning mi (waitReleaseStep mi) s)
def execWaitTimeout (mi : Nat) (s : State) : Result := .next (whileRunning mi (waitTimeoutStep mi) s)
def execSignal (mi : Nat) (s : State) : Result := .next (whileRunning mi (signalStep mi) s)
def execBarrier (mi : Nat) (s : State) : Result := .next (whileRunning mi (barrierStep mi) s)
def execBarrierComplete (mi : Nat) (s : State) : Result := .next (whileRunning mi (barrierCompleteStep mi) s)
def execBarrierTimeout (mi : Nat) (s : State) : Result := .next (whileRunning mi (barrierTimeoutStep mi) s)

end Sys2Proof.Machine
end

