-- ==== Sys2Proof/Machine/Ingest.lean ====
section
/-!
DEFINITION. The ingest pipeline (17_media_ingest.md R471 to R486) and INGEST_PULL (R481).
-/
namespace Sys2Proof.Machine

/-! The pipe block (R476). -/

def ppOrdered (b : List Nat) : Bool := bit (b.getD 0 0) 0
def ppFactor (b : List Nat) : Bool := bit (b.getD 0 0) 1
def ppLevels (b : List Nat) : Nat := bits (b.getD 0 0) 4 2
def ppT1 (b : List Nat) : Bool := bit (b.getD 0 0) 5
def ppChroma (b : List Nat) : Nat := bits (b.getD 1 0) 1 0
def ppDepth10 (b : List Nat) : Bool := bit (b.getD 1 0) 2
def ppFmt (b : List Nat) : Fmt := (fmtOfCode (bits (b.getD 2 0) 3 0)).getD .fp32
def ppF (b : List Nat) : Nat := b.getD 3 0
def ppIn (b : List Nat) : Nat × Nat := (leAt b 4 2, leAt b 6 2)
def ppOut (b : List Nat) : Nat × Nat := (leAt b 8 2, leAt b 10 2)
def ppPt (b : List Nat) : Nat := b.getD 12 0
def ppPh (b : List Nat) : Nat := b.getD 13 0
def ppPw (b : List Nat) : Nat := b.getD 14 0
def ppConceal (b : List Nat) : Nat := b.getD 15 0
def ppParams (b : List Nat) : Nat := leAt b 16 6
def ppSlotBase (b : List Nat) : Nat := leAt b 22 6
def ppSlots (b : List Nat) : Nat := 2 ^ b.getD 28 0
def ppReqs (b : List Nat) : Nat := 2 ^ b.getD 29 0
def ppSkips (b : List Nat) : Nat := 2 ^ b.getD 30 0
def ppSlotBytes (b : List Nat) : Nat := leAt b 32 4
def ppPanels (b : List Nat) : List Nat := setPositions 16 (leAt b 36 2)
def ppBenches (b : List Nat) : List Nat := setPositions 32 (leAt b 38 4)
def ppReqRing (b : List Nat) : Nat := leAt b 42 6
def ppSpareList (b : List Nat) : Nat := leAt b 48 6
def ppSpares (b : List Nat) : Nat := leAt b 54 2
def ppSkipLog (b : List Nat) : Nat := leAt b 56 6
def ppLowWater (b : List Nat) : Nat := leAt b 62 2
def ppHyst (b : List Nat) : Nat := leAt b 64 2

/-- Extents of the pyramid's levels (R473). -/
def levelSizes (b : List Nat) : List (Nat × Nat) :=
  (List.range (ppLevels b - 1)).foldl (fun (l : List (Nat × Nat)) _ =>
    let (w, h) := l.getLastD (0, 0)
    l ++ [if ppFactor b then (2 * w / 3, 2 * h / 3) else (w / 2, h / 2)]) [ppOut b]

def ppFeatures (b : List Nat) : Nat := 3 * ppPt b * ppPh b * ppPw b

/-- Bytes of one level (R474). -/
def levelBytes (b : List Nat) (e : Nat × Nat) : Nat :=
  (e.1 / max 1 (ppPw b)) * (e.2 / max 1 (ppPh b)) * (ppF b / max 1 (ppPt b)) * rowBytes (ppFmt b) (ppFeatures b)

/-- The levels with their offsets in a slot. -/
def levelOffsets (b : List Nat) : List ((Nat × Nat) × Nat) :=
  ((levelSizes b).foldl (fun (acc : List ((Nat × Nat) × Nat) × Nat) e =>
    (acc.1 ++ [(e, roundUp acc.2 64)], roundUp acc.2 64 + levelBytes b e)) ([], 0)).1

/-- The sample size of R474. -/
def sampleBytes (b : List Nat) : Nat :=
  (levelOffsets b).foldl (fun n l => max n (l.2 + levelBytes b l.1)) 0

/-- A pipe block within its ranges (R474 to R476). -/
def pipeBlockOk (b : List Nat) : Bool :=
  let fmt := bits (b.getD 2 0) 3 0
  bits (b.getD 0 0) 7 6 == 0 && bits (b.getD 1 0) 7 3 == 0 && bits (b.getD 2 0) 7 4 == 0 && b.getD 31 0 == 0 &&
  (b.drop 66).all (· == 0) &&
  1 ≤ ppLevels b && ppLevels b ≤ 6 && ppChroma b ≤ 2 && fmt ≤ 3 && 1 ≤ ppF b && ppF b ≤ 64 &&
  [ppPt b, ppPh b, ppPw b].all (fun k => 1 ≤ k && k ≤ 32) &&
  (ppIn b).1 != 0 && (ppIn b).2 != 0 && b.getD 28 0 ≤ 12 && 4 ≤ b.getD 29 0 && b.getD 29 0 ≤ 12 && 4 ≤ b.getD 30 0 &&
  b.getD 30 0 ≤ 12 && ppSlotBytes b % 64 == 0 && sampleBytes b ≤ ppSlotBytes b && ppSpares b ≤ 4096 &&
  (!(ppT1 b) || (ppBenches b).isEmpty) && ppF b % ppPt b == 0 &&
  (levelSizes b).all (fun e => e.1 != 0 && e.2 != 0 && e.1 % ppPw b == 0 && e.2 % ppPh b == 0)

/-- Places in the device-physical map where a slot is written (R480); none for a logical bench without a physical one. -/
def slotTargets (s : State) (b : List Nat) (slot : Nat) : List (Nat × Option Nat) :=
  let off := ppSlotBase b + slot * ppSlotBytes b
  if ppT1 b then (ppPanels b).map fun p => (p, some (sideboardBase p + off))
  else (ppPanels b).flatMap fun p => (ppBenches b).map fun l =>
    (p, if off + ppSlotBytes b ≤ 0x400000 then (physOf s p l).map fun k => drawerBase p k + off else none)

/-- The requests of a pipe: master 3 with the pipe's partition (11_drawers_tiers.md R299). -/
def ingReq (part : Nat) : Req := { part := some part, master := 3 }

/-- Do all slots lie in regions or slices that grant the partition (ING_PIPEn)? -/
def slotsGranted (s : State) (part : Nat) (b : List Nat) : Bool :=
  (List.range (ppSlots b)).all fun k => (slotTargets s b k).all fun t =>
    match t.2 with
    | some a => (physRefusal s (ingReq part) a (ppSlotBytes b) true).isNone
    | none => false

/-! Pipes. -/

def ingReg (id : RegId) (n : Nat) : RegAddr := { id := id, loc := .ingest, i := n }

def findPipe (s : State) (n : Nat) : Option IngPipe := s.med.pipes.find? (·.n == n)

def putPipe (s : State) (p : IngPipe) : State :=
  { s with med := { s.med with pipes := upsert (fun x => x.n == p.n) p s.med.pipes } }

def pipePart (s : State) (n : Nat) : Nat := rfield s (ingReg .ingPipe n) 15 8
def pipeStopped (s : State) (n : Nat) : Bool := rbit s (ingReg .ingQstat n) 32

/-- Requests in hand at once (R478). -/
def ingHold : Nat := 16

/-- Read requests up to 16 in hand. -/
def ingFillGo : Nat → Nat → State → State
  | 0, _, s => s
  | fuel + 1, n, s =>
    match findPipe s n with
    | none => s
    | some p =>
      let size := ppReqs p.block
      let ptr := ingReg .ingRptr n
      let head := rfield s ptr 31 16
      if pipeStopped s n || ingHold ≤ p.reqs.length || head % size == rfield s ptr 15 0 % size then s
      else
        let g := partGet s (ingReq (pipePart s n)) (pipePart s n) (ppReqRing p.block + 32 * (head % size)) 32
        let s := rsetField g.s ptr 31 16 ((head + 1) % size)
        ingFillGo fuel n (putPipe s { p with
          nextIndex := (p.nextIndex + 1) % 2 ^ 16
          reqs := p.reqs ++ [{ index := p.nextIndex, id := leAt g.bytes 0 8, bytes := g.bytes }] })

def ingFill (n : Nat) (s : State) : State := ingFillGo ingHold n s

/-- Read requests, from a neighbour too: where the ring lies there, the pipe goes on when they have arrived. -/
def ingRead (n : Nat) (s : State) : State := viaNeighbor (pipePart s n) (ingFill n) s

/-- A pipe that is not enabled holds nothing. -/
def dropPipe (s : State) (n : Nat) : State := { s with med := { s.med with pipes := s.med.pipes.filter (·.n != n) } }

/-- Enable a pipe: the pipe and parameter blocks are read and checked (R476, R477). -/
def enablePipe (a : RegAddr) (v : Nat) (s : State) : State :=
  let n := a.i
  let part := rfield s a 15 8
  let g := partGet s (ingReq part) part (rfield s a 57 16 * 64) 128
  if !g.s.fab.asks.isEmpty then g.s
  else if g.cond.isSome || !(pipeBlockOk g.bytes) || !(slotsGranted g.s part g.bytes) then refuseEnable (dropPipe g.s n) a v
  else
    let h := partGet g.s (ingReq part) part (ppParams g.bytes) 12428
    if !h.s.fab.asks.isEmpty then h.s
    else if h.cond.isSome then refuseEnable (dropPipe h.s n) a v
    else
      let p := (findPipe h.s n).getD { n := n }
      putPipe (rsetField h.s a 0 0 1) { p with block := g.bytes, params := h.bytes }

/-- Enable a pipe, at once or when its blocks have arrived from a neighbour, and read its first requests. -/
def enableIng (a : RegAddr) (v : Nat) (s : State) : State :=
  ingRead a.i (enableVia (rfield s a 15 8) (fun s => rsetField s a 0 0 0) (enablePipe a v) a v s)

/-- A write of ING_PIPEn (R476). -/
def ingPipeWrite (s : State) (a : RegAddr) (v : Nat) : State :=
  let s := cancelEnable (plainWrite s a v) a
  if rbit s a 0 then enableIng a v s else dropPipe s a.i

/-- A write of ING_RPTRn: requests are appended (R478). -/
def ingRptrWrite (s : State) (a : RegAddr) (v : Nat) : State := ingRead a.i (plainWrite s a v)

/-- A write of ING_QSTATn: RESUME clears STOPPED (R485). -/
def ingQstatWrite (s : State) (a : RegAddr) (v : Nat) : State :=
  let s := plainWrite s a v
  if bit v 33 then ingRead a.i (rsetField s a 32 32 0) else s

/-! Pictures delivered (R479). -/

def reqSource0 (bs : List Nat) : Bool := bs.getD 8 0 == 0
def reqContext (bs : List Nat) : Nat := bits (bs.getD 9 0) 5 0

/-- The request in hand that names a context's sample. -/
def reqFor (p : IngPipe) (ctx id : Nat) : Option IngReq :=
  p.reqs.find? fun r => reqSource0 r.bytes && reqContext r.bytes == ctx && leAt r.bytes 0 8 == id

def putReq (p : IngPipe) (r : IngReq) : IngPipe := { p with reqs := upsert (fun x => x.index == r.index) r p.reqs }

/-- Offer a picture with its count of concealed blocks to a pipe: taken, discarded, or none where the context waits. -/
def ingOffer (s : State) (n ctx id : Nat) (pic : Picture × Nat) : Option State :=
  match findPipe s n with
  | none => none
  | some p =>
    match reqFor p ctx id with
    | some r => some (if r.pics.length < ppF p.block then putPipe s (putReq p { r with pics := r.pics ++ [pic] }) else s)
    | none => if p.done.contains (ctx, id) then some s else none

/-- A TYPE 0x02 record, or END, of a context reaches the request in hand. -/
def ingNote (s : State) (n ctx id : Nat) (f : IngReq → IngReq) : State :=
  match findPipe s n with
  | none => s
  | some p =>
    match reqFor p ctx id with
    | some r => putPipe s (putReq p (f r))
    | none => s

/-! Pictures in memory (R464). -/

/-- Extents of a chroma plane. -/
def chromaSize (chroma w h : Nat) : Nat × Nat :=
  match chroma with
  | 0 => (ceilDiv w 2, ceilDiv h 2)
  | 1 => (ceilDiv w 2, h)
  | _ => (w, h)

/-- Extents of a picture's planes: luma, Cb, Cr; CHROMA 3 is monochrome. -/
def planeSizes (chroma w h : Nat) : List (Nat × Nat) :=
  if chroma == 3 then [(w, h)] else [(w, h), chromaSize chroma w h, chromaSize chroma w h]

def sampleWidth (depth10 : Bool) : Nat := if depth10 then 2 else 1

/-- The rows of a picture's planes: byte offset in the layout of R464, index of the first sample, samples. -/
def planarRows (depth10 : Bool) (chroma w h : Nat) : List (Nat × Nat × Nat) :=
  ((planeSizes chroma w h).foldl (fun (acc : List (Nat × Nat × Nat) × Nat × Nat) e =>
    let row := roundUp (e.1 * sampleWidth depth10) 64
    (acc.1 ++ (List.range e.2).map (fun y => (acc.2.1 + y * row, acc.2.2 + y * e.1, e.1)),
      acc.2.1 + e.2 * row, acc.2.2 + e.1 * e.2)) ([], 0, 0)).1

/-- Bytes of a picture in the layout of R464. -/
def planarBytes (depth10 : Bool) (chroma w h : Nat) : Nat :=
  ((planeSizes chroma w h).map fun e => roundUp (e.1 * sampleWidth depth10) 64 * e.2).sum

/-- The samples in an image of that layout. -/
def planarSamples (depth10 : Bool) (chroma w h : Nat) (bs : List Nat) : List Nat :=
  let arr := bs.toArray
  (planarRows depth10 chroma w h).flatMap fun r => (List.range r.2.2).map fun x =>
    if depth10 then (arr.getD (r.1 + 2 * x) 0 + 256 * arr.getD (r.1 + 2 * x + 1) 0) % 1024 else arr.getD (r.1 + x) 0

/-! The arithmetic of stages 1 to 5 (R472 to R475). -/

/-- rne32(p + rne32(a × rne32(q − p))) of R267. -/
def lerp32 (p q a : Val) : Val := rne32 (p.add (rne32 (a.mul (rne32 (q.sub p)))))

/-- The bilinear rule of R267 at (u, v). -/
def bilinear (get : Int → Int → Val) (u v : Val) : Val :=
  let ix := floorOr u
  let iy := floorOr v
  let ax := rne32 (u.sub (Val.ofInt ix))
  let ay := rne32 (v.sub (Val.ofInt iy))
  lerp32 (lerp32 (get ix iy) (get (ix + 1) iy) ax) (lerp32 (get ix (iy + 1)) (get (ix + 1) (iy + 1)) ax) ay

def clampPos (i : Int) (n : Nat) : Nat := if i < 0 then 0 else min i.toNat (n - 1)

/-- A plane of values. -/
structure Plane where
  w : Nat
  h : Nat
  vals : Array Val
deriving Inhabited

/-- The element at a position, the nearest of the plane beyond its edges (EDGE 1). -/
def planeAt (p : Plane) (x y : Int) : Val := p.vals.getD (clampPos y p.h * p.w + clampPos x p.w) Val.zero

def planeOf (w h : Nat) (f : Nat → Nat → Val) : Plane :=
  { w := w, h := h, vals := ((List.range h).flatMap fun y => (List.range w).map fun x => f x y).toArray }

/-- A picture's planes of code values. -/
def codePlanes (chroma w h : Nat) (samples : List Nat) : List Plane :=
  ((planeSizes chroma w h).foldl (fun (acc : List Plane × List Nat) e =>
    (acc.1 ++ [{ w := e.1, h := e.2, vals := ((acc.2.take (e.1 * e.2)).map Val.ofNat).toArray }], acc.2.drop (e.1 * e.2)))
    ([], samples)).1

/-- A chroma plane at 4:4:4: co-sited with even columns, centred between rows for 4:2:0 (R472). -/
def upsampled (chroma : Nat) (p : Plane) (x y : Nat) : Val :=
  if 2 ≤ chroma then planeAt p x y
  else
    bilinear (planeAt p) (.fin false x (-1))
      (if chroma == 0 then (Val.fin false (2 * y) (-2)).sub (.fin false 1 (-2)) else Val.ofNat y)

/-- FP32 value `i` of the parameter block (R477). -/
def ppVal (params : List Nat) (off i : Nat) : Val := f32 (leAt params (off + 4 * i) 4)

/-- The LUT stage for channel `i` (R472). -/
def lutStage (lut : Array Val) (i : Nat) (c : Val) : Val :=
  if c.isNan then .nan
  else
    let u := (Val.min (Val.max c Val.zero) Val.one).scale2 10
    let k := u.floorInt.toNat
    let l (j : Nat) : Val := lut.getD (1025 * i + j) Val.zero
    if k == 1024 then l 1024 else lerp32 (l k) (l (k + 1)) (rne32 (u.sub (Val.ofNat k)))

/-- Stage 1 on one picture: three channels (R472). -/
def colourStage (b params : List Nat) (lut : Array Val) (samples : List Nat) : List Plane :=
  let (w, h) := ppIn b
  let planes := codePlanes (ppChroma b) w h samples
  let top := if ppDepth10 b then 1023 else 255
  let xs := planes.zipIdx.map fun p =>
    planeOf w h fun x y =>
      rne32q (if p.2 == 0 then planeAt p.1 x y else upsampled (ppChroma b) p.1 x y) top
  (List.range 3).map fun i => planeOf w h fun x y =>
    lutStage lut i (rne32 ((List.range 3).foldl (fun acc j =>
      acc.add ((ppVal params 0 (3 * i + j)).mul ((planeAt (xs.getD j default) x y).sub (ppVal params 36 j)))) Val.zero))

/-- A level sampled from a plane with a box under R267. -/
def resample (box : List Val) (w h : Nat) (p : Plane) : Plane :=
  planeOf w h fun x y =>
    bilinear (planeAt p) (sampleAt default (box.getD 0 .nan) (box.getD 2 .nan) w x).v
      (sampleAt default (box.getD 1 .nan) (box.getD 3 .nan) h y).v

/-- The next level of the pyramid (R473). -/
def nextLevel (b : List Nat) (p : Plane) : Plane :=
  if ppFactor b then resample [Val.zero, Val.zero, Val.ofNat p.w, Val.ofNat p.h] (2 * p.w / 3) (2 * p.h / 3) p
  else planeOf (p.w / 2) (p.h / 2) fun x y =>
    let e (i j : Nat) : Acc := { v := planeAt p (2 * x + i) (2 * y + j) }
    rne32q (elementTree [e 0 0, e 1 0, e 0 1, e 1 1]).v 4

/-- All levels of a channel of one frame. -/
def pyramid (b : List Nat) (p : Plane) : List Plane :=
  (List.range (ppLevels b - 1)).foldl (fun l _ => l ++ [nextLevel b (l.getLastD p)]) [p]

/-- Stage 5: normalise and convert (R475). -/
def normCode (b params : List Nat) (c : Nat) (v : Val) : Nat :=
  (convertTo (ppFmt b) false .rne true 0
    (rne32 ((rne32 (v.sub (ppVal params 48 c))).mul (ppVal params 60 c))) 1).code

/-- The bytes of one level: tokens of patches (R474). `levels t c` is the plane of frame `t`, channel `c`. -/
def levelTokens (b params : List Nat) (e : Nat × Nat) (plane : Nat → Nat → Plane) : List Nat :=
  (List.range (ppF b / max 1 (ppPt b))).flatMap fun tb => (List.range (e.2 / max 1 (ppPh b))).flatMap fun yb =>
    (List.range (e.1 / max 1 (ppPw b))).flatMap fun xb =>
      pack (ppFmt b) ((List.range (ppPt b)).flatMap fun t => (List.range (ppPh b)).flatMap fun y =>
        (List.range (ppPw b)).flatMap fun x => (List.range 3).map fun c =>
          normCode b params c (planeAt (plane (tb * ppPt b + t) c) (xb * ppPw b + x : Nat) (yb * ppPh b + y : Nat)))

/-- The sample that a request's pictures give: bytes by offset in the slot. -/
def sampleImage (b params : List Nat) (req : List Nat) (pics : List (List Nat)) : List (Nat × List Nat) :=
  let lut := ((List.range 3075).map fun i => ppVal params 128 i).toArray
  let box := (List.range 4).map fun i => f32 (leAt req (16 + 4 * i) 4)
  let (ow, oh) := ppOut b
  let frames : Array (Array (List Plane)) := (pics.map fun x =>
    ((colourStage b params lut x).map fun p => pyramid b (resample box ow oh p)).toArray).toArray
  (levelOffsets b).zipIdx.map fun l =>
    (l.1.2, levelTokens b params l.1.1 fun t c => ((frames.getD t #[]).getD c []).getD l.2 default)

/-! Samples (R480 to R486). -/

/-- The pictures of a request: delivered ones, or those read from memory. -/
structure Pictures where
  s : State
  pics : List (List Nat) := []
  refused : Bool := false

def reqPictures (s : State) (p : IngPipe) (r : IngReq) : Pictures :=
  let b := p.block
  if reqSource0 r.bytes && r.tries == 0 then { s := s, pics := (r.pics.take (ppF b)).map (·.1.samples) }
  else
    let (w, h) := ppIn b
    let z := planarBytes (ppDepth10 b) (ppChroma b) w h
    (List.range (ppF b)).foldl (fun (x : Pictures) i =>
      let g := partGet x.s (ingReq (pipePart s p.n)) (pipePart s p.n) (leAt r.bytes 10 6 + i * z) z
      { s := g.s, pics := x.pics ++ [planarSamples (ppDepth10 b) (ppChroma b) w h g.bytes]
        refused := x.refused || g.cond.isSome }) { s := s }

/-- 8 × 8 luma blocks of a picture. -/
def lumaBlocks (p : Picture) : Nat := ceilDiv p.width 8 * ceilDiv p.height 8

/-- The first reason of R483 that applies, before the slot is written; reason 4 comes with the state after the reads. -/
def skipReason (s : State) (p : IngPipe) (r : IngReq) : Option Nat × State :=
  let b := p.block
  let live := reqSource0 r.bytes && r.tries == 0
  let wrong (x : Picture) : Bool :=
    (x.width, x.height) != ppIn b || x.chroma != ppChroma b || x.depth10 != ppDepth10 b
  if live && (r.dropped || r.pics.any fun x => ppConceal b * lumaBlocks x.1 < x.2 * 256) then (some 1, s)
  else if live && (r.pics.any (fun x => wrong x.1) || (r.ended && r.pics.length < ppF b)) then (some 2, s)
  else if (List.range 4).any fun i => !((f32 (leAt r.bytes (16 + 4 * i) 4)).isFin) then (some 3, s)
  else
    let g := reqPictures s p r
    if g.refused then (some 4, g.s) else (none, s)

/-- Have all inputs of a request arrived (R480)? -/
def reqComplete (p : IngPipe) (r : IngReq) : Bool :=
  !(reqSource0 r.bytes && r.tries == 0) || ppF p.block ≤ r.pics.length

/-- The slot that a request takes on entering stage 6 (R480): under ORDERED requests take slots in request order. -/
def slotFor (p : IngPipe) (r : IngReq) : Option Nat :=
  let n := ppSlots p.block
  let used (k : Nat) : Bool := p.claimed.contains k || p.ready.any (·.slot == k)
  if ppOrdered p.block then
    (if (p.reqs.headD default).index == r.index && !(used (p.nextSlot % n)) then some (p.nextSlot % n) else none)
  else ((List.range n).map fun i => (p.nextSlot + i) % n).find? fun k => !(used k)

/-- The first target that refuses a slot's write. -/
def slotRefused (s : State) (part : Nat) (b : List Nat) (slot : Nat) : Option Nat :=
  (slotTargets s b slot).findSome? fun t =>
    match t.2 with
    | some a => if (physRefusal s (ingReq part) a (ppSlotBytes b) true).isSome then some a else none
    | none => some (drawerBase t.1 0 + ppSlotBase b + slot * ppSlotBytes b)

/-- A request leaves the pipe. -/
def dropReq (p : IngPipe) (r : IngReq) : IngPipe :=
  { p with reqs := p.reqs.filter (·.index != r.index)
           done := if reqSource0 r.bytes && r.tries == 0 then (reqContext r.bytes, leAt r.bytes 0 8) :: p.done else p.done }

/-- The alarm re-arms when the depth reaches LOW_WATER + HYST (R482). -/
def rearm (s : State) (p : IngPipe) : State :=
  if ppLowWater p.block + ppHyst p.block ≤ p.ready.length then rsetField s (ingReg .ingQstat p.n) 34 34 1 else s

/-- An alarm of a pipe (R482, R484, R485). -/
def ingAlarm (s : State) (n detail aux : Nat) : State :=
  postEvent s { ring := 0, type := 5, part := pipePart s n, panel := n, detail := detail, aux := aux }

/-- Write the sample into every target. -/
def writeSlot (s : State) (part : Nat) (b : List Nat) (slot : Nat) (img : List (Nat × List Nat)) : State :=
  let len := (img.map fun x => x.2.length).sum
  let s := (slotTargets s b slot).foldl (fun s t =>
    match t.2 with
    | some a => img.foldl (fun s x => (physPut s (ingReq part) (a + x.1) x.2 (a + x.1)).s) s
    | none => s) s
  (ppPanels b).foldl (fun s p => countBeats s p (ceilDiv len 256)) s

/-- The sample of a request becomes ready (R480). -/
def ingReady (n req : Nat) (s : State) : State :=
  match findPipe s n with
  | none => s
  | some p =>
    match p.reqs.find? (·.index == req) with
    | none => s
    | some r =>
      match slotFor p r with
      | none => s
      | some slot =>
        if pipeStopped s n || !(reqComplete p r) || (skipReason s p r).1.isSome ||
            (slotRefused s (pipePart s n) p.block slot).isSome then s
        else
          let g := reqPictures s p r
          let s := writeSlot g.s (pipePart s n) p.block slot (sampleImage p.block p.params r.bytes g.pics)
          let s := if r.tries == 0 then s else rbump s (ingReg .ingSkip n) 31 16 1
          let p := { dropReq p r with
            nextSlot := (slot + 1) % ppSlots p.block
            ready := p.ready ++ [{ slot := slot, flags := if r.tries == 0 then 0 else 1, id := leAt r.bytes 0 8 }] }
          rearm (putPipe s p) p

/-- The skip-log entry of R486. -/
def logSkip (s : State) (p : IngPipe) (id repl reason : Nat) : State :=
  let ptr := ingReg .ingRptr p.n
  let head := rfield s ptr 47 32
  let part := pipePart s p.n
  let g := partPut s (ingReq part) part (ppSkipLog p.block + 32 * (head % ppSkips p.block))
    (leBytes 8 id ++ leBytes 8 repl ++ [reason, 0, 0, 0, 0, 0, 0, 0] ++ leBytes 8 s.time)
  rbump (rsetField g.s ptr 47 32 (head + 1)) (ingReg .ingSkip p.n) 15 0 1

def noId : Nat := 0xFFFFFFFFFFFFFFFF

/-- A sample is skipped for one of the reasons 1 to 5: the next spare takes its place, or after three it yields none (R484). A
slot beat dropped twice (reason 5) is what the command reports. -/
def ingSkip (n req reason : Nat) (s : State) : State :=
  match findPipe s n with
  | none => s
  | some p =>
    match p.reqs.find? (·.index == req) with
    | none => s
    | some r =>
      if pipeStopped s n then s
      else
        let (why, t) : Option Nat × State := match skipReason s p r with
          | (some k, t) => (some k, t)
          | (none, _) => (if reason == 5 && reqComplete p r && (slotFor p r).isSome then some 5 else none, s)
        match why with
        | none => s
        | some k =>
          let id := leAt r.bytes 0 8
          if r.tries < 3 && ppSpares p.block != 0 then
            let part := pipePart t n
            let g := partGet t (ingReq part) part (ppSpareList p.block + 32 * (p.spare % ppSpares p.block)) 32
            let s := logSkip g.s p id (leAt g.bytes 0 8) k
            putPipe s { putReq p { r with bytes := g.bytes, tries := r.tries + 1, pics := [], dropped := false, ended := false } with
              spare := (p.spare + 1) % ppSpares p.block
              done := (dropReq p r).done }
          else
            let s := rbump (logSkip t p id noId k) (ingReg .ingSkip n) 47 32 1
            ingAlarm (putPipe s (dropReq p r)) n 2 r.id

/-- A region refuses a slot write: the pipe stops (R485). -/
def ingStop (n req : Nat) (s : State) : State :=
  match findPipe s n with
  | none => s
  | some p =>
    match p.reqs.find? (·.index == req) with
    | none => s
    | some r =>
      match slotFor p r with
      | none => s
      | some slot =>
        match slotRefused s (pipePart s n) p.block slot with
        | none => s
        | some a =>
          if pipeStopped s n || !(reqComplete p r) || (skipReason s p r).1.isSome then s
          else
            let refused := (physRefusal s (ingReq (pipePart s n)) a (ppSlotBytes p.block) true).isSome
            let s := if refused then (physPut s (ingReq (pipePart s n)) a (List.replicate (ppSlotBytes p.block) 0) a).s else s
            let s := rbump (logSkip s p (leAt r.bytes 0 8) noId 6) (ingReg .ingSkip n) 47 32 1
            let s := rsetField s (ingReg .ingQstat n) 32 32 1
            ingAlarm (putPipe s (dropReq p r)) n 3 a

/-! INGEST_PULL (R481, R482). -/

def pullOp (f : Flight) : Nat := param f 40 1
def pullPipe (f : Flight) : Nat := param f 41 1
def pullCount (f : Flight) : Nat := param f 42 2
def pullMin (f : Flight) : Nat := param f 44 2
def pullBound (f : Flight) : Nat := param f 46 1
def pullTimeout (f : Flight) : Nat := param f 48 4

/-- The partition's enabled pipe that an INGEST_PULL names. -/
def pullTarget (s : State) (f : Flight) : Option IngPipe :=
  match findPipe s (pullPipe f) with
  | some p => if pipePart s p.n == f.part then some p else none
  | none => none

def faultsPull (s : State) (f : Flight) : List Nat :=
  on (1 < pullOp f) 0x0001 ++ on (bit (pullBound f) 6) 0x0002 ++ unusedFaults f [(47, 47), (52, 63)] ++
  (if pullOp f == 1 then slotFaults f [] [3] else slotFaults f [3] []) ++
  on (descTest (slotDesc f 3) fun d => d.format != 0 || d.scaling != 0) 0x0004 ++
  on ((pullOp f == 0 && descTest (slotDesc f 3) fun d => descExt d 0 < 1 + 4 * pullCount f) ||
    (pullOp f == 1 && (match pullTarget s f with | some p => decide (p.claimed.length < pullCount f) | none => false))) 0x0007

/-- CLAIM and RELEASE of a pipe that issued earlier and have not come about: the die takes them in arrival order. -/
def pullEarlier (s : State) (f : Flight) : Bool :=
  s.jig.flights.any fun g => g.mi < f.mi && miOpcode g.word == 0x48 && g.part == f.part && pullPipe g == pullPipe f &&
    pullOp g == pullOp f && g.phase == .issued

def claimEffect (p : IngPipe) (w : Work) : Work :=
  let got := p.ready.take (pullCount w.f)
  let k := got.length
  let rest := p.ready.drop k
  let s := putPipe w.s { p with ready := rest, claimed := p.claimed ++ got.map (·.slot) }
  let st := ingReg .ingQstat p.n
  let s := if rbit s st 34 && rest.length < ppLowWater p.block then
      rsetField (ingAlarm s p.n 1 rest.length) st 34 34 0 else s
  let w := { w with s := s }
  let words := k :: got.flatMap fun x => [x.slot, x.flags, x.id % 2 ^ 32, x.id / 2 ^ 32]
  let w := match slotDesc w.f 3 with
    | some d => putWords w d (homeUnit w.f) [0, 0, 0, 0, 0] words
    | none => w
  if bit (pullBound w.f) 7 then
    memPut w w.f.panel (boundAddr w.s w.f.panel w.f.q (bits (pullBound w.f) 5 0)) (leBytes 4 k)
  else w

/-- CLAIM, once MIN samples are ready. -/
def claimStep (mi : Nat) (s : State) : State :=
  match findFlight s mi with
  | some f =>
    if f.phase == .issued && miOpcode f.word == 0x48 && pullOp f == 0 && !(pullEarlier s f) then
      match pullTarget s f with
      | some p => if p.ready.length < pullMin f then s else runWork [] false (claimEffect p) s f
      | none => s
    else s
  | none => s

/-- RELEASE: the COUNT oldest claimed slots are free again; a COUNT above the claimed number is refused. -/
def releaseStep (mi : Nat) (s : State) : State :=
  match findFlight s mi with
  | some f =>
    if f.phase == .issued && miOpcode f.word == 0x48 && pullOp f == 1 && !(pullEarlier s f) then
      match pullTarget s f with
      | some p =>
        if p.claimed.length < pullCount f then
          endMi s { f with noEffect := true } (some { status := 2, detail := 0x0007 })
        else runWork [] false (fun w => { w with s := putPipe w.s { p with claimed := p.claimed.drop (pullCount w.f) } }) s f
      | none => s
    else s
  | none => s

/-- The limit of a CLAIM passes before MIN samples are ready. -/
def claimTimeoutStep (mi : Nat) (s : State) : State :=
  match findFlight s mi with
  | some f =>
    let short := match pullTarget s f with | some p => decide (p.ready.length < pullMin f) | none => true
    if f.phase == .issued && miOpcode f.word == 0x48 && pullOp f == 0 && f.deadline != 0 && (short || pullEarlier s f) then
      endMi { s with time := max s.time f.deadline } { f with noEffect := true } (some { status := 7 })
    else s
  | none => s

/-! The meanings. -/

def execIngestPullClaim (mi : Nat) (s : State) : Result := .next (whileRunning mi (claimStep mi) s)
def execIngestPullRelease (mi : Nat) (s : State) : Result := .next (whileRunning mi (releaseStep mi) s)
def execIngestClaimTimeout (mi : Nat) (s : State) : Result := .next (whileRunning mi (claimTimeoutStep mi) s)
/-- A step of a pipe: what it reads may lie at a neighbour; then it reads up to 16 requests in hand. -/
def pipeStep (n : Nat) (step : State → State) (s : State) : State := ingRead n (viaNeighbor (pipePart s n) step s)

def execIngSampleReady (n req : Nat) (s : State) : Result := .next (pipeStep n (ingReady n req) s)
def execIngSampleSkip (n req reason : Nat) (s : State) : Result := .next (pipeStep n (ingSkip n req reason) s)
def execIngPipeStop (n req : Nat) (s : State) : Result := .next (ingStop n req s)

end Sys2Proof.Machine
end

