-- ==== Sys2Proof/Machine/Media.lean ====
section
/-!
DEFINITION. The media dies (17_media_ingest.md R458 to R470): contexts, jobs, decoded pictures, concealment, encoded chunks and
output records. The decoding process itself is the video standards'; what it yields is an operand of the step (log entry 9).
-/
namespace Sys2Proof.Machine

/-! The context block (R462). -/

def cbEncode (b : List Nat) : Bool := bit (b.getD 0 0) 0
def cbHevc (b : List Nat) : Bool := bit (b.getD 0 0) 1
def cbProfile (b : List Nat) : Nat := bits (b.getD 0 0) 4 2
def cbMotion (b : List Nat) : Bool := bit (b.getD 1 0) 0
def cbGir (b : List Nat) : Bool := bit (b.getD 1 0) 2
def cbSubframe (b : List Nat) : Bool := bit (b.getD 1 0) 3
def cbToIngest (b : List Nat) : Bool := bit (b.getD 1 0) 4
def cbPipe (b : List Nat) : Nat := bits (b.getD 2 0) 3 0
def cbSynbuf (b : List Nat) : Nat := b.getD 3 0
def cbWidth (b : List Nat) : Nat := leAt b 4 2
def cbHeight (b : List Nat) : Nat := leAt b 6 2
def cbMpix (b : List Nat) : Nat := leAt b 8 4
def cbMbit (b : List Nat) : Nat := leAt b 12 4
def cbJobRing (b : List Nat) : Nat := leAt b 16 6
def cbJobs (b : List Nat) : Nat := 2 ^ b.getD 22 0
def cbRecs (b : List Nat) : Nat := 2 ^ b.getD 23 0
def cbOutRing (b : List Nat) : Nat := leAt b 24 6
def cbRefArea (b : List Nat) : Nat := leAt b 30 6
def cbFrameArea (b : List Nat) : Nat := leAt b 36 6
def cbAreaLog2 (b : List Nat) : Nat := b.getD 42 0
def cbInterval (b : List Nat) : Nat := leAt b 48 2
def cbMsix (b : List Nat) : Nat := leAt b 52 2

/-- The largest picture of a context: 10-bit unless the profile is HEVC Main, 4:2:2 under HEVC Main 4:2:2 10. -/
def slotPicBytes (b : List Nat) : Nat :=
  planarBytes (!(cbHevc b) || cbProfile b != 1) (if cbHevc b && cbProfile b == 4 then 1 else 0) (cbWidth b) (cbHeight b)

/-- The frame slots, or the bitstream ring. -/
def cbAreaBytes (b : List Nat) : Nat :=
  if cbEncode b then 2 ^ cbAreaLog2 b else slotPicBytes b * 2 ^ cbAreaLog2 b

/-- Codes and ranges of a context block for context `c` (R458, R462, R469). -/
def ctxBlockOk (c : Nat) (b : List Nat) : Bool :=
  cbEncode b == decide (32 ≤ c) && bits (b.getD 0 0) 7 5 == 0 && bits (b.getD 1 0) 7 5 == 0 && bits (b.getD 2 0) 7 4 == 0 &&
  b.getD 51 0 == 0 && (b.drop 54).all (· == 0) &&
  (if cbHevc b then (if cbEncode b then [1, 2] else [1, 2, 4]).contains (cbProfile b) else cbProfile b == 0) &&
  1 ≤ cbSynbuf b && cbSynbuf b ≤ 64 && cbWidth b != 0 && cbWidth b % 8 == 0 && cbHeight b != 0 && cbHeight b % 8 == 0 &&
  cbJobRing b % 64 == 0 && cbOutRing b % 64 == 0 && cbRefArea b % 0x200000 == 0 &&
  4 ≤ b.getD 22 0 && b.getD 22 0 ≤ 12 && 4 ≤ b.getD 23 0 && b.getD 23 0 ≤ 12 &&
  (if cbEncode b then 16 ≤ cbAreaLog2 b && cbAreaLog2 b ≤ 32
   else cbToIngest b || (1 ≤ cbAreaLog2 b && cbAreaLog2 b ≤ 8)) &&
  (!(cbEncode b && cbGir b) || (cbWidth b ≤ 1920 && cbHeight b ≤ 1080))

/-- Does an area of a partition lie in T2 or T3 (R462)? -/
def areaInDram (s : State) (part va n : Nat) : Bool :=
  (pieces va n).all fun p =>
    let e : Option TlbEntry := match cached s part p.1 with
      | some e => some e
      | none => (walk s part p.1).toOption
    match e with
    | some e => (match regionOf (e.pa + (p.1 - e.va)) with | .hbm => true | .lpddr => true | _ => false)
    | none => false

def ctxAreasOk (s : State) (part : Nat) (b : List Nat) : Bool :=
  areaInDram s part (cbJobRing b) (32 * cbJobs b) && areaInDram s part (cbOutRing b) (32 * cbRecs b) &&
  areaInDram s part (cbRefArea b) (48 * cbWidth b * cbHeight b) &&
  ((cbToIngest b && !(cbEncode b)) || areaInDram s part (cbFrameArea b) (cbAreaBytes b))

/-- The declared rates and allocations of a die's enabled contexts within R459 and R460. -/
def dieSumsOk (bs : List (List Nat)) : Bool :=
  let of (enc : Bool) := bs.filter fun b => cbEncode b == enc
  (bs.map cbSynbuf).sum ≤ 64 &&
  ((of false).map cbMpix).sum * 1000000 ≤ 3981312000 && ((of false).map cbMbit).sum ≤ 2000 &&
  ((of true).map cbMpix).sum * 1000000 ≤ 1990656000 && ((of true).map cbMbit).sum ≤ 1000

/-! Contexts. -/

def medReg (id : RegId) (die c : Nat) : RegAddr := { id := id, loc := .media die, i := c }

def findMed (s : State) (die c : Nat) : Option MedCtx := s.med.ctxs.find? fun m => m.die == die && m.c == c

def putMed (s : State) (m : MedCtx) : State :=
  { s with med := { s.med with ctxs := upsert (fun x => x.die == m.die && x.c == m.c) m s.med.ctxs } }

def dropMed (s : State) (die c : Nat) : State :=
  { s with med := { s.med with ctxs := s.med.ctxs.filter fun x => !(x.die == die && x.c == c) } }

def medPart (s : State) (m : MedCtx) : Nat := rfield s (medReg .medCtx m.die m.c) 15 8
def medReq (part : Nat) : Req := { part := some part, master := 3 }
def dieOf : Loc → Nat | .media m => m | _ => 0

/-- Enable a context: its block is read and checked (R461, R462). -/
def enableCtx (a : RegAddr) (v : Nat) (s : State) : State :=
  let die := dieOf a.loc
  let part := rfield s a 15 8
  let g := partGet s (medReq part) part (rfield s a 57 16 * 64) 64
  let others := (g.s.med.ctxs.filter fun m => m.die == die && m.c != a.i).map (·.block)
  if g.cond.isSome || !(ctxBlockOk a.i g.bytes) || !(ctxAreasOk g.s part g.bytes) || !(dieSumsOk (g.bytes :: others)) then
    refuseEnable (dropMed g.s die a.i) a v
  else putMed (rsetField g.s a 0 0 1) { (findMed g.s die a.i).getD { die := die, c := a.i } with block := g.bytes }

/-- Enable a context, at once or when its block has arrived from a neighbour. -/
def enableMed (a : RegAddr) (v : Nat) (s : State) : State :=
  enableVia (rfield s a 15 8) (fun s => rsetField s a 0 0 0) (enableCtx a v) a v s

/-- A write of MED_CTXc: 1 reads and checks the context block; 0 discards pending jobs. -/
def medCtxWrite (s : State) (a : RegAddr) (v : Nat) : State :=
  let die := dieOf a.loc
  let s := cancelEnable (plainWrite s a v) a
  if rbit s a 0 then enableMed a v s
  else
    let ptr := medReg .medCptr die a.i
    dropMed (rsetField s ptr 31 16 (rfield s ptr 15 0)) die a.i

/-- A write of MED_CPTRc: jobs are submitted, and records are consumed (R463, R465). -/
def medPtrWrite (s : State) (a : RegAddr) (v : Nat) : State :=
  let s := plainWrite s a v
  match findMed s (dieOf a.loc) a.i with
  | none => s
  | some m =>
    let size := cbRecs m.block
    let left := (rfield s a 63 48 + size - rfield s a 47 32 % size) % size
    putMed s { m with irq := false, recs := m.recs.drop (m.recs.length - left) }

/-! Output records (R465). -/

/-- Records for which the output ring has room. -/
def medRoom (s : State) (m : MedCtx) : Nat :=
  let size := cbRecs m.block
  let ptr := medReg .medCptr m.die m.c
  (rfield s ptr 47 32 % size + size - 1 - rfield s ptr 63 48 % size) % size

/-- An output record before PHASE and TIME. -/
structure MedRec where
  type : Nat
  flags : Nat := 0
  detail : Nat := 0
  count : Nat := 0
  pos : Nat := 0
  index : Nat := 0
  sample : Nat := 0

/-- Write a record and raise the context's vector (R465, R462; 05_macro_instructions.md R160 to R162). -/
def medRecord (s : State) (m : MedCtx) (r : MedRec) (slot : Option Nat) : State :=
  let ptr := medReg .medCptr m.die m.c
  let part := medPart s m
  let size := cbRecs m.block
  let prod := rfield s ptr 63 48 % size
  let g := partPut s (medReq part) part (cbOutRing m.block + 32 * prod)
    ([r.type, r.flags % 128 + (if m.phase then 128 else 0)] ++ leBytes 2 r.detail ++ leBytes 4 r.count ++ leBytes 4 r.pos ++
      leBytes 4 r.index ++ leBytes 8 r.sample ++ leBytes 8 s.time)
  if g.cond.isSome then
    let ctx := medReg .medCtx m.die m.c
    postFault (dropMed (rsetField g.s ctx 0 0 0) m.die m.c)
      { cls := 7, detail := 7, die := 2, unit := m.die, sub := m.c, part := some part
        info := accessInfo 0xFF true (cbOutRing m.block + 32 * prod) }
  else
    let next := (prod + 1) % size
    let s := rsetField g.s ptr 63 48 next
    let m := { m with phase := if next == 0 then !m.phase else m.phase, recs := m.recs ++ [slot] }
    if m.irq then putMed s m
    else
      match raiseVector s (partFn s part) (cbMsix m.block) with
      | some s => putMed s { m with irq := true }
      | none =>
        postFault (putMed s m) { cls := 8, detail := 3, die := 2, unit := m.die, sub := m.c, part := some part
                                 info := configInfo (0x030000000000 + regOffset (medReg .medCtx m.die m.c))
                                   (rget s (medReg .medCtx m.die m.c)) }

/-! Jobs (R463). -/

/-- The bytes of the job at JOB_HEAD, which moves on. -/
def nextJob (s : State) (m : MedCtx) : Option (State × List Nat) :=
  let ptr := medReg .medCptr m.die m.c
  let size := cbJobs m.block
  let head := rfield s ptr 31 16
  if head % size == rfield s ptr 15 0 % size then none
  else
    let g := partGet s (medReq (medPart s m)) (medPart s m) (cbJobRing m.block + 32 * (head % size)) 32
    some (rsetField g.s ptr 31 16 ((head + 1) % size), g.bytes)

/-- The parser reads `n` further jobs; DISCONT discards its state (R463, R470). -/
def readJobs : Nat → State → MedCtx → State × MedCtx
  | 0, s, m => (s, m)
  | n + 1, s, m =>
    match nextJob s m with
    | none => (s, m)
    | some (s, b) =>
      let job := (leAt b 12 4, leAt b 16 8)
      readJobs n s (if bit (leAt b 12 4) 1 then { m with jobs := job :: m.jobs, outIndex := 0, refused := false, last := none }
        else { m with jobs := job :: m.jobs })

/-! Concealment (R467). -/

/-- The component-wise median of three integers. -/
def median3 (a b c : Int) : Int := max (min a b) (min (max a b) c)

/-- The motion vector that conceals block (x, y): the median over the left, above and above-right neighbours. -/
def concealVector (p : Picture) (x y : Nat) : Int × Int :=
  let mv (i j : Int) : Int × Int :=
    match p.mvs.find? fun e => (e.1 : Int) == i && (e.2.1 : Int) == j with
    | some e => if p.missing.contains (e.1, e.2.1) then (0, 0) else e.2.2
    | none => (0, 0)
  let l := mv (x - 1) y
  let a := mv x (y - 1)
  let r := mv (x + 1) (y - 1)
  (median3 l.1 a.1 r.1, median3 l.2 a.2 r.2)

/-- The sample that conceals position (x, y) of a plane that is subsampled by `sx`, `sy`. -/
def concealSample (b : List Nat) (p : Picture) (first w h sx sy x y : Nat) : Nat :=
  match p.ref with
  | none => if p.depth10 then 512 else 128
  | some ref =>
    let mv := if cbMotion b then concealVector p (x * sx / 8) (y * sy / 8) else (0, 0)
    ref.getD (first + clampPos (y + mv.2 / sy) h * w + clampPos (x + mv.1 / sx) w) 0

/-- A picture with the blocks that nothing correct covered concealed. -/
def concealed (b : List Nat) (p : Picture) : Picture :=
  if p.missing.isEmpty then p
  else
    let arr := p.samples.toArray
    let planes := planeSizes p.chroma p.width p.height
    { p with samples := (planes.foldl (fun (acc : List Nat × Nat) e =>
        let sx := if e.1 == p.width then 1 else 2
        let sy := if e.2 == p.height then 1 else 2
        (acc.1 ++ (List.range e.2).flatMap (fun y => (List.range e.1).map fun x =>
          if p.missing.contains (x * sx / 8, y * sy / 8) then concealSample b p acc.2 e.1 e.2 sx sy x y
          else arr.getD (acc.2 + y * e.1 + x) 0), acc.2 + e.1 * e.2)) ([], 0)).1 }

/-! Decoding (R464 to R470). -/

/-- The context number that a sample request gives (R478). -/
def ctxNumber (m : MedCtx) : Nat := m.c + 32 * m.die

/-- Write a picture into a frame slot, row by row (R464). -/
def writeFrame (s : State) (m : MedCtx) (slot : Nat) (p : Picture) : State :=
  let part := medPart s m
  let base := cbFrameArea m.block + slot * slotPicBytes m.block
  let arr := p.samples.toArray
  (planarRows p.depth10 p.chroma p.width p.height).foldl (fun s r =>
    (partPut s (medReq part) part (base + r.1) ((List.range r.2.2).flatMap fun x =>
      let v := arr.getD (r.2.1 + x) 0
      if p.depth10 then leBytes 2 (v % 1024) else [v % 256])).s) s

/-- Deliver the picture that a context holds, to its slot or its pipe, with its record; it waits while the ring is full, while
the slot's earlier record stands unconsumed (R464), or while no request in progress matches (R479). -/
def deliver (s : State) (m : MedCtx) : State :=
  match m.held with
  | none => s
  | some (p, id) =>
    if medRoom s m == 0 then putMed s m
    else
      let n := p.missing.length
      let slot := m.outIndex % 2 ^ cbAreaLog2 m.block
      let placed : Option (State × Nat) :=
        if cbToIngest m.block then (ingOffer s (cbPipe m.block) (ctxNumber m) id (p, n)).map fun s => (s, 0xFFFFFFFF)
        else if m.recs.contains (some slot) then none
        else some (writeFrame s m slot p, slot)
      match placed with
      | none => putMed s m
      | some (s, pos) =>
        let flag := m.concealed && !p.key
        let r : MedRec := { type := 1, flags := (if flag then 1 else 0) + (if p.key then 2 else 0), count := n, pos := pos
                            index := m.outIndex, sample := id }
        let m := { m with held := none, outIndex := (m.outIndex + 1) % 2 ^ 32
                          concealed := flag || !p.missing.isEmpty }
        medRecord s m r (if cbToIngest m.block then none else some slot)

/-- A record of a context other than a picture, where the ring has room. -/
def noteRecord (s : State) (m : MedCtx) (type detail count id : Nat) : State :=
  medRecord s m { type := type, detail := detail, count := count, index := m.outIndex, sample := id } none

/-- What a step of a decode context meets. -/
def decodeEvent (s0 s : State) (m : MedCtx) (flags id : Nat) (ev : DecodeEvent) : State :=
  let stat := medReg .medStat m.die 0
  match ev with
  | .syntaxError => if m.refused then s0 else rbump (putMed s m) stat 47 32 1
  | .dropped n =>
    if m.refused || medRoom s m == 0 then s0
    else
      let s := rbump (noteRecord s m 2 0 n id) stat 63 48 1
      if cbToIngest m.block then ingNote s (cbPipe m.block) (ctxNumber m) id fun r => { r with dropped := true } else s
  | .refused => if medRoom s m == 0 then s0 else noteRecord s { m with refused := true } 5 0x0B01 0 id
  | .endOfStream =>
    if !(bit flags 0) || medRoom s m == 0 then s0
    else
      let s := noteRecord s m 4 0 0 id
      if cbToIngest m.block then ingNote s (cbPipe m.block) (ctxNumber m) id fun r => { r with ended := true } else s
  | .picture p =>
    if m.refused then s0
    else if cbWidth m.block < p.width || cbHeight m.block < p.height then
      (if medRoom s m == 0 then s0 else noteRecord s { m with refused := true } 5 0x0B01 0 id)
    else
      let geom := (p.width, p.height, p.depth10, p.chroma)
      let changed := match m.last with | some g => g != geom | none => false
      let p := { concealed m.block p with ref := none, mvs := [] }
      deliver s { m with last := some geom, held := some (p, id), outIndex := if changed then 0 else m.outIndex }

/-- A step of a decode context: the parser has read `jobs` further jobs; what it met comes from the job that lies `back` before
the last one read. -/
def medDecode (die c jobs back : Nat) (ev : DecodeEvent) (s : State) : State :=
  match findMed s die c with
  | none => s
  | some m =>
    if cbEncode m.block || m.held.isSome then s
    else
      let (t, m) := readJobs jobs s m
      match m.jobs[back]? with
      | none => putMed t m
      | some (flags, id) => decodeEvent s t m flags id ev

/-- A held picture is looked at again. -/
def medSlotWait (die c : Nat) (s : State) : State :=
  match findMed s die c with
  | none => s
  | some m => deliver s m

/-! Encoding (R469, R470). -/

/-- Write a chunk into the bitstream ring. -/
def writeChunk (s : State) (m : MedCtx) (bs : List Nat) : State :=
  let size := 2 ^ cbAreaLog2 m.block
  let part := medPart s m
  let first := min bs.length (size - m.pos % size)
  let s := (partPut s (medReq part) part (cbFrameArea m.block + m.pos % size) (bs.take first)).s
  (partPut s (medReq part) part (cbFrameArea m.block) (bs.drop first)).s

/-- Emit the chunks of one picture, the last one marked under SUBFRAME. -/
def emitChunks (key : Bool) (id : Nat) : List (List Nat) → State → Nat × Nat → State
  | [], s, _ => s
  | bs :: rest, s, at' =>
    match findMed s at'.1 at'.2 with
    | none => s
    | some m =>
      let s := writeChunk s m bs
      let r : MedRec := { type := 3, count := bs.length, pos := m.pos, index := m.outIndex, sample := id
                          flags := (if key then 2 else 0) + (if cbSubframe m.block && rest.isEmpty then 4 else 0) }
      emitChunks key id rest (medRecord s { m with pos := (m.pos + bs.length) % 2 ^ cbAreaLog2 m.block } r none) at'

/-- Is the next picture of an encoder a key picture (R462, R463, R469)? -/
def keyPicture (m : MedCtx) (flags : Nat) : Bool :=
  m.count == 0 || bit flags 2 ||
  (!(cbGir m.block) && cbInterval m.block != 0 && m.count % cbInterval m.block == 0)

/-- A step of an encode context: the picture of its next job is encoded into the chunks given, or refused. -/
def medEncode (die c : Nat) (chunks : List (List Nat)) (refused : Bool) (s : State) : State :=
  match findMed s die c with
  | none => s
  | some m =>
    if !(cbEncode m.block) then s
    else
      match nextJob s m with
      | none => s
      | some (t, b) =>
        let id := leAt b 16 8
        let cs := if cbSubframe m.block then chunks else [chunks.flatten]
        if refused then (if medRoom s m == 0 then s else noteRecord t m 5 0x0B01 0 id)
        else if medRoom s m < cs.length || chunks.isEmpty then s
        else
          let part := medPart s m
          let g := partGet t (medReq part) part (leAt b 0 6) (slotPicBytes m.block)
          let u := emitChunks (keyPicture m (leAt b 12 4)) id cs (putMed g.s m) (die, c)
          match findMed u die c with
          | some m => putMed u { m with outIndex := (m.outIndex + 1) % 2 ^ 32, count := m.count + 1 }
          | none => u

/-! The meanings. -/

/-- A step of a context: what it reads may lie at a neighbour. -/
def medStep (die c : Nat) (step : State → State) (s : State) : State :=
  viaNeighbor (rfield s (medReg .medCtx die c) 15 8) step s

def execMedDecodePicture (die c jobs back : Nat) (ev : DecodeEvent) (s : State) : Result :=
  .next (medStep die c (medDecode die c jobs back ev) s)
def execMedFrameSlotWait (die c : Nat) (s : State) : Result := .next (medSlotWait die c s)
def execMedEncodePicture (die c : Nat) (chunks : List (List Nat)) (refused : Bool) (s : State) : Result :=
  .next (medStep die c (medEncode die c chunks refused) s)

/-- The unit whose blocks have arrived from a neighbour is enabled. -/
def enableUnit (a : RegAddr) (v : Nat) (s : State) : State :=
  match a.id with
  | .mitCtx => enableMit a v s
  | .ingPipe => enableIng a v s
  | .medCtx => enableMed a v s
  | _ => s

end Sys2Proof.Machine
end

