-- ==== Sys2Proof/Machine/Issue.lean ====
section
/-!
DEFINITION. The panel controller: issue of an MI with every run-time input that it reads once (05_macro_instructions.md R125 to
R145), what makes it malformed or refused (R133, R153), completion (R152, R155, R157, R161), the deal of tiles under SHARED
(06_jig.md R172), and the program MIs of a salvage run (10_training.md R280 to R283).
-/
namespace Sys2Proof.Machine

/-! Opcodes (R146). -/

/-- Opcodes of the ragged class. -/
def opRagged (op : Nat) : Bool := [0x04, 0x05, 0x09, 0x0A, 0x0B, 0x18, 0x19, 0x1A, 0x1B].contains op

/-- Slots (and further descriptors, from 5) that are destinations (R134; 08_attention_kv.md R223). -/
def opDests (op : Nat) : List Nat :=
  if op == 0x05 then [3, 5, 8]
  else if [0x04, 0x09, 0x0A, 0x0B, 0x1B, 0x20, 0x3B].contains op then [3, 4] else [3]

/-- Slots that may hold A48 spill: partial outputs, and the operands of a bit copy (02_formats.md R42, R72; 11_drawers_tiers.md R317;
of the OPs of COLL only a reduction takes partial outputs). -/
def opSpills (f : Flight) : List Nat :=
  let op := miOpcode f.word
  if op == 0x20 then (if collOp f ≤ 1 then [0, 3] else [])
  else match op with
  | 0x01 => [3] | 0x02 => [2, 3] | 0x04 => [3, 6] | 0x10 => [0, 3] | 0x11 => [0, 3] | _ => []

/-- Descriptors of query tensors, which take their lengths from QLEN_TABLE (08_attention_kv.md R226). -/
def opQueries (op : Nat) : List Nat :=
  match op with | 0x04 => [0, 3, 4, 6, 7] | 0x05 => [0, 3, 4, 6, 7] | 0x1B => [0, 4] | _ => []

/-- Page-table descriptors, whose lengths count positions of 256 to an entry (08_attention_kv.md R237). -/
def opTables (op : Nat) (f : Flight) : List Nat :=
  match op with
  | 0x04 => if attnPaged f then [1] else []
  | 0x1B => [1] | 0x18 => [3] | 0x19 => [0, 3] | 0x1A => [0] | _ => []

/-- MIs that are dealt to the benches of participating panels (06_jig.md R169). -/
def opDealt (f : Flight) : Bool :=
  let op := miOpcode f.word
  [0x01, 0x02, 0x03, 0x04, 0x05, 0x08, 0x09, 0x0A, 0x0B, 0x0C, 0x1B, 0x38, 0x39, 0x3A, 0x3B].contains op ||
  (op == 0x10 && !(moveOnBench f))

/-- The KV pool that an MI names (08_attention_kv.md R235). -/
def opPool (f : Flight) : Option Nat :=
  match miOpcode f.word with
  | 0x04 => if attnPaged f then some (attnPool f) else none
  | 0x18 | 0x19 | 0x1A => some (bits (param f 40 1) 2 0)
  | 0x1B => some (cantonPool f)
  | _ => none

/-- Opcodes that a salvage program may hold (10_training.md R282). -/
def opSalvage (w : List Nat) : Bool :=
  [0x00, 0x01, 0x02, 0x03, 0x04, 0x05, 0x08, 0x09, 0x0A, 0x0B, 0x0C, 0x10, 0x11, 0x12, 0x13, 0x30, 0x38, 0x39].contains (miOpcode w) ||
  (miOpcode w == 0x21 && bits (wordByte w 40) 1 0 == 1)

/-! The MI word (R133; 06_jig.md R167). -/

/-- Reserved codes and reserved bits of the word, whether or not its MI uses the field: that the tiling fields of an MI that does not
tile are tested too is a DESIGN CHOICE (log entry 142). -/
def wordFaults (w : List Nat) : List Nat :=
  let loops := [miLoopDrw w, miLoopSbd w, miLoopHbm w]
  on ((rmodeOfCode (miRmode w)).isNone || miSfuMode w == 3 || 6 ≤ miShape w || miSide w == 3 || loops.any (6 ≤ ·)) 0x0001 ++
  on (bits (miTiling w) 15 14 != 0 || bits (wordByte w 14) 7 1 != 0 || wordByte w 15 != 0 || wordByte w 34 != 0 ||
    wordByte w 35 != 0) 0x0002

/-- What an opcode's own definition says is malformed. `next` is the word of the queue's next MI, for CHECK. -/
def opFaults (s : State) (f : Flight) (next : List Nat) : List Nat :=
  match miOpcode f.word with
  | 0x00 => faultsNop f
  | 0x01 => faultsMatrix false s f
  | 0x02 => faultsMatrix true s f
  | 0x03 => faultsConv s f
  | 0x04 => faultsAttnFwd s f
  | 0x05 => faultsAttnBwd s f
  | 0x08 => faultsEw s f
  | 0x09 => faultsRowred s f
  | 0x0A => faultsSoftmax s f
  | 0x0B => faultsNorm s f
  | 0x0C => faultsSfuMap s f
  | 0x10 => faultsMove s f
  | 0x11 => faultsMcast f
  | 0x12 => faultsFlush f
  | 0x13 => faultsPrefetch f
  | 0x18 => faultsKvAppend s f
  | 0x19 => faultsKvFork f
  | 0x1A => faultsKvFree f
  | 0x1B => faultsCantonSelect s f
  | 0x20 => faultsColl s f
  | 0x21 => faultsGatherRetain s f
  | 0x28 => faultsLedgerUpdate s f
  | 0x29 => faultsCensusRead f
  | 0x30 => faultsCheck s (miOpcode next) f
  | 0x38 => faultsPool s f
  | 0x39 => faultsCropResize s f
  | 0x3A => faultsBoxDecode s f
  | 0x3B => faultsNms s f
  | 0x40 => faultsWait f
  | 0x41 => faultsSignal f
  | 0x42 => faultsBarrier f
  | 0x48 => faultsPull s f
  | 0x4F => faultsSalvageMark s f
  | _ => [0x0001]

/-- Does an MI that evaluates a function need the legacy tables where they are absent (07_row_functions.md R200, R222)? -/
def legacyMissing (s : State) (f : Flight) : Bool :=
  let op := miOpcode f.word
  let evaluates := op == 0x0C || (op == 0x08 && (param f 40 1 == 0x04 || param f 41 1 != 0))
  f.legacy && evaluates && (panelsOf f).any fun p => (dealtBenches f p).any fun l =>
    match physOf s p l with | some b => !(Config.sfuLegacy p b) | none => false

/-- A unit that a well-formed MI needs is absent (R152, rank 3). -/
def opAbsent (s : State) (f : Flight) : Bool :=
  let op := miOpcode f.word
  (opDealt f && (panelsOf f).isEmpty) || legacyMissing s f ||
  (match opPool f with | some k => (poolOf s f.part k).isNone | none => false) ||
  (op == 0x20 && (commOf s f).isNone) ||
  (op == 0x21 && ((retPool s f.part (retPoolNo f)).isNone || (retMode f ≤ 1 && (commOf s f).isNone))) ||
  (op == 0x28 && (ledgerHome s f.part).isNone) ||
  (op == 0x42 && barScope f == 1 && pnum s .partitionPenGroup f.part == 0) ||
  (op == 0x48 && (pullTarget s f).isNone) || (op == 0x4F && (salvCtx s f.part).isNone)

/-! Reading the inputs (R126, R129). -/

/-- A read by the panel controller for a partition. -/
def ctrlGet (s : State) (part va n : Nat) : Got := partGet s { part := some part } part va n

/-- Where the descriptors of an MI come from: a queue's table, or what a salvage run read when it started (10_training.md R287). -/
inductive DescSource where
  | table (addr countM1 : Nat)
  | program (ds : List (Option (List Nat × Option Cond)))

/-- What issue has read so far. -/
structure Reading where
  s : State
  f : Flight
  /-- The first refusal of a descriptor's or a bound entry's fetch: the MI completes with it (R126). -/
  fetch : Option Cond := none
  cond : Option Cond := none
  faults : List Nat := []
  /-- The partition has no ledger home panel (R141). -/
  noLedger : Bool := false
deriving Inhabited

/-- Read bytes for an MI at issue. -/
def readIn (r : Reading) (va n : Nat) : Reading × List Nat :=
  let g := ctrlGet r.s r.f.part va n
  ({ r with s := g.s, cond := firstCond r.cond (g.cond.map fun c => { c with aux := va }) }, g.bytes)

/-- Take one descriptor: its bytes with the refusal of its fetch, or none where the word names none that the table holds. -/
def takeDesc (keepCen : Bool) (r : Reading) (e : Option (List Nat × Option Cond)) : Reading :=
  match e with
  | none => { r with f := { r.f with descs := r.f.descs ++ [none] } }
  | some (b, c) =>
    let d := descOf b
    { r with
      fetch := firstCond r.fetch c
      f := { r.f with descs := r.f.descs ++ [some (if keepCen then d else { d with cenEn := false })] } }

/-- Read the descriptors (R134, R135). -/
def readDescs (src : DescSource) (r : Reading) : Reading :=
  match src with
  | .program ds => ds.foldl (takeDesc false) r
  | .table addr countM1 =>
    (wordIndices r.f.word).foldl (fun r i =>
      if i == 0xFFFF || countM1 < i then takeDesc true r none
      else
        let (r', b) := readIn { r with cond := none } (addr + 64 * i) 64
        takeDesc true { r' with cond := r.cond } (some (b, r'.cond))) r

/-- The MI's descriptors with their places. -/
def flightDescs (f : Flight) : List (Nat × Desc) :=
  f.descs.zipIdx.filterMap fun p => p.1.map fun d => (p.2, d)

/-- Malformations of the descriptors by themselves. -/
def checkDescs (r : Reading) : Reading :=
  let op := miOpcode r.f.word
  { r with faults := r.faults ++ (flightDescs r.f).flatMap fun p =>
      descFaults { dest := (opDests op).contains p.1, spill := (opSpills r.f).contains p.1 } (opRagged op) p.2 }

/-- Resolve the bound references: each entry is read once (R129, R142, R143). -/
def readBounds (r : Reading) : Reading :=
  let refs := ((flightDescs r.f).flatMap fun p => boundRefs p.2).eraseDups
  let (r, table) := refs.foldl (fun (acc : Reading × List (Nat × Nat)) i =>
    let (r, b) := readIn acc.1 (qArea acc.1.s acc.1.f.panel acc.1.f.q + 4 * i) 4
    (r, (i, leVal b) :: acc.2)) (r, [])
  let r := { r with fetch := firstCond r.fetch r.cond }
  let value (i : Nat) : Nat := ((table.find? (·.1 == i)).map (·.2)).getD 0
  { r with faults := r.faults ++ on (table.any fun e => 16777216 < e.2) 0x0008
           f := { r.f with descs := r.f.descs.map fun d => d.map fun d => { d with extents := resolveExtents d value } } }

/-- The tensor scale in force: TSCALE, or the ledger's (R141; 04_rounding_census_ledger.md R123). -/
def readScale (r : Reading) (d : Desc) : Reading × Desc :=
  if !(descTensor d && d.tscaleSrc) then (r, d)
  else if 4096 ≤ d.tscale then ({ r with faults := r.faults ++ [0x000C] }, d)
  else
    match ledgerHome r.s r.f.part with
    | none => ({ r with noLedger := true }, d)
    | some _ =>
      if ledgerSize r.s r.f.part ≤ d.tscale then ({ r with faults := r.faults ++ [0x000C] }, d)
      else
        match ledgerAddr r.s r.f.part d.tscale with
        | none => (r, d)
        | some a =>
          let g := physGet r.s (areaReq r.f.part) a 128 a
          ({ r with s := g.s, cond := firstCond r.cond g.cond }, { d with tscale := (ledgerOfBytes g.bytes).scale })

def readLedger (r : Reading) : Reading :=
  r.f.descs.foldl (fun (acc : Reading × List (Option Desc)) d =>
    match d with
    | none => (acc.1, acc.2 ++ [none])
    | some d => (let (r, d) := readScale acc.1 d; (r, acc.2 ++ [some d]))) (r, []) |> fun acc =>
  { acc.1 with f := { acc.1.f with descs := acc.2 } }

/-- Entries of a length table. -/
def readLenTable (r : Reading) (table n : Nat) : Reading × List Nat :=
  if table == 0 || table % 4 != 0 then (r, [])
  else
    let (r, b) := readIn r table (4 * n)
    (r, (List.range n).map fun i => leAt b (4 * i) 4)

/-- Does an entry exceed the extent that it governs (R144)? -/
def lenOver (tables : List Nat) (p : Nat × Desc) (lens : List Nat) : Bool :=
  p.2.lenEn && (lens.take (lenSeqs p.2)).any fun l =>
    (if tables.contains p.1 then 256 else 1) * descExt p.2 p.2.lenDim < l

/-- Read the length tables (R144; 08_attention_kv.md R226, R241 to R244). -/
def readLengths (r : Reading) : Reading :=
  let f := r.f
  let op := miOpcode f.word
  let table := miLenTable f.word
  let ds := flightDescs f
  let keys := ds.filter fun p => p.2.lenEn && !((opQueries op).contains p.1)
  let queries := ds.filter fun p => p.2.lenEn && (opQueries op).contains p.1
  let kvSeqs := match op with
    | 0x18 => ((slotDesc f 0).map fun d => descExt d 2).getD 0
    | 0x19 | 0x1A => ((slotDesc f 0).map fun d => descExt d 1).getD 0
    | _ => 0
  let n := (keys.map fun p => lenSeqs p.2).foldl max kvSeqs
  let nq := if op == 0x18 then kvSeqs else (queries.map fun p => lenSeqs p.2).foldl max 0
  let qtable := match op with
    | 0x04 | 0x05 => attnQlen f | 0x1B => cantonQlen f | 0x18 => param f 41 6 | _ => 0
  let r := { r with faults := r.faults ++ on (table % 4 != 0 || (opRagged op && table == 0 && !keys.isEmpty)) 0x000D }
  let (r, lens) := readLenTable r table n
  let (r, qlens) := readLenTable r qtable nq
  let exceeds := keys.any (fun p => lenOver (opTables op f) p lens) || queries.any (fun p => lenOver [] p qlens)
  { r with f := { r.f with lens := lens, qlens := qlens, lenFlag := exceeds } }

/-- The tier that an address lies in, for TIER T2 to T4. -/
def tierOf (pa : Nat) : Nat := match regionOf pa with | .hbm => 2 | .lpddr => 3 | .neighbor => 4 | _ => 0

/-- Does the scale array of a T4 tensor lie outside T2 and T3 (13_inlay.md R357)? -/
def scalesRemote (r : Reading) (d : Desc) : Bool :=
  d.tier == 4 && descMx d &&
  (match translate r.s r.f.part d.scalePtr false with
   | (.ok pa, _) => !([2, 3].contains (tierOf pa))
   | (.error _, _) => true)

/-- Translate BASE of every descriptor in T2 to T4, a source's for a read and a destination's for a write (R138). -/
def checkBases (r : Reading) : Reading :=
  (flightDescs r.f).foldl (fun r p =>
    let r := { r with faults := r.faults ++ on (scalesRemote r p.2) 0x0009 }
    if p.2.tier < 2 || 4 < p.2.tier then r
    else
      match translate r.s r.f.part p.2.base ((opDests (miOpcode r.f.word)).contains p.1) with
      | (.error d, s) => { r with s := s, cond := firstCond r.cond (some { status := 2, detail := d, aux := p.2.base }) }
      | (.ok pa, s) => { r with s := s, faults := r.faults ++ on (tierOf pa != p.2.tier) 0x0009 }) r

/-- The time limit of an MI, as the global time at which it passes; 0 for none (R147, R151; 16_mitre_mapping.md R440;
17_media_ingest.md R481). -/
def issueDeadline (s : State) (f : Flight) : Nat :=
  let at' (ns : Nat) : Nat := if ns == 0 then 0 else s.time + ns
  match miOpcode f.word with
  | 0x40 => at' (param f 52 4 * 1000)
  | 0x42 => at' (barTimeout f * 1000)
  | 0x48 => at' (pullTimeout f * 1000)
  | 0x20 | 0x21 => (match commOf s f with | some k => at' k.limit | none => 0)
  | _ => 0

/-- The seal keys of a partition: XTS key and tag key of slots 0 and 1 (13_inlay.md R370; 18_partitions.md R499). -/
def partKeys (s : State) (part : Nat) : List (Option (List Nat)) :=
  (List.range 2).flatMap fun k => [false, true].map fun tag =>
    (s.mmu.keys.find? fun e => e.part == part && e.slot == k && e.tag == tag).map (·.bytes)

/-- A fresh flight for a word, with the inputs that do not come from memory (R129; 04_rounding_census_ledger.md R104;
07_row_functions.md R200; 14_integrity.md R403; 13_inlay.md R373). -/
def newFlight (s : State) (p q slot part mask : Nat) (w : List Nat) (run : Option Nat) : Flight :=
  let mode := miSfuMode w
  { mi := s.jig.nextMi, panel := p, q := q, slot := slot, part := part, mask := mask, word := w, time := s.time, run := run
    seed := panelCopy s .partitionSrSeed part
    legacy := mode == 2 || (mode == 0 && panelCopy s .sfuDefaultMode part == 1)
    sealKey := pnum s .partitionSealKey part
    keys := partKeys s part
    audit := panelCopy s .computeAuditLog2 part
    roster := rosterNow s part mask
    check := openCheck s p q run }

/-- An MI that performs no access: it can complete with its condition at once. -/
def deny (f : Flight) (c : Cond) : Flight := { f with phase := .executed, noEffect := true, denied := true, conds := [c] }

/-- What issue decides from all that it has read: the refusal of a fetch (R126), malformed under the lowest DETAIL (R153), refused, or
absent. -/
def verdict (r : Reading) (next : List Nat) : Option Cond :=
  if r.fetch.isSome then r.fetch else
  let fs := wordFaults r.f.word ++ r.faults ++ opFaults r.s r.f next
  match fs with
  | k :: ks => some { status := 2, detail := ks.foldl min k }
  | [] =>
    if r.cond.isSome then r.cond
    else if r.noLedger then some { status := 9, detail := 0x000C }
    else if opAbsent r.s r.f then some { status := 9 }
    else none

/-- Read a word's descriptors, bounds, scales, lengths and bases. -/
def readAll (src : DescSource) (s : State) (f : Flight) : Reading :=
  let r := readDescs src { s := s, f := f }
  if r.fetch.isSome then r else checkBases (readLengths (readLedger (readBounds (checkDescs r))))

/-- Put an issued MI into flight. -/
def fly (s : State) (f : Flight) : State :=
  putFlight { s with jig := { s.jig with nextMi := s.jig.nextMi + 1 } } f

/-- Pin the pages that ATTN_FWD with PAGED and CANTON_SELECT read (08_attention_kv.md R240): none while the pool's pin counts
hold the issue. -/
def pinAtIssue (s : State) (f : Flight) : Option (State × Flight) :=
  let paged := (miOpcode f.word == 0x04 && attnPaged f) || miOpcode f.word == 0x1B
  if !paged then some (s, f)
  else
    match (opPool f).bind (poolOf s f.part), slotDesc f 1 with
    | some p, some d =>
      (match pinPages { s := s, f := f } p d with
       | .pinned w ids => some (w.s, { w.f with data := ids })
       | .missing w => some (w.s, deny { w.f with conds := [] } { status := 2, detail := 0x0013 })
       | .held => none)
    | _, _ => some (s, f)

/-- Does a well-formed MI hold at issue (08_attention_kv.md KVP_PSTATn.READY; 10_training.md R286; 14_integrity.md R392)? -/
def holdsIssue (s : State) (f : Flight) : Bool :=
  (match (opPool f).bind (poolOf s f.part) with | some p => !(poolReady s p) | none => false) ||
  (miOpcode f.word == 0x4F && (runOf s f.part (param f 40 2)).isSome) ||
  (miOpcode f.word == 0x30 && (chkPanels f).any fun p => unitBound s p (chkUnit f))

/-! Sealing MIs (13_inlay.md R373, R374; 18_partitions.md R500). -/

/-- The sealed destinations of an MI. -/
def sealedDests (f : Flight) : List Desc :=
  (flightDescs f).filterMap fun p =>
    if (opDests (miOpcode f.word)).contains p.1 && (p.2.comp == 1 || p.2.comp == 2) then some p.2 else none

/-- The seal version counter of a key slot. -/
def sealCounter (k : Nat) : ObjId := if k == 0 then .partitionSealVersion0 else .partitionSealVersion1

/-- Does the slot that a sealing MI uses lack its XTS key, or its tag key where a destination is tagged (R500)? -/
def sealKeyMissing (f : Flight) : Bool :=
  let k := flightKeys f f.sealKey
  k.1.isNone || (k.2.isNone && (sealedDests f).any descSealTag)

/-- A sealing MI takes its version: the state, the flight, or the condition that denies it. -/
def takeVersion (s : State) (f : Flight) : State × Flight :=
  if f.noEffect || (sealedDests f).isEmpty then (s, f)
  else if sealKeyMissing f then (s, deny f { status := 2, detail := 0x070A })
  else
    let v := pnum s (sealCounter f.sealKey) f.part
    let s := if 0xFFFFFF00 ≤ v then postFault s { cls := 0x12, part := some f.part } else s
    if v == 0xFFFFFFFF then (s, deny f { status := 2, detail := 0x0709 })
    else (dsetNum s (sealCounter f.sealKey) 0 f.part 4 (v + 1), { f with sealVersion := v })

/-- Bind the check units that an issued MI names (14_integrity.md R389, R397), and count a COLL in its context (16_mitre_mapping.md
R438). -/
def atIssue (s : State) (f : Flight) : State :=
  match miOpcode f.word with
  | 0x20 => bindEdge (bumpSeq s (param f 42 2)) f
  | 0x30 => bindUnits s f
  | _ => s

/-- Issue one MI whose word has been read: none where it holds; else the new state, and the DETAIL under which a CHECK takes its next
MI with it (R391). -/
def issueWord (src : DescSource) (s : State) (f : Flight) (next : List Nat) : Option (State × Option Nat) :=
  let r := readAll src s f
  match verdict r next with
  | some c =>
    let both := if miOpcode f.word == 0x30 then (checkCauses r.s (miOpcode next) r.f).min? else none
    some (fly r.s (deny r.f c), both)
  | none =>
    if holdsIssue r.s r.f then none
    else
      (pinAtIssue r.s { r.f with deadline := issueDeadline r.s r.f }).map fun p =>
        let v := takeVersion (atIssue p.1 p.2) p.2
        (fly v.1 v.2, none)

/-! Queues (R125 to R131, R161). -/

/-- Does a ring hold back the queues that name it (R161)? -/
def ringHolds (s : State) (part ring : Nat) : Bool :=
  s.jig.waiting.any (fun e => e.part == part && e.ring == ring) ||
  (match ringCtx s part ring with
   | some (p, c) => ringFull s p c
   | none => true)

/-- May a queue fetch (R125, R127, R155, R158, R161; 10_training.md R280), and do a WAIT or a BARRIER in flight let later MIs issue
(R147, R151)? -/
def queueOpen (s : State) (p q : Nat) : Bool :=
  qEnabled s p q && !(qStopped s p q) && partState s (qPart s p q) == 2 && qHead s p q != qTail s p q % qSlots s p q &&
  !(s.jig.resetting.contains (p, q)) && awake s && !(memberOut s (qPart s p q)) && !(ringHolds s (qPart s p q) (qRing s p q)) &&
  !(s.jig.runs.any fun r => r.panel == p && r.q == q) &&
  !((queueFlights s p q).any fun f => miOpcode f.word == 0x40 || miOpcode f.word == 0x42)

/-- HEAD moves on by `n` slots. -/
def advanceHead (s : State) (p q n : Nat) : State :=
  rsetField s (panelReg .jigQptr p q) 31 16 ((qHead s p q + n) % qSlots s p q)

/-- The next MI of a CHECK that was denied under R391 completes as denied too. -/
def denyNext (p q slot part mask : Nat) (w : List Nat) (run : Option Nat) (x : State × Option Nat) : State :=
  match x.2 with
  | some d => fly x.1 (deny (newFlight x.1 p q slot part mask w run) { status := 2, detail := d })
  | none => x.1

/-- MIs that an MI with FENCE waits for (R130): every earlier one that has not completed, but for the CHECK that binds it, which
completes only with it (log entry 140). -/
def fenced (s : State) (p q : Nat) (run : Option Nat) : Bool :=
  (streamFlights s p q run).any fun g => openCheck s p q run != some g.mi

/-- The next MI of a queue issues: none where nothing can issue. -/
def issueQueue (s : State) (p q : Nat) : Option State :=
  if !(queueOpen s p q) then none
  else
    let part := qPart s p q
    let slot := qHead s p q
    let mask := qMask s p q
    let g := ctrlGet s part (slotAddr s p q slot) 64
    match g.cond with
    | some c =>
      let f := { newFlight g.s p q slot part mask (List.replicate 64 0) none with unread := true }
      some (advanceHead (fly g.s (deny f { c with aux := slotAddr s p q slot })) p q 1)
    | none =>
      let f := newFlight g.s p q slot part mask g.bytes none
      let src : DescSource := .table (qDescAddr s p q) (qDescCount s p q)
      if miFence g.bytes && fenced s p q none then none
      else if miOpcode g.bytes != 0x30 then (issueWord src g.s f []).map fun x => advanceHead x.1 p q 1
      else
        let slot2 := (slot + 1) % qSlots s p q
        if slot2 == qTail s p q % qSlots s p q then none
        else
          let g2 := ctrlGet g.s part (slotAddr s p q slot2) 64
          (issueWord src g2.s f g2.bytes).map fun x =>
            advanceHead (denyNext p q slot2 part mask g2.bytes none x) p q (if x.2.isSome then 2 else 1)

/-- An MI of a queue that completes only once a parked consumer has: the consumer itself, a SIGNAL or BARRIER behind it, and a CHECK
whose bound MI is parked or has not issued. A program MI does not wait for it (log entry 143). -/
def behindParked (s : State) (f : Flight) : Bool :=
  f.phase == .parked || f.phase == .damaged ||
  (match miOpcode f.word with
   | 0x41 | 0x42 => (earlier s f).any fun g => g.phase == .parked || g.phase == .damaged
   | 0x30 => f.phase == .issued && (match boundMi s f with | some b => b.phase == .parked || b.phase == .damaged | none => true)
   | _ => false)

/-- The salvage run whose program a queue is to issue from: the first of its runs, each of its MIs as though FENCE were set (R280). -/
def queueRun (s : State) (p q : Nat) : Option SalvageRun :=
  match s.jig.runs.filter (fun r => r.panel == p && r.q == q) with
  | r :: _ =>
    if r.failed || r.left == 0 || fenced s p q (some r.id) || (queueFlights s p q).any (fun f => !(behindParked s f)) then none
    else some r
  | [] => none

def putRun (s : State) (r : SalvageRun) : State :=
  { s with jig := { s.jig with runs := s.jig.runs.map fun x => if x.part == r.part && x.id == r.id then r else x } }

/-- The next MI of a salvage program issues on its queue, from what the run read when it started (R280 to R282, R287). -/
def issueRun (s : State) (r : SalvageRun) : Option State :=
  match r.prog[r.next]? with
  | none => some (putRun s { r with left := 0 })
  | some m =>
    let mask := qMask s r.panel r.q
    let f := newFlight s r.panel r.q r.next r.part mask m.word (some r.id)
    let after (n : Nat) : SalvageRun := { r with next := r.next + n, left := r.left - n }
    match m.cond with
    | some cond => some (putRun (fly s (deny { f with unread := true } cond)) (after 1))
    | none =>
      if !(opSalvage m.word) then some (putRun s { r with failed := true, failIndex := r.next, failStatus := 2 })
      else
        let word2 := match r.prog[r.next + 1]? with | some m2 => m2.word | none => []
        (issueWord (.program m.descs) s f word2).map fun x =>
          let both := x.2.isSome && decide (r.next + 1 < r.prog.length)
          putRun (if both then denyNext r.panel r.q (r.next + 1) r.part mask word2 (some r.id) x else x.1) (after (if both then 2 else 1))

/-- What a queue issues next: its salvage program's MI, else its own. -/
def tryIssue (s : State) (p q : Nat) : Option State :=
  match queueRun s p q with
  | some r => issueRun s r
  | none => issueQueue s p q

/-- Issue class of a queue: PRIO 3 acts as bulk (JIG_QCFGq). -/
def issueClass (s : State) (p q : Nat) : Nat := min 2 (qPrio s p q)

/-- Does the controller of a panel take queue `q` now (R131): no queue of a lower PRIO is ready, and among its own class it is the
first ready one after the queue taken last? -/
def queueTurn (s : State) (p q : Nat) : Bool :=
  let last := ((s.jig.turn.find? (·.1 == p)).map (·.2)).getD 63
  let dist (x : Nat) : Nat := (x + 63 - last) % 64
  !((List.range 64).any fun x => x != q &&
    (issueClass s p x < issueClass s p q || (issueClass s p x == issueClass s p q && dist x < dist q)) &&
    (qEnabled s p x || s.jig.runs.any fun r => r.panel == p && r.q == x) && (tryIssue s p x).isSome)

/-- MI_ISSUE: the next MI of a queue issues, when it is ready and its turn has come. -/
def issueStep (p q : Nat) (s : State) : State :=
  match tryIssue s p q with
  | some t => if queueTurn s p q then { t with jig := { t.jig with turn := upsert (·.1 == p) (p, q) t.jig.turn } } else s
  | none => s

/-! Completion (R152 to R162). -/

/-- The completion event of an MI. -/
def completionEvent (s : State) (f : Flight) (c : Cond) : Event :=
  { ring := qRing s f.panel f.q, type := 1, status := c.status, opcode := if f.unread then 0 else miOpcode f.word, queue := f.q
    stopped := statusStops c.status, slot := f.slot, panel := f.panel, part := f.part, tag := miTag f.word
    detail := c.detail, aux := c.aux }

/-- Give up what an MI still holds: its pins, its arrival, its requests, its combiner. -/
def letGo (s : State) (f : Flight) : State :=
  let s := match opPool f with
    | some k =>
      if f.data.isEmpty then s
      else if miOpcode f.word == 0x18 then (dropCopies { s := s, f := f } k).s
      else (unpinPages { s := s, f := f } k).s
    | none => s
  let s := dropArrivals s (·.mi == f.mi)
  { s with fab := { s.fab with requests := s.fab.requests.map fun r => if r.mi == some f.mi then { r with mi := none } else r }
           jig := { s.jig with
             combs := s.jig.combs.filter (·.mi != f.mi)
             retained := s.jig.retained.filter (·.filling != some f.mi) } }

/-- A program MI has completed: a stopping status fails its run (R283, R284). -/
def runNote (s : State) (f : Flight) (c : Cond) : State :=
  match f.run with
  | none => s
  | some id =>
    match runOf s f.part id with
    | some r => if statusStops c.status then putRun s { r with failed := true, failIndex := f.slot, failStatus := c.status } else s
    | none => s

/-- A DRAINING partition whose last issued MI has completed is STOPPED (18_partitions.md R491). -/
def drained (s : State) (part : Nat) : State :=
  if partState s part == 3 && !(s.jig.flights.any (·.part == part)) then dsetNum s .partitionState 0 part 1 1 else s

/-- Complete a flight with a condition: census summaries, the queue's stop, its event. -/
def completeFlight (s : State) (f : Flight) (c : Cond) (always : Bool) : State :=
  let s := f.sums.foldl (fun s x => mergeSummary s f.part x.1 x.2.1 x.2.2) s
  let s := drained (letGo (dropFlight s f.mi) f) f.part
  if f.run.isSome then runNote s f c
  else
    let s := if statusStops c.status then setStopped s f.panel f.q true else s
    if always || miEvent f.word || statusStops c.status then postEvent s (completionEvent s f c) else s

/-- May an executed MI complete: its neighbour writes are visible, its frames filled, its CHECK done, or its bound MI gone? -/
def canComplete (s : State) (f : Flight) : Bool :=
  f.phase == .executed && !(awaits s f.mi) && f.puts.isEmpty && !(prefetchPending s f && !f.noEffect) &&
  (match boundCheck s f with | some c => c.phase == .executed || f.noEffect && c.phase == .executed | none => true) &&
  !(miOpcode f.word == 0x30 && !f.noEffect && (boundMi s f).isSome)

/-- MI_COMPLETE: the writes that SIGNAL, BARRIER and FLUSH wait for are drained (12_hbm_lpddr.md R345); a COLL counts on each engine
(MIT_STAT). -/
def completeStep (mi : Nat) (s : State) : State :=
  match findFlight s mi with
  | none => s
  | some f =>
    if !(canComplete s f) then s
    else
      let s := if [0x12, 0x41, 0x42].contains (miOpcode f.word) then drainAll s else s
      let s := if miOpcode f.word == 0x20 && !f.denied then
          [0, 1, 2, 3].foldl (fun s e => rbump s (edgeReg .mitStat e 0) 31 0 1) s else s
      completeFlight s f (finalCond f.conds f.lenFlag) false

/-! Events that wait for room (R161) and queues under RESET (R158). -/

/-- A queue under RESET whose events have all posted starts afresh. -/
def finishReset (s : State) : State :=
  let done := s.jig.resetting.filter fun r => !(s.jig.waiting.any fun e => e.type == 1 && e.panel == r.1 && e.queue == r.2)
  done.foldl (fun s r =>
    let a := panelReg .jigQptr r.1 r.2
    rset { s with jig := { s.jig with resetting := s.jig.resetting.filter (· != r) } } a (setBits (rget s a) 63 0 0)) s

/-- Post the waiting events of a ring while it has room, oldest first. -/
def drainRing : Nat → Nat → Nat → State → State
  | 0, _, _, s => s
  | fuel + 1, part, ring, s =>
    match s.jig.waiting.find? (fun e => e.part == part && e.ring == ring), ringCtx s part ring with
    | some e, some (p, c) =>
      if ringFull s p c then s
      else
        let rest := s.jig.waiting.erase e
        let t := post 6 { s with jig := { s.jig with waiting := rest } } (.event e)
        if rest.length < t.jig.waiting.length then { t with jig := { t.jig with waiting := s.jig.waiting } }
        else drainRing fuel part ring t
    | _, _ => s

/-- A ring has room again, or a context for it is enabled. -/
def ringRoom (part ring : Nat) (s : State) : State :=
  finishReset (drainRing (s.jig.waiting.length + 1) part ring s)

/-- Discard the MIs in flight of a queue with ABORTED (R158); a salvage run of the queue ends failed (10_training.md R284). -/
def abortQueue (s : State) (p q : Nat) : State :=
  let s := (s.jig.flights.filter fun f => f.panel == p && f.q == q).foldl
    (fun s f => completeFlight s f { status := 0x0B } true) s
  { s with jig := { s.jig with runs := s.jig.runs.map fun r =>
      if r.panel == p && r.q == q then { r with failed := true, left := 0, failIndex := r.next, failStatus := 0x0B } else r } }

/-- RESET of a queue (R158). -/
def resetQueue (s : State) (p q : Nat) : State :=
  let s := abortQueue (setStopped s p q true) p q
  finishReset { s with jig := { s.jig with resetting := s.jig.resetting ++ [(p, q)] } }

/-! Tiles under SHARED (06_jig.md R172 to R175, R184). -/

/-- What the Jig tiles an MI by: the word with its shape, problems, and the M, N and K extents of a problem. -/
structure JigPlan where
  word : List Nat
  probs : Nat
  m : Nat
  n : Nat
  k : Nat
deriving Inhabited

/-- The plan of a tiled MI. -/
def jigPlan (s : State) (f : Flight) : Option JigPlan :=
  let ext (n k : Nat) : Nat := ((slotDesc f n).map fun d => descExt d k).getD 1
  let rows (n : Nat) : Nat := ((slotDesc f n).map rowCount).getD 1
  let plan (probs m n k : Nat) : Option JigPlan := some { word := f.word, probs := probs, m := m, n := n, k := k }
  match miOpcode f.word with
  | 0x01 | 0x02 => plan 1 (ext 0 1) (ext 1 1) (ext 0 0)
  | 0x03 => plan (max 1 (convGroups f)) (rows 3) (ext 1 4 / max 1 (convGroups f)) (((slotDesc f 1).map convExtent).getD 1)
  | 0x04 => (let pl := attnPlan s f; plan (pl.heads * pl.seqs) pl.nq pl.d pl.keyExt)
  | 0x05 => (let pl := attnPlan s f; plan (pl.kvHeads * pl.seqs) pl.keyExt pl.d (pl.heads / max 1 pl.kvHeads * pl.nq))
  | 0x08 | 0x0C | 0x10 | 0x38 => plan 1 (rows 3) (ext 3 0) 1
  | 0x09 | 0x0A | 0x0B => plan 1 (rows 0) 1 (ext 0 0)
  | 0x39 => plan (ext 3 3) (ext 3 1 * ext 3 2) (ext 3 0) 1
  | 0x3A => (plan 1 (rows 0) 4 1).map fun j => { j with word := boxWord f.word }
  | 0x3B => plan (ext 0 2) 1 1 1
  | _ => none

/-- The tiles of an MI by panel tile. -/
def tilePlan (s : State) (f : Flight) : List (List OutTile) :=
  match jigPlan s f with
  | some j => planTiles j.word j.probs j.m j.n
  | none => []

/-- O_b on a panel, and H (R175); 0 for an MI that is not tiled. -/
def dealLimits (s : State) (f : Flight) (panel : Nat) : Nat × Nat :=
  let np := (panelsOf f).length
  let nb := (dealtBenches f panel).length
  match jigPlan s f with
  | some j => (openTiles j.word j.m j.n j.k np nb, (openLimits j.word j.m j.n j.k np nb).2)
  | none => (0, 0)

/-- Is every step of a tile skipped (R181)? Such a tile never enters a queue (R184). -/
def tileSkipped (s : State) (f : Flight) (t : OutTile) : Bool :=
  match miOpcode f.word with
  | 0x04 => (attnSteps { s := s, f := f } (attnPlan s f) t { panel := f.panel, bench := 0 }).isEmpty
  | 0x05 => (backSteps f (attnPlan s f) t).isEmpty
  | 0x09 | 0x0A | 0x0B => (match slotDesc f 0 with | some d => (rowSteps f d t).1 == 0 | none => false)
  | _ => false

/-- Drawer tiles of the panel tiles that a panel has taken and that no bench has taken yet, in order. -/
def readyTiles (s : State) (f : Flight) (panel : Nat) : List OutTile :=
  let mine := (f.panelDeals.filter (·.2 == panel)).map (·.1)
  (tilePlan s f).flatten.filter fun t => mine.contains t.pt && !(f.deals.any (·.1 == t.no)) && !(tileSkipped s f t)

/-- Drawer tiles that a bench holds open: taken and not finished. -/
def heldTiles (f : Flight) (panel bench : Nat) : Nat :=
  f.deals.countP fun d => d.2.1 == panel && d.2.2 == bench && !(f.closed.contains d.1)

/-- Panel tiles that a panel holds open: taken, with a drawer tile that is not finished. -/
def heldPanelTiles (s : State) (f : Flight) (panel : Nat) : Nat :=
  f.panelDeals.countP fun e => e.2 == panel &&
    ((tilePlan s f).getD e.1 []).any fun t => !(f.closed.contains t.no) && !(tileSkipped s f t)

/-- A panel's queue hands its next tile to a bench that holds fewer than O_b (R173); a bench that finds none waits. -/
def takeTile (panel : Nat) (x : State × Flight) (bench : Nat) : State × Flight :=
  let (s, f) := x
  if (dealLimits s f panel).1 ≤ heldTiles f panel bench then x
  else
    let others := f.waiters.filter (· != (panel, bench))
    match readyTiles s f panel with
    | t :: _ =>
      let s := match physOf s panel bench with | some b => wakeUnit s panel (.bench b) | none => s
      (rbump s (panelReg .jigSqstat panel 0) 31 16 1, { f with deals := f.deals ++ [(t.no, panel, bench)], waiters := others })
    | [] => (s, { f with waiters := others ++ [(panel, bench)] })

/-- A panel that holds fewer than H panel tiles takes the next one (R172, R173); its waiting benches are served in the order in which
they asked. -/
def takePanelTile (panel : Nat) (x : State × Flight) : State × Flight :=
  let (s, f) := x
  if f.panelDeals.length < (tilePlan s f).length && heldPanelTiles s f panel < (dealLimits s f panel).2 then
    let f := { f with panelDeals := f.panelDeals ++ [(f.panelDeals.length, panel)] }
    ((f.waiters.filter (·.1 == panel)).map (·.2)).foldl (takeTile panel) (s, f)
  else x

/-- A panel, or a bench of it, asks for work, having finished the tiles that the command gives of those it took. -/
def dealShared (mi panel : Nat) (bench : Option Nat) (finished : List Nat) (s : State) : State :=
  match findFlight s mi with
  | none => s
  | some f =>
    if f.phase != .issued || !(miShared f.word) || !((panelsOf f).contains panel) then s
    else
      let own (n : Nat) : Bool := f.deals.any fun d => d.1 == n && d.2.1 == panel && (match bench with | some b => d.2.2 == b | none => true)
      let f := { f with closed := f.closed ++ (finished.eraseDups.filter fun n => own n && !(f.closed.contains n)) }
      let x := match bench with
        | none => takePanelTile panel (s, f)
        | some b => if (dealtBenches f panel).contains b then takeTile panel (s, f) b else (s, f)
      putFlight x.1 x.2

/-! The meanings. -/

/-- MI_ISSUE; what issue reads may lie at a neighbour (log entry 126). -/
def execMiIssue (panel q : Nat) (s : State) : Result := .next (viaNeighbor (qPart s panel q) (issueStep panel q) s)
def execMiComplete (mi : Nat) (s : State) : Result := .next (whileRunning mi (completeStep mi) s)
def execEventWaitRoom (part ring : Nat) (s : State) : Result := .next (ringRoom part ring s)
def execTileDealShared (mi panel : Nat) (ask : TileAsk) (s : State) : Result :=
  .next (whileRunning mi (dealShared mi panel ask.bench ask.finished) s)

end Sys2Proof.Machine
end

