-- ==== Sys2Proof/Machine/Contexts.lean ====
section
/-!
DEFINITION. Writes of the context registers of a panel: command queues (05_macro_instructions.md R127, R128, R155, R158), event
rings (R160 to R163, R618), salvage and retain contexts (10_training.md R292, R618), and tile caches (11_drawers_tiers.md R309,
R311, R314).
-/
namespace Sys2Proof.Machine

/-! Queues. -/

/-- A write of JIG_QCFGq: ENABLE is refused with QSIZE below 4, or when PANEL_MASK names a panel on which PARTITION owns no
bench. -/
def qcfgWrite (s : State) (a : RegAddr) (v : Nat) : State :=
  let s := plainWrite s a v
  match a.loc with
  | .panel p =>
    let x := rget s a
    let bad := (setPositions 16 (bits x 31 16)).any fun k => (benchesOf s (bits x 15 8) k).isEmpty
    if bit x 0 && (decide (rfield s (panelReg .jigQbase p a.i) 51 48 < 4) || bad) then refuseEnable s a v else s
  | _ => s

/-- Slots from HEAD to a TAIL in ring order. -/
def tailDistance (s : State) (p q t : Nat) : Nat :=
  let n := qSlots s p q
  (t % n + n - qHead s p q % n) % n

/-- A write of JIG_QPTRq: the doorbell with R128's check, RESUME and RESET. -/
def qptrWrite (s : State) (a : RegAddr) (v : Nat) : State :=
  match a.loc with
  | .panel p =>
    if bit v 34 then resetQueue (rsetField s a 15 0 (bits v 15 0)) p a.i
    else if tailDistance s p a.i (bits v 15 0) < tailDistance s p a.i (qTail s p a.i) then
      postFault (setStopped s p a.i true)
        { cls := 8, detail := 2, die := 0, unit := p, sub := a.i, part := some (qPart s p a.i)
          info := configInfo (0x030000000000 + regOffset a) (bits v 15 0) }
    else
      let s := rsetField s a 15 0 (bits v 15 0)
      if bit v 33 then setStopped s p a.i false else s
  | _ => s

/-! Event rings. -/

/-- The panels and the test of R618 for a context that only a partition's sync home panel enables. -/
def offSyncHome (s : State) (part p : Nat) : Bool := syncHome s part != some p

/-- A write of JIG_ERBASEc: ENABLE starts the ring afresh, or is refused. -/
def erbaseWrite (s : State) (a : RegAddr) (v : Nat) : State :=
  let s := plainWrite s a v
  match a.loc with
  | .panel p =>
    let x := rget s a
    let part := bits x 11 4
    if !(bit x 0) then s
    else if bits x 51 48 < 6 || offSyncHome s part p ||
        otherServes s .jigErbase allPanels 64 a (fun y => bits y 11 4 == part && bits y 3 2 == bits x 3 2) then
      refuseEnable s a v
    else
      let s := rsetField s (panelReg .jigErptr p a.i) 31 0 0
      ringRoom part (bits x 3 2) (setRing s { ringState s p a.i with phase := true })
  | _ => s

/-- A write of JIG_ERPTRc: CONSUMER moves, an outstanding interrupt ends, waiting events find room. -/
def erptrWrite (s : State) (a : RegAddr) (v : Nat) : State :=
  let s := plainWrite s a v
  match a.loc with
  | .panel p =>
    let x := rget s (panelReg .jigErbase p a.i)
    let s := setRing s { ringState s p a.i with irq := false }
    if bit x 0 then ringRoom (bits x 11 4) (bits x 3 2) s else s
  | _ => s

/-! Salvage and retain contexts. -/

/-- A write of JIG_SALVn. -/
def salvWrite (s : State) (a : RegAddr) (v : Nat) : State :=
  let s := plainWrite s a v
  match a.loc with
  | .panel p =>
    let x := rget s a
    let part := bits x 15 8
    if bit x 0 && ((benchesOf s part p).isEmpty || offSyncHome s part p ||
        otherServes s .jigSalv allPanels 16 a (fun y => bits y 15 8 == part)) then refuseEnable s a v
    else s
  | _ => s

/-- A write of JIG_RETCFGn: a write of ENABLE as 1 empties the directory. -/
def retcfgWrite (s : State) (a : RegAddr) (v : Nat) : State :=
  let s := plainWrite s a v
  match a.loc with
  | .panel p =>
    let x := rget s a
    let part := bits x 15 8
    let off := bits x 45 32 * 0x10000
    let size := bits x 61 48 * 0x10000
    let s := { s with jig := { s.jig with retained := s.jig.retained.filter fun r => !(r.panel == p && r.n == a.i) } }
    if bit x 0 && ((setPositions 16 (bits x 31 16)).any (fun k => !(inSlicesOf s k part off size)) ||
        otherServes s .jigRetcfg allPanels 8 a (fun y => bits y 15 8 == part && bits y 3 1 == bits x 3 1)) then
      refuseEnable s a v
    else s
  | _ => s

/-! Tile caches. -/

/-- Frames of a cache context. -/
def ctxFrames (s : State) (p n : Nat) : List CacheFrame := s.cache.frames.filter fun f => f.panel == p && f.n == n

/-- Every frame of a context INVALID, without write-back. -/
def dropFrames (s : State) (p n : Nat) : State :=
  { s with cache := { s.cache with
      frames := s.cache.frames.filter fun f => !(f.panel == p && f.n == n)
      closing := s.cache.closing.filter fun c => !(c.1 == p && c.2.1 == n) } }

/-- Does a cache context break a rule that refuses ENABLE (SBD_CCFGn, SBD_CWINn)? -/
def cacheRefused (s : State) (p n : Nat) : Bool :=
  let c := rget s (panelReg .sbdCcfg p n)
  let w := rget s (panelReg .sbdCwin p n)
  let log2 := bits c 35 32
  let area := bits c 29 16
  let size := bits w 5 0
  log2 < 4 || 14 < log2 || area % 2 ^ log2 != 0 || size < 16 || 39 < size || bits w 47 16 * 0x10000 % 2 ^ size != 0 ||
  !(inSlicesOf s p (bits c 15 8) (area * 0x10000) (2 ^ log2 * 0x10000))

/-- A write of SBD_CCFGn: ENABLE as 1 starts the context with every frame INVALID; ENABLE as 0 starts the write-back of R314, and
the written value waits for its end. -/
def ccfgWrite (s : State) (a : RegAddr) (v : Nat) : State :=
  match a.loc with
  | .panel p =>
    if !(bit v 0) && rbit s a 0 then
      { s with cache := { s.cache with closing :=
          (s.cache.closing.filter fun c => !(c.1 == p && c.2.1 == a.i)) ++ [(p, a.i, v)] } }
    else
      let s := dropFrames (plainWrite s a v) p a.i
      if rbit s a 0 && cacheRefused s p a.i then refuseEnable s a v else s
  | _ => s

/-- The write-backs of a disable are done: the context disables with every frame INVALID (R314). -/
def cacheDisabled (p n : Nat) (s : State) : State :=
  match s.cache.closing.find? fun c => c.1 == p && c.2.1 == n with
  | none => s
  | some c =>
    let s := (ctxFrames s p n).foldl writeBackFrame s
    plainWrite (dropFrames s p n) (panelReg .sbdCcfg p n) c.2.2

/-- A fill completes (R311). -/
def cacheFilled (p n va : Nat) (s : State) : State :=
  match findFrame s p n va with
  | some f => if f.state == .filling then (fillFrame s f).1 else s
  | none => s

def execCacheDisableDone (panel n : Nat) (s : State) : Result := .next (cacheDisabled panel n s)
def execCacheFillDone (panel n frameAddr : Nat) (s : State) : Result := .next (cacheFilled panel n frameAddr s)

end Sys2Proof.Machine
end

