-- ==== Sys2Proof/Machine/Drawers.lean ====
section
/-!
DEFINITION. What befalls drawers, sideboards and DRAM: port collisions (11_drawers_tiers.md R296, R297), refusals (R301, R305),
bunting parity (06_jig.md R191), uncorrectable and corrected granules, write batches, refresh, the patrol scrub and the hot-bank
monitor (12_hbm_lpddr.md R334 to R336, R344, R345, R349, R352).
-/
namespace Sys2Proof.Machine

/-! Drawers. -/

/-- The first of the 64-bit words that two ranges of a drawer share. -/
def sharedWord (a n b m : Nat) : Option Nat :=
  let lo := max (a / 8) (b / 8)
  let hi := min (ceilDiv (a + n) 8) (ceilDiv (b + m) 8)
  if n != 0 && m != 0 && lo < hi then some (8 * lo) else none

/-- Log a dropped beat (DRW_COLLIDE). -/
def logCollision (s : State) (p b off master : Nat) : State :=
  let a := benchReg .drwCollide p b 0
  let s := rbump s a 47 32 1
  if rbit s a 63 then s else rset s a (setBits (setBits (setBits (rget s a) 21 3 (off / 8)) 26 24 master) 63 63 1)

/-- The beat of an MI is dropped whole: its write leaves these bytes alone, and the MI meets LOST (R296, R297). -/
def dropBeat (s : State) (mi : Option Nat) (a n : Nat) : State :=
  match mi.bind (findFlight s) with
  | some f => putFlight s { f with drops := f.drops ++ [(a, n)], conds := f.conds ++ [{ status := 1 }] }
  | none => s

/-- Port A and port B write the same word in one cycle (R296, R297): port A's write takes effect and port B's beat is dropped; the
ingest die and the Halyard repeat it once, and report LOST when the repeat is dropped too (`again`); a remote write is answered LOST;
the MI behind any other beat meets LOST. `word` is the number of port A's 64-bit word, `beat` the byte offset of port B's beat. -/
def portCollision (p b word master : Nat) (aBytes : List Nat) (beat : Nat) (bBytes : List Nat) (mi : Option Nat) (again : Bool)
    (remote : Option Packet) (s : State) : State :=
  match sharedWord (8 * word) aBytes.length beat bBytes.length with
  | none => s
  | some off =>
    let at' := drawerBase p b + beat
    let s := logCollision (physWrite s (drawerBase p b + 8 * word) aBytes) p b off master
    if master == 3 || master == 5 then
      (if again then emit (logCollision s p b off master) (.status master 1 0 at') else physWrite s at' bBytes)
    else
      match remote with
      | some k => keepAnswer s k (answer s k 3 1 0 [])
      | none => dropBeat s mi at' bBytes.length

/-- A request that the regions or the slices refuse (R301, R305): nothing where they allow it. A requester without an MI or a
partition, the Halyard first, is answered DENIED. -/
def regionRefused (a n master : Nat) (part : Option Nat) (write : Bool) (mi : Option Nat) (s : State) : State :=
  let r : Req := { part := part, master := master }
  match physRefusal s r a n write with
  | some (cause, detail) =>
    if detail == 0x0100 then
      let s := condFor (refuseAccess s r a write cause 0) mi { status := 2, detail := detail, aux := a }
      if mi.isNone && part.isNone then emit s (.status master 2 detail a) else s
    else s
  | none => s

/-- A crossbar beat fails parity at the output port of physical bench `b` (R191). -/
def buntingParity (p b beat len mi : Nat) (s : State) : State :=
  match findFlight s mi with
  | none => s
  | some f =>
    let addr := drawerBase p b + beat
    let s := markPoison s addr len
    let a := panelReg .bntPerr p 0
    let s := rbump s a 23 8 1
    let s := if rbit s a 63 then s else rset s a (setBits (setBits (rget s a) 5 0 b) 63 63 1)
    let s := postFault s { cls := 7, detail := 5, die := 0, unit := p, sub := b, part := some f.part, addr := some addr
                           info := accessInfo 1 true 0 }
    condFor s (some mi) { status := 6 }

/-! DRAM. -/

/-- The granule of an address. -/
def granule (a : Nat) : Nat := a / 64 * 64

/-- A read finds an uncorrectable error (R334): the granule reads as POISON from now on. Inside a container the decoder finds a
damaged block instead, when the MI's effect reads it. -/
def dramUe (a : Nat) (mi : Option Nat) (s : State) : State :=
  let u := granule a
  match dramChanOf s u with
  | none => s
  | some _ =>
    let s := noteUe (markPoison s u 64) u
    match mi.bind (findFlight s) with
    | some f => if f.descs.any (fun d => d.any (·.comp != 0)) then s else condFor s (some f.mi) { status := 6 }
    | none => s

/-- A read finds an error that the code corrects (R335). -/
def dramCorrected (a : Nat) (s : State) : State :=
  let u := granule a
  match dramChanOf s u with
  | none => s
  | some ch =>
    let ecc : RegAddr := match ch with
      | .hbm st _ _ => edgeReg .hbmEcc (st / 2) (st % 2)
      | .lpddr pk _ => edgeReg .lpxEcc (pk / 4) 0
    let s := rbump s ecc 31 0 1
    let held := holdWrite s.time s.dram.held ch u
    { s with dram := { s.dram with
        held := held
        writeBack := if held.any (·.1 == ch) then insertNat s.dram.writeBack u
          else s.dram.writeBack.filter fun x => dramChanOf s x != some ch
        corrs := (ch, s.time) :: s.dram.corrs.filter (fun e => decide (s.time < e.2 + 3600000000000)) } }

/-- What the controller's decoder makes of a granule of which `bad` bytes are wrong, read from a location whose address differs in
`wrong` bytes from the one asked for (R332, R333). -/
inductive Decoded where
  | clean | corrected | uncorrectable
  /-- More errors than the code detects: reported, or miscorrected. -/
  | beyond
deriving DecidableEq, Repr, Inhabited

/-- The code of HBM4 corrects 3 bytes of 72 and detects 5, and a correction in the folded address is uncorrectable; that of LPDDR5X
corrects 1 byte and detects 3 (R332, R333). -/
def decodeOutcome (r : Region) (bad wrong : Nat) : Decoded :=
  match r with
  | .hbm =>
    if bad + wrong == 0 then .clean
    else if wrong == 0 && bad ≤ 3 then .corrected
    else if bad + wrong ≤ 5 then .uncorrectable
    else .beyond
  | .lpddr => if bad == 0 then .clean else if bad ≤ 1 then .corrected else if bad ≤ 3 then .uncorrectable else .beyond
  | _ => .clean

/-- A read that the decoder reports as uncorrectable. -/
def readUncorrectable (a bad wrong : Nat) (mi : Option Nat) (s : State) : State :=
  match decodeOutcome (regionOf a) bad wrong with
  | .uncorrectable | .beyond => dramUe a mi s
  | _ => s

/-- A read whose error the decoder corrects. Beyond the code's limits it miscorrects, and what the granule then holds is an open value
(R332, R333; log entry 11). -/
def readCorrected (a bad wrong : Nat) (s : State) : State :=
  match decodeOutcome (regionOf a) bad wrong with
  | .corrected => dramCorrected a s
  | .beyond =>
    let (x, s) := fresh s 332
    dramCorrected a { s with mem := Memory.write s.mem (granule a) (leBytes 64 x) }
  | _ => s

/-- A refresh is served (R344). -/
def refreshServed (ch : DramChan) (s : State) : State :=
  let n := ((s.dram.refreshes.find? (·.1 == ch)).map (·.2)).getD 0
  { s with dram := { s.dram with refreshes := upsert (·.1 == ch) (ch, n + 1) s.dram.refreshes } }

/-- The patrol scrub reads a granule (R335): what it finds acts as a read of the granule would. -/
def patrol (a : Nat) (f : ScrubFinding) (s : State) : State :=
  if isPoison s (granule a) then (if (dramChanOf s (granule a)).isSome then noteUe s (granule a) else s)
  else match f with
    | .clean => s
    | .corrected => dramCorrected a s
    | .uncorrectable => dramUe a none s

/-- The refresh rate of a channel doubles, or is restored (R349). -/
def refreshRate (ch : DramChan) (hot : Bool) (s : State) : State :=
  let rest := s.dram.hot.filter (· != ch)
  { s with dram := { s.dram with hot := if hot then rest ++ [ch] else rest } }

/-- The hot-bank log of the channel of an address, and the location as it holds it: channel or package, pseudo-channel, SID, bank group
and bank (R352, R353). -/
def hotPlace (s : State) (a : Nat) : Option (RegAddr × Nat) :=
  let draw := maskDraw s a
  match regionOf a with
  | .hbm =>
    let l := hbmLocation draw a
    some (edgeReg .hbmHot (l.stack / 2) (l.stack % 2), l.ch + l.pc <<< 5 + l.sid <<< 6 + l.bg <<< 8 + l.bank <<< 10)
  | .lpddr =>
    let l := lpLocation draw a
    some (edgeReg .lpxHot (l.pkg / 4) 0, l.pkg % 4 + l.ch <<< 4 + l.bg <<< 8 + l.bank <<< 10)
  | _ => none

/-- The alarm of a monitor (R352). -/
def hotAlarm (r : RegAddr) (place part : Nat) (s : State) : State :=
  let s := rbump s r 47 32 1
  let s := if rbit s r 63 then s
    else rset s r (setBits (setBits (setBits (rget s r) 15 0 place) 23 16 part) 63 63 1)
  let s := dsetNum s .memHotbankCount 0 0 4 (satAdd 32 (gnum s .memHotbankCount) 1)
  postFault s { cls := 0x0D }

/-- The window of a channel's monitor: activations so far, and those of each bank. -/
def hotWindow (s : State) (ch : DramChan) : Nat × List (Nat × Nat) :=
  ((s.dram.acts.find? (·.1 == ch)).map (·.2)).getD (0, [])

/-- Activations of one bank in one window that take it to the threshold, mem.hotbank.fraction / 256 of 65,536. -/
def hotThreshold (s : State) : Nat := gnum s .memHotbankFraction * 256

/-- `n` activations of the bank of an address by a partition, all in one window (R352): the monitor counts them, raises its alarm when
they carry the bank to the threshold, and starts afresh once the window is full. -/
def hotCount (a part n : Nat) (s : State) : State :=
  match hotPlace s a, dramChanOf s a with
  | some (r, place), some ch =>
    let bank := bits place 11 6
    let w := hotWindow s ch
    let old := ((w.2.find? (·.1 == bank)).map (·.2)).getD 0
    let next : Nat × List (Nat × Nat) :=
      if 65536 ≤ w.1 + n then (0, []) else (w.1 + n, upsert (·.1 == bank) (bank, old + n) w.2)
    let t := { s with dram := { s.dram with acts := upsert (·.1 == ch) (ch, next) s.dram.acts } }
    if old < hotThreshold s && hotThreshold s ≤ old + n then hotAlarm r place part t else t
  | _, _ => s

/-- `n` activations of the bank of an address by a partition, over the end of a window (R352). -/
def hotBank (a part n : Nat) (s : State) : State :=
  if gnum s .memHotbankEnable == 0 then s
  else
    match dramChanOf s a with
    | none => s
    | some ch =>
      let left := 65536 - (hotWindow s ch).1
      if n ≤ left then hotCount a part n s else hotCount a part (n - left) (hotCount a part left s)

/-! The meanings. -/

def execDrawerPortCollision (panel bench word master : Nat) (aBytes : List Nat) (beat : Nat) (bBytes : List Nat)
    (dropped : DroppedBeat) (s : State) : Result :=
  .next (portCollision panel bench word master aBytes beat bBytes dropped.mi dropped.again dropped.remote s)
def execRegionRefusal (addr n master : Nat) (part : Option Nat) (write : Bool) (mi : Option Nat) (s : State) : Result :=
  .next (regionRefused addr n master part write mi s)
def execBuntingParityError (panel bench beat len mi : Nat) (s : State) : Result := .next (buntingParity panel bench beat len mi s)
def execDramUncorrectableRead (r : GranuleRead) (mi : Option Nat) (s : State) : Result :=
  .next (readUncorrectable r.addr r.bad r.wrong mi s)
def execDramCorrectedRead (r : GranuleRead) (s : State) : Result := .next (readCorrected r.addr r.bad r.wrong s)
def execWriteDrain (ch : DramChan) (s : State) : Result := .next (drainWrites ch s)
def execDramRefresh (ch : DramChan) (s : State) : Result := .next (refreshServed ch s)
def execPatrolScrub (addr : Nat) (f : ScrubFinding) (s : State) : Result := .next (patrol addr f s)
def execHotBankAlarm (addr : Nat) (acts : Activations) (s : State) : Result := .next (hotBank addr acts.part acts.n s)
def execRefreshRateDoubling (ch : DramChan) (hot : Bool) (s : State) : Result := .next (refreshRate ch hot s)

end Sys2Proof.Machine
end

