-- ==== Sys2Proof/Machine/LinkLayer.lean ====
section
/-!
DEFINITION. The link layer and the neighbours of a fabric port (15_azoer.md R404 to R409, R416 to R419, R433; 20_faults.md
R551): flits, replay, credits, HELLO, training and lane loss, and the slots of scheduled mode (R426 to R432).
-/
namespace Sys2Proof.Machine

/-! Flits (R406, R407). -/

/-- Is `seq` the one due, or how far behind or ahead does it lie? Distances are modulo 4,096. -/
def seqAhead (due seq : Nat) : Nat := (seq + 4096 - due) % 4096

/-- Release the replay buffer up to an acknowledged SEQ. -/
def ackReplay (v : Port) (ack : Nat) : Port :=
  match v.replay.findIdx? (fun e => e.seq == ack) with
  | some i => { v with replay := v.replay.drop (i + 1) }
  | none => v

/-- Take the acknowledgement and the credits that a good flit carries. -/
def takeHead (v : Port) (h : Nat) : Port :=
  let v := if bit h 28 then ackReplay v (bits h 27 16) else v
  let n := bits h 52 41
  if n == 0 then v else { v with credits := vcSet v.credits (bits h 40 32) (vcGet v.credits (bits h 40 32) + n) }

/-- An idle flit: the SEQ of the next stored flit, not stored itself; it carries the acknowledgement and one VC's credits. -/
def sendIdle (s : State) (p : Nat) : State :=
  let v := portAt s p
  let (cvc, ccnt) := match v.owed.find? (fun e => e.2 != 0) with | some e => e | none => (0, 0)
  let v' := { v with owed := (vcSet v.owed cvc 0).filter (fun e => e.2 != 0) }
  emit (setPort s p v') (.flit p (flitBytes 0 v.txSeq (ackOf v) v.rxAny cvc ccnt []))

/-- Ask for the flit that is due. -/
def askAgain (s : State) (p : Nat) : State :=
  let v := portAt s p
  sendControl (setPort s p { v with rxBad := true }) p 0x01 (leBytes 2 v.rxSeq)

/-- Does the sending interval of a scheduled flit overlap a guard band, by this receiver's clock (R428)? The link delay measured at
training is an open value (log entry 11). -/
def guardHit (s : State) (p : Nat) : Bool :=
  match s.fab.plan with
  | none => false
  | some k =>
    let sent := s.time - Config.openValue p 428 % 10000
    let off := (sent + k.len - k.origin % k.len) % k.len
    s.fab.sched == 2 && (off < k.guard / 2 || k.len - k.guard / 2 ≤ off + 1)

/-- A flit arrives (R407, R408, R428). Its packet, once whole, is a command of its own. -/
def flitArrives (p : Nat) (bs : List Nat) (s : State) : State :=
  let v := portAt s p
  if v.state < 2 then s
  else if crc 1 (bs.take 252) != leAt bs 252 4 then askAgain s p
  else
    let h := leAt bs 0 8
    let kind := bits h 3 0
    let d := seqAhead v.rxSeq (bits h 15 4)
    if d != 0 then
      if v.rxBad || 2048 ≤ d then s else askAgain s p
    else if kind == 0 then
      (if v.rxBad then s else drainPort (setPort s p (takeHead v h)) p)
    else
      let vc := if kind == 1 then leAt bs 12 2 % 512 else v.rxVc
      let v := takeHead { v with rxSeq := (v.rxSeq + 1) % 4096, rxBad := false, rxAny := true } h
      let v := if kind == 1 || kind == 2 then { v with rxVc := vc, held := vcSet v.held vc (vcGet v.held vc + 1) } else v
      let s := setPort s p v
      let s := if (kind == 1 || kind == 2) && vc == 257 && guardHit s p then rbump s (portReg .azfPcnt p) 63 48 1 else s
      drainPort (sendIdle s p) p

/-- Post a FABRIC_PORT record (20_faults.md R537). -/
def portFault (s : State) : State := postFault s { cls := 4 }

/-- A NAK makes the transmitter resend from the SEQ that it names; the eighth replay of one SEQ in a row retrains the port
(R407). -/
def flitNak (p seq : Nat) (s : State) : State :=
  let v := portAt s p
  match v.replay.findIdx? (fun e => e.seq == seq % 4096) with
  | none => s
  | some i =>
    if v.state < 2 then s
    else
      let n := if v.replayed.1 == seq % 4096 then v.replayed.2 + 1 else 1
      let s := rbump s (portReg .azfPcnt p) 31 0 1
      if 8 ≤ n then portFault (setPort s p { v with replayed := (0, 0), state := 1 })
      else
        let s := setPort s p { v with replayed := (seq % 4096, n) }
        (v.replay.drop i).foldl (fun s e =>
          emit s (.flit p (flitBytes e.kind e.seq (ackOf v) v.rxAny 0 0 e.body))) s

/-- Initial credits arrive (R409); VC 256 always holds at least 16 (R408). -/
def creditsArrive (p : Nat) (cs : List (Nat × Nat)) (s : State) : State :=
  let v := portAt s p
  let l := cs.foldl (fun l c => vcSet l c.1 c.2) v.credits
  if v.state < 2 then s else drainPort (setPort s p { v with credits := vcSet l 256 (max 16 (vcGet l 256)) }) p

/-- The receive buffer that a port reserves for each VC (18_partitions.md R506). -/
def reservedVcs (s : State) : List (Nat × Nat) :=
  ((List.range 256).filter fun q => pnum s .partitionFabricWeight q != 0).map (fun q => (q, 17)) ++
  [(256, 16)] ++ (if gnum s .fabSchedEnable == 1 then [(257, 256)] else [])

/-- CREDIT_INIT messages: a VC number and its credits, two bytes each, at most 60 pairs a message (log entry 89). -/
def creditMessages : Nat → List (Nat × Nat) → List (List Nat)
  | 0, _ => []
  | fuel + 1, l =>
    if l.isEmpty then [] else ((l.take 60).flatMap fun c => leBytes 2 c.1 ++ leBytes 2 c.2) :: creditMessages fuel (l.drop 60)

/-! Training (R404, R405, R551). -/

/-- Send every stored flit again (R407). -/
def replayAll (s : State) (p : Nat) : State :=
  let v := portAt s p
  v.replay.foldl (fun s e => emit s (.flit p (flitBytes e.kind e.seq (ackOf v) v.rxAny 0 0 e.body))) s

/-- A port trains on 8 or 7 lanes. A port that was DOWN starts its link layer afresh and sends its initial credits, whose layout
the spec leaves open (log entry 89); one that retrained keeps its credits and sends what its replay buffer holds again. -/
def portTrains (p lanes : Nat) (fallback : Bool) (s : State) : State :=
  if lanes < 7 || 8 < lanes then s
  else
    let v := portAt s p
    let st := if lanes == 8 then 2 else 3
    if v.state == 0 then
      let s := setPort s p { state := st, lanes := lanes, fallback := fallback, queue := v.queue, credits := [(256, 16)]
                             nbrPort := v.nbrPort, nbrAddr := v.nbrAddr, nbrSerial := v.nbrSerial }
      drainPort ((creditMessages 5 (reservedVcs s)).foldl (fun s m => sendControl s p 0x02 m) s) p
    else drainPort (replayAll (setPort s p { v with state := st, lanes := lanes, fallback := fallback }) p) p

/-- The delivered flit rate of a port over 1 ms with traffic queued, in 256ths of its state's rate (R433). -/
def portRate (p rate : Nat) (s : State) : State :=
  let v := portAt s p
  if v.state < 2 then s else setPort s p { v with slow := decide (rate < gnum s .fabSlowThreshold) }

/-! HELLO and the fabric manager (R416, R418, R419). -/

/-- The lowest manager pair, with its distance: this device's own, or one that a partner reports. A reported serial number of 0
is no manager. -/
def managerPair (s : State) : Option (Nat × Nat × Nat) :=
  let own := if gnum s .fabManagerEnable == 1 then [(gnum s .fabManagerPriority, Config.serial, 0)] else []
  let heard := s.fab.ports.filterMap fun v =>
    if v.nbrValid then v.mgr.bind fun m => if m.2.1 == 0 then none else some (m.1, m.2.1, min 255 (m.2.2 + 1)) else none
  (own ++ heard).foldl (fun b m =>
    match b with
    | none => some m
    | some x => if m.1 < x.1 || (m.1 == x.1 && (m.2.1 < x.2.1 || (m.2.1 == x.2.1 && m.2.2 < x.2.2))) then some m else b) none

/-- Adopt the lowest pair. -/
def adoptManager (s : State) : State :=
  dsetNum s .fabManagerSerial 0 0 8 (match managerPair s with | some m => m.2.1 | none => 0)

/-- A HELLO arrives. -/
def helloArrives (p serial nport addr prio mserial dist : Nat) (s : State) : State :=
  let v := portAt s p
  if v.state < 2 then s
  else
    let s := adoptManager (setPort s p
      { v with nbrValid := true, nbrPort := nport, nbrAddr := addr, nbrSerial := serial
               mgr := some (prio, mserial, dist), helloAt := s.time })
    if addr == selfAddr s && addr != 0xFFFF && serial != Config.serial then postFault s { cls := 9 } else s

/-- A HELLO leaves: serial number, port, address, manager priority and serial number, distance. -/
def helloLeaves (p : Nat) (s : State) : State :=
  if (portAt s p).state < 2 then s
  else
    let m := (managerPair s).getD (0xFF, 0, 0)
    sendControl s p 0x20 (leBytes 8 Config.serial ++ [p] ++ leBytes 2 (selfAddr s) ++ [m.1] ++ leBytes 8 m.2.1 ++ [m.2.2])

/-- No HELLO for 4 ms: global time has then reached that limit (log entry 40). -/
def helloLost (p : Nat) (s : State) : State :=
  let v := portAt s p
  if !v.nbrValid then s
  else
    adoptManager (setPort { s with time := max s.time (v.helloAt + 4000000) } p { v with nbrValid := false, mgr := none })

/-! Scheduled mode (R426 to R432). -/

/-- The schedule that the dictionary holds. -/
def dictPlan (s : State) : SchedPlan :=
  { len := gnum s .fabSchedSlotLen * 1000, guard := gnum s .fabSchedGuard, period := gnum s .fabSchedPeriod
    origin := gnum s .fabSchedOrigin, maps := (List.range 12).map fun p => dget s { id := .fabSchedMapP, i := p } }

/-- The first multiple of `step` past `origin` that is at or after `t`. -/
def nextStart (origin step t : Nat) : Nat :=
  if t ≤ origin then origin else origin + ceilDiv (t - origin) (max step 1) * max step 1

/-- Slot index at a global time. -/
def slotIndex (k : SchedPlan) (t : Nat) : Nat := (t - k.origin) / max k.len 1 % max k.period 1

/-- Open or close each port's scheduled transmission for the slot at the present time, and send what may go. -/
def openSlots (s : State) (k : SchedPlan) : State :=
  let i := slotIndex k s.time
  let s := { s with fab := { s.fab with ports := s.fab.ports.zipIdx.map fun v =>
    let exited := v.1.exited && !(v.1.enterAt.any (· ≤ s.time))
    { v.1 with slotOpen := bit ((k.maps.getD v.2 []).getD (i / 8) 0) (i % 8), exited := exited
               enterAt := if exited then v.1.enterAt else none } } }
  (List.range 12).foldl drainPort s

/-- A slot boundary passes: the next one after the last. A device whose announced start has come resumes scheduled mode
(R432). -/
def slotBoundary (s : State) : State :=
  match s.fab.plan with
  | none => s
  | some k =>
    let t := nextStart k.origin k.len s.time
    let t := if s.fab.slotAt == some t then t + k.len else t
    let s := { s with time := t, fab := { s.fab with slotAt := some t } }
    let s := if s.fab.sched == 3 && s.fab.enterAt.any (· ≤ t) then
      { s with fab := { s.fab with sched := 2, enterAt := none } } else s
    openSlots s k

/-- A new schedule takes effect at the first period start (R429). -/
def schedActivate (s : State) : State :=
  if s.fab.sched != 1 then s
  else
    let k := dictPlan s
    let t := nextStart k.origin (k.len * k.period) s.time
    openSlots { s with time := t, fab := { s.fab with sched := 2, plan := some k, slotAt := some t } } k

/-- Send a link control message on every trained port. -/
def controlAll (s : State) (code : Nat) (fields : List Nat) : State :=
  (List.range 12).foldl (fun s p => if 2 ≤ (portAt s p).state then sendControl s p code fields else s) s

/-- The estimated time error exceeds G/2 (R430). -/
def schedDrift (s : State) : State :=
  match s.fab.plan with
  | none => s
  | some k =>
    if s.fab.sched != 2 || timeError s ≤ k.guard / 2 then s
    else
      let s := controlAll { s with fab := { s.fab with sched := 3 } } 0x10 []
      let s := [0, 1, 2, 3].foldl (fun s e =>
        rsetField (rbump s (edgeReg .azfSched e 0) 47 32 1) (edgeReg .azfSched e 0) 63 63 1) s
      (List.range 12).foldl drainPort (postFault s { cls := 0x0A })

/-- The time error has stayed within G/4 for 1 ms: the device announces the next period start that lies at least 2L ahead
(R432). -/
def schedReenter (s : State) : State :=
  match s.fab.plan with
  | none => s
  | some k =>
    if s.fab.sched != 3 || s.fab.enterAt.isSome || k.guard / 4 < timeError s then s
    else
      let t := nextStart k.origin (k.len * k.period) (s.time + 2 * k.len)
      controlAll { s with fab := { s.fab with enterAt := some t } } 0x11 (leBytes 8 t)

/-- SCHED_EXIT arrives (R431). -/
def exitArrives (p : Nat) (s : State) : State :=
  let v := portAt s p
  if v.state < 2 then s else drainPort (setPort s p { v with exited := true, enterAt := none }) p

/-- SCHED_ENTER arrives: the link keeps to credits until the start that it names. -/
def enterArrives (p start : Nat) (s : State) : State :=
  let v := portAt s p
  if v.state < 2 || !v.exited then s
  else setPort s p (if start ≤ s.time then { v with exited := false, enterAt := none } else { v with enterAt := some start })

/-! The meanings. -/

def execFlitReceive (port : Nat) (bytes : List Nat) (s : State) : Result := .next (flitArrives port bytes s)
def execFlitNak (port seq : Nat) (s : State) : Result := .next (flitNak port seq s)
def execCreditInit (port : Nat) (credits : List (Nat × Nat)) (s : State) : Result := .next (creditsArrive port credits s)
def execSchedExit (port : Nat) (s : State) : Result := .next (exitArrives port s)
def execSchedEnter (port start : Nat) (s : State) : Result := .next (enterArrives port start s)
def execHello (port serial nport addr prio mserial dist : Nat) (s : State) : Result :=
  .next (helloArrives port serial nport addr prio mserial dist s)
def execHelloSend (port : Nat) (s : State) : Result := .next (helloLeaves port s)
def execHelloTimeout (port : Nat) (s : State) : Result := .next (helloLost port s)
def execPortTrained (port lanes : Nat) (fallback : Bool) (s : State) : Result :=
  .next (if awake s then capNote s (portTrains port lanes fallback s) else s)
def execFabricPortSlow (port rate : Nat) (s : State) : Result := .next (portRate port rate s)
def execSchedSlotBoundary (s : State) : Result := .next (slotBoundary s)
def execSchedActivate (s : State) : Result := .next (schedActivate s)
def execSchedDriftExit (s : State) : Result := .next (schedDrift s)
def execSchedReentry (s : State) : Result := .next (schedReenter s)

end Sys2Proof.Machine
end

