-- ==== Sys2Proof/Machine/Packets.lean ====
section
/-!
DEFINITION. Packets (15_azoer.md R410 to R425): what a destination does with a request, what a source does with an answer, source
routing, forwarding, resends; and a port that loses its second lane (20_faults.md R551).
-/
namespace Sys2Proof.Machine

/-! Requests of this device. -/

def findRequest (s : State) (tag : Nat) : Option Request := s.fab.requests.find? (·.tag == tag)

/-- Bytes that an atomic operation works on, and the bytes of its operand. -/
def atomicSize (aop : Nat) : Nat := if aop == 0 then 4 else 8
def atomicOperand (aop : Nat) : Nat := match aop with | 0 => 4 | 3 => 16 | _ => 8

/-- The new value of an atomic operation (R410, R411). -/
def atomicNew (aop old : Nat) (operand : List Nat) : Nat :=
  match aop with
  | 0 => (old + leAt operand 0 4) % 2 ^ 32
  | 1 => (old + leAt operand 0 8) % 2 ^ 64
  | 2 => leAt operand 0 8
  | _ => if old == leAt operand 0 8 then leAt operand 8 8 else old

/-- Has a neighbour access without an MI unanswered requests? -/
def jobAwaits (s : State) (id : Nat) : Bool := s.fab.requests.any (·.job == some id) || s.fab.backlog.any (·.job == some id)

/-- A neighbour access without an MI has its answers: its requester hears of it (01_cabinet.md R33). -/
def finishJob (s : State) (j : Job) : State :=
  let s := { s with fab := { s.fab with jobs := s.fab.jobs.filter (·.id != j.id) } }
  let bs := (List.range j.n).map fun i => (pieceByte j.parts (j.va + i)).getD 0
  let c : Cond := match j.cond with
    | some c => c
    | none => { status := if bs.any (255 < ·) then 6 else 0 }
  let data := if c.status == 0 then bs else List.replicate j.n 0
  match j.who with
  | .bar fn => emit s (.barData fn c.status c.detail data)
  | .unit => { s with fab := { s.fab with arrived := s.fab.arrived ++ [(j.part, j.va, if c.status == 6 then bs else data, j.cond)] } }
  | .enable a v =>
    enableUnit a v { s with fab := { s.fab with arrived := s.fab.arrived ++ [(j.part, j.va, data, j.cond)] } }
  | .packet k =>
    if k.op == 0 then (sendAnswer s (answer s k 1 c.status c.detail data)).1
    else if k.op == 2 then keepAnswer s k (answer s k 3 c.status c.detail [])
    else if c.status != 0 then keepAnswer s k (answer s k 5 c.status c.detail data)
    else
      let n := atomicSize k.aop
      let (s, c) := match translate s k.vc k.addr true with
        | (.ok pa, s) => sendNeighbor s none none j.part 2 pa k.addr n (leBytes n (atomicNew k.aop (leVal data) k.payload))
        | (.error d, s) => (s, some { status := 2, detail := d })
      let c := c.getD { status := 0 }
      keepAnswer s k (answer s k 5 c.status c.detail data)

/-- Nothing that an MI or a job waits for is outstanding any longer: it goes on (R411; 13_inlay.md R377). -/
def goOn (s : State) (mi job : Option Nat) : State :=
  match mi.bind (findFlight s), job with
  | some f, _ =>
    if awaits s f.mi then s
    else if f.phase == .waiting && miOpcode f.word != 0x40 && miOpcode f.word != 0x42 then putFlight s { f with phase := .issued }
    else sendPuts s f.mi
  | none, some id =>
    if jobAwaits s id then s
    else match s.fab.jobs.find? (·.id == id) with
      | some j => finishJob s j
      | none => s
  | none, none => s

/-- Note why a request failed, for the MI or the job behind it. -/
def noteFailed (s : State) (r : Request) (c : Cond) : State :=
  match r.mi, r.job with
  | some mi, _ => condFor s (some mi) c
  | none, some id => { s with fab := { s.fab with jobs := s.fab.jobs.map fun j =>
      if j.id == id then { j with cond := firstCond j.cond (some c) } else j } }
  | none, none => s

/-- The oldest request that waited for room in a flow leaves (R413); one that finds no route has failed, and the next is tried. -/
def launchNext : Nat → State → Packet → State
  | 0, s, _ => s
  | fuel + 1, s, k =>
    match s.fab.backlog.find? fun r => r.pkt.dst == k.dst && r.pkt.vc == k.vc && r.pkt.flow == k.flow with
    | none => s
    | some r =>
      let (s, ok) := launch { s with fab := { s.fab with backlog := s.fab.backlog.erase r } } r
      if ok then s
      else
        let s := noteFailed s r (unrouted r.va)
        launchNext fuel (goOn s r.mi r.job) k

/-- A request has ended. -/
def endRequest (s : State) (r : Request) : State :=
  let s := { s with fab := { s.fab with requests := s.fab.requests.filter (·.tag != r.tag) } }
  goOn (launchNext (s.fab.backlog.length + 1) s r.pkt) r.mi r.job

/-- A request fails with a status and DETAIL. -/
def failRequest (s : State) (r : Request) (status detail aux : Nat) : State :=
  endRequest (noteFailed s r { status := status, detail := detail, aux := aux }) r

/-- Send a request again, or fail it after three resends (R412). -/
def resend (s : State) (r : Request) : State :=
  if 3 ≤ r.resends then failRequest s r 2 0x0902 r.va
  else
    let r' := { r with resends := r.resends + 1, sent := s.time }
    let s := { s with fab := { s.fab with requests := s.fab.requests.map fun x => if x.tag == r.tag then r' else x } }
    let (s, ok) := sendPacket s r.pkt
    if ok then s else failRequest s r' 2 0x0901 r.va

/-- No answer for 100 µs: global time has then reached that limit (log entry 40). -/
def resendTimeout (tag : Nat) (s : State) : State :=
  match findRequest s tag with
  | some r => resend { s with time := max s.time (r.sent + 100000) } r
  | none => s

/-! Discards. -/

/-- A packet that no route takes (R425): counted by edge die `e`; a request's source hears of it. -/
def discardPacket (s : State) (e : Nat) (k : Packet) : State :=
  let s := unreachableCount s e
  if !([0, 2, 4, 6].contains k.op) then s
  else if k.src == selfAddr s then
    (match findRequest s k.tag with
     | some r => failRequest s r 2 0x0901 r.va
     | none => s)
  else (sendAnswer s (answer s k 9 0 0 [])).1

/-- Send a packet on, or discard it. -/
def forwardOr (s : State) (e : Nat) (k : Packet) : State :=
  match routeTo s k with
  | .port q => transmit s q k
  | _ => discardPacket s e k

/-- The packets that waited for a port which is DOWN are routed again (20_faults.md R551). -/
def reroute (s : State) (p : Nat) : State :=
  let q := (portAt s p).queue
  q.foldl (fun s k => forwardOr s (p / 3) k) (setPort s p { portAt s p with queue := [] })

/-- A port loses a lane: it retrains on the other 7, or goes DOWN when it had lost one already (20_faults.md R551). -/
def laneLost (p : Nat) (s : State) : State :=
  let v := portAt s p
  if v.state == 2 then portFault (setPort s p { v with state := 1, lanes := 7 })
  else if v.state == 3 then capNote s (reroute (portFault (setPort s p { queue := v.queue, nbrPort := v.nbrPort, nbrAddr := v.nbrAddr, nbrSerial := v.nbrSerial })) p)
  else s

/-- The packet that the next device gets: HOPS_LEFT one lower, the CRC changed with the header as the code is linear, so that an
error already in the packet stays in it. -/
def nextHop (k : Packet) (addr : Nat) : Packet :=
  let k' := { k with hopsLeft := k.hopsLeft - 1, addr := addr }
  { k' with crc := k.crc ^^^ packetCrc k ^^^ packetCrc k' }

/-- The flits of a packet leave the receive buffer, and their credits go back with the next flit, an idle one (R408). -/
def bufferFreed (s : State) (p : Nat) (k : Packet) : State :=
  if vcGet (portAt s p).held k.vc == 0 then s else sendIdle (freeBuffer s p k) p

/-- A packet for another device (R423 to R425). -/
def forwardPacket (p : Nat) (k : Packet) (s : State) : State :=
  if (portAt s p).state < 2 then s
  else
  let s := bufferFreed s p k
  if !(addressed s k) || k.dst == 0xFFFF || routeTo s k == .here then s
  else if k.hopsLeft ≤ 1 then discardPacket s (p / 3) k
  else forwardOr s (p / 3) (nextHop k k.addr)

/-! Arrivals. -/

/-- HOPS_LEFT falls at the destination too (R410). -/
def arrivedHop (k : Packet) : Packet := { k with hopsLeft := k.hopsLeft - 1 }

/-- A damaged packet, or one for DST 0xFFFF that is no source-routed message, is discarded and counted (R412, R417). -/
def dropBad (s : State) (p : Nat) : State := rbump s (portReg .azfPcnt p) 47 32 1

/-- Answer a damaged request NAK (R412); the refusal raises a record (14_integrity.md R398), whose class is a DESIGN CHOICE (log entry
144). -/
def nakBad (s : State) (p : Nat) (k : Packet) : State :=
  let s := portFault (dropBad s p)
  if [0, 2, 4, 6].contains k.op then (sendAnswer s (answer s k 8 0 0 [])).1 else s

/-- What every packet for this device meets first: `act` runs on one that is whole. A damaged request is answered NAK (R412). -/
def takePacket (p : Nat) (k : Packet) (ok : Bool) (act : State → State) (s : State) : State :=
  if (portAt s p).state < 2 || !ok then s
  else
  let s := bufferFreed s p k
  if k.dst == 0xFFFF then dropBad s p
  else if !(addressed s k) then s
  else if routeTo s k != .here then s
  else if k.crc != packetCrc k then nakBad s p k
  else act s

/-! Memory for others (R411; 11_drawers_tiers.md R327; 18_partitions.md R495). -/

/-- The lent range that an access of another device names, if its lease table entry matches (R327). -/
def lentFor (s : State) (k : Packet) (n : Nat) : Bool :=
  (List.range 64).any fun i =>
    let st := dnum s .lentState i 0
    let b := dnum s .lentBase i 0
    (st == 3 || st == 4) && dnum s .lentId i 0 == k.lease && dnum s .lentBorrower i 0 == k.src &&
      decide (b ≤ k.addr ∧ k.addr + n ≤ b + dnum s .lentSize i 0)

/-- An access of another device that reaches no memory: a lease that does not match, or a VC without a partition (R327;
01_cabinet.md R32, R614). -/
def refusedOutside (s : State) (k : Packet) (write : Bool) (n : Nat) : Got :=
  { s := refuseAccess s {} k.addr write 3 0, bytes := List.replicate n 0, cond := some { status := 2, detail := 0x0101 } }

/-- Read for another device: through the lease table, or for the partition of the VC, checked as a whole. -/
def serveRead (s : State) (k : Packet) (n : Nat) : Got :=
  if k.lease != 0 then
    if lentFor s k n then
      let bad := (unitsOf k.addr n).filter (isPoison s)
      if bad.isEmpty then { s := s, bytes := Memory.read s.mem k.addr n }
      else { s := bad.foldl noteUe s, bytes := goodBytes s k.addr n, poison := true, cond := some { status := 6 } }
    else refusedOutside s k false n
  else if k.vc < 256 then wholeGet s { part := some k.vc } k.vc k.addr n
  else refusedOutside s k false n

/-- Write for another device. -/
def serveWrite (s : State) (k : Packet) (bs : List Nat) (job : Option Nat) : Got :=
  if k.lease != 0 then
    if lentFor s k bs.length then { s := physWrite s k.addr bs } else refusedOutside s k true 0
  else if k.vc < 256 then wholePut s { part := some k.vc, job := job } k.vc k.addr bs
  else refusedOutside s k true 0

/-- Does an access cross a 4 KiB boundary, or exceed a packet (R411)? -/
def crosses (a n : Nat) : Bool := 4096 < n || a % 4096 + n > 4096

/-- A read for another device that meets the neighbour window waits for what it asks there; `answered` is what follows any other. -/
def orAsk (k : Packet) (n : Nat) (g : Got) (answered : Got → State) : State :=
  if g.s.fab.asks.isEmpty then answered g
  else startJob g.s (.packet k) (some k.vc) k.addr n g.s.fab.asks

def noAsks (s : State) : State := { s with fab := { s.fab with asks := [] } }

def serveReadPacket (s : State) (k : Packet) : State :=
  if crosses k.addr k.len then (sendAnswer s (answer s k 1 2 0x0903 [])).1
  else
    orAsk k k.len (serveRead (noAsks s) k k.len) fun g =>
      let c := g.cond.getD { status := 0 }
      (sendAnswer g.s (answer g.s k 1 c.status c.detail g.bytes)).1

def serveWritePacket (s : State) (k : Packet) : State :=
  match servedBefore s k with
  | some a => (sendPacket s a).1
  | none =>
    if s.fab.jobs.any (fun j => j.who == .packet k) then s
    else if crosses k.addr k.payload.length then keepAnswer s k (answer s k 3 2 0x0903 [])
    else
      let id := s.fab.nextJob
      let g := serveWrite s k k.payload (some id)
      if jobAwaits g.s id then
        { g.s with fab := { g.s.fab with
            nextJob := id + 1
            jobs := g.s.fab.jobs ++ [{ id := id, who := .packet k, part := some k.vc, va := k.addr, n := 0, cond := g.cond }] } }
      else
        let c := g.cond.getD { status := 0 }
        keepAnswer g.s k (answer g.s k 3 c.status c.detail [])

def serveAtomicPacket (s : State) (k : Packet) : State :=
  match servedBefore s k with
  | some a => (sendPacket s a).1
  | none =>
    if s.fab.jobs.any (fun j => j.who == .packet k) then s
    else if 4 ≤ k.aop || k.payload.length != atomicOperand k.aop then keepAnswer s k (answer s k 5 2 0x0903 [])
    else
      let n := atomicSize k.aop
      orAsk k n (serveRead (noAsks s) k n) fun g =>
        match g.cond with
        | some c => keepAnswer g.s k (answer g.s k 5 c.status c.detail g.bytes)
        | none =>
          let h := serveWrite g.s k (leBytes n (atomicNew k.aop (leVal g.bytes) k.payload)) none
          let c := h.cond.getD { status := 0 }
          keepAnswer h.s k (answer h.s k 5 c.status c.detail g.bytes)

/-- A message reaches its unit and is acknowledged. What the Halyard and Mitre do with it are commands of their own. -/
def serveMessage (s : State) (k : Packet) : State := (sendAnswer s (answer s k 7 0 0 [])).1

/-- Serve one request. A reserved OP is refused (R411). -/
def serve (s : State) (k : Packet) : State :=
  match k.op with
  | 0 => serveReadPacket s k
  | 2 => serveWritePacket s k
  | 4 => serveAtomicPacket s k
  | 6 => serveMessage s k
  | _ => (sendAnswer s (answer s k 1 2 0x0903 [])).1

/-! Flow order (R413). -/

def sameFlow (a b : Packet) : Bool := a.src == b.src && a.vc == b.vc && a.flow == b.flow

/-- The FSEQ due next in a packet's flow: the first packet of a flow starts it at 0. -/
def dueFseq (s : State) (k : Packet) : Nat :=
  ((s.fab.flows.find? fun e => e.1 == k.src && e.2.1 == k.vc && e.2.2.1 == k.flow).map (·.2.2.2)).getD 0

def setDue (s : State) (k : Packet) (n : Nat) : State :=
  { s with fab := { s.fab with
      flows := upsert (fun e => e.1 == k.src && e.2.1 == k.vc && e.2.2.1 == k.flow) (k.src, k.vc, k.flow, n)
        s.fab.flows } }

/-- Serve the packets of a flow that wait, while the one that is due is among them. -/
def serveWaiting : Nat → Packet → State → State
  | 0, _, s => s
  | fuel + 1, k, s =>
    match s.fab.reseq.find? fun x => sameFlow x k && x.fseq == dueFseq s k with
    | none => s
    | some x =>
      let s := { s with fab := { s.fab with reseq := s.fab.reseq.filter fun y => !(sameFlow y x && y.fseq == x.fseq) } }
      serveWaiting fuel k (setDue (serve s x) x ((x.fseq + 1) % 65536))

/-- Deliver a request: at once with ORDER clear; in FSEQ order with ORDER set, a repeated packet being answered again, and one that
lies 256 or more ahead finding no buffer (R412, R413). -/
def deliverPacket (s : State) (k : Packet) : State :=
  if !k.order then serve s k
  else
    let d := (k.fseq + 65536 - dueFseq s k) % 65536
    if d == 0 then serveWaiting 256 k (setDue (serve s k) k ((k.fseq + 1) % 65536))
    else if d < 256 then
      { s with fab := { s.fab with reseq := s.fab.reseq.filter (fun y => !(sameFlow y k && y.fseq == k.fseq)) ++ [k] } }
    else if 65280 ≤ d then serve s k
    else (sendAnswer s (answer s k 8 0 0 [])).1

/-- A source-routed message (R417). -/
def sourceRoute (p : Nat) (k : Packet) (s : State) : State :=
  let left := bits k.addr 39 32
  if left == 0 then
    if k.crc != packetCrc k then nakBad s p k else serveMessage s k
  else if k.hopsLeft ≤ 1 then discardPacket s (p / 3) k
  else
    let q := bits k.addr 3 0
    let addr := bits k.addr 31 0 / 16 + (left - 1) <<< 32 + bits k.addr 47 40 <<< 40
    if q < 12 then transmit s q (nextHop k addr) else discardPacket s (p / 3) k

/-! Answers. -/

/-- The DETAIL that a refused answer carries (log entry 21). -/
def answerDetail (k : Packet) : Nat := leAt k.payload 0 2

/-- An answer to a request of this device: `ops` are the request operations that it answers. -/
def takeAnswer (p : Nat) (k : Packet) (op : Nat) (ops : List Nat) (act : Request → State → State) (s : State) : State :=
  takePacket p k (k.op == op) (fun s =>
    match findRequest s k.tag with
    | some r => if ops.contains r.pkt.op && (r.pkt.dst == k.src || op == 9) then act r s else s
    | none => s) s

/-- Put the data of a read into the MI, or the job, that asked: 256 for each byte of POISON. -/
def noteData (s : State) (r : Request) (bs : List Nat) : State :=
  match r.mi.bind (findFlight s), r.job with
  | some f, _ => putFlight s { f with remote := f.remote ++ [(r.va, bs)] }
  | none, some id => { s with fab := { s.fab with jobs := s.fab.jobs.map fun j =>
      if j.id == id then { j with parts := j.parts ++ [(r.va, bs)] } else j } }
  | none, none => s

def readAnswered (k : Packet) (r : Request) (s : State) : State :=
  if k.status == 0 then endRequest (noteData s r k.payload) r
  else if k.status == 6 then endRequest (noteData s r (List.replicate r.pkt.len 256)) r
  else failRequest s r k.status (answerDetail k) r.va

def writeAnswered (k : Packet) (r : Request) (s : State) : State :=
  if k.status == 0 then endRequest s r else failRequest s r k.status (answerDetail k) r.va

/-! The meanings. -/

def execFabricLaneLoss (port lane : Nat) (s : State) : Result := if lane < 8 then .next (laneLost port s) else .next s
/-- A READ, or a packet with a reserved OP, which is refused. -/
def execFabricRead (port : Nat) (p : Packet) (s : State) : Result :=
  .next (takePacket port p (p.op == 0 || 10 ≤ p.op) (fun s => deliverPacket s (arrivedHop p)) s)
def execReadResp (port : Nat) (p : Packet) (s : State) : Result := .next (takeAnswer port p 1 [0] (readAnswered p) s)
def execFabricWrite (port : Nat) (p : Packet) (s : State) : Result := .next (takePacket port p (p.op == 2) (fun s => deliverPacket s (arrivedHop p)) s)
def execWriteAck (port : Nat) (p : Packet) (s : State) : Result := .next (takeAnswer port p 3 [2] (writeAnswered p) s)
def execAtomic (port : Nat) (p : Packet) (s : State) : Result := .next (takePacket port p (p.op == 4) (fun s => deliverPacket s (arrivedHop p)) s)
def execAtomicResp (port : Nat) (p : Packet) (s : State) : Result := .next (takeAnswer port p 5 [4] (writeAnswered p) s)
def execMessage (port : Nat) (p : Packet) (s : State) : Result :=
  if p.dst == 0xFFFF && p.vc == 256 && p.op == 6 && 2 ≤ (portAt s port).state then .next (sourceRoute port p (bufferFreed s port p))
  else .next (takePacket port p (p.op == 6) (fun s => deliverPacket s (arrivedHop p)) s)
def execMessageAck (port : Nat) (p : Packet) (s : State) : Result := .next (takeAnswer port p 7 [6] (writeAnswered p) s)
def execPacketNak (port : Nat) (p : Packet) (s : State) : Result :=
  .next (takeAnswer port p 8 [0, 2, 4, 6] (fun r s => resend s r) s)
def execUnreachable (port : Nat) (p : Packet) (s : State) : Result :=
  .next (takeAnswer port p 9 [0, 2, 4, 6] (fun r s => failRequest s r 2 0x0901 r.va) s)
def execPacketForward (port : Nat) (p : Packet) (s : State) : Result := .next (forwardPacket port p s)
def execPacketResendTimeout (tag : Nat) (s : State) : Result := .next (resendTimeout tag s)

/-- The copy into the shadow table ends: the writes that waited for it are staged (R421). -/
def execRouteShadowCopyDone (s : State) : Result :=
  if !s.fab.copying then .next s
  else
    let held := s.fab.heldRoutes
    .next { s with
      fab := { s.fab with copying := false, heldRoutes := [] }
      hal := { s.hal with mgmt := { s.hal.mgmt with
        staged := held.foldl (fun l e => upsert (fun x => x.1 == e.1) e l) s.hal.mgmt.staged } } }

end Sys2Proof.Machine
end

