-- ==== Sys2Proof/Machine/Leases.lean ====
section
/-!
DEFINITION. Leases of neighbour memory, borrowed and lent (11_drawers_tiers.md R320 to R328), and scrubs (18_partitions.md R491,
R617).
-/
namespace Sys2Proof.Machine

/-! Scrubs. -/

/-- Start a scrub. -/
def startScrub (s : State) (kind : ScrubKind) (first count : Nat) : State :=
  { s with mmu := { s.mmu with
      scrubs := s.mmu.scrubs ++ [{ id := s.mmu.nextScrub, kind := kind, first := first, count := count }]
      nextScrub := s.mmu.nextScrub + 1 } }

/-- Zeros and fresh check bits over a range, the granules of retired channels among them (R617; 20_faults.md R549). -/
def scrubMemory (s : State) (a n : Nat) : State :=
  let s := scrubRange s a n
  if regionOf a == .hbm && !s.dram.retired.isEmpty then
    let us := (List.range (n / 64)).map fun i => a + 64 * i
    { s with dram := { s.dram with healed := (us.filter (isPoison s)).foldl insertNat s.dram.healed } }
  else s

/-- The address of a frame (R488). -/
def frameAddr (f : Nat) : Nat := if f < lpFrame0 then f * 0x200000 else 0x010000000000 + (f - lpFrame0) * 0x200000

/-- Scrub frames `f` to `f + n − 1`. -/
def scrubFrames (s : State) (f n : Nat) : State :=
  let low := min n (lpFrame0 - min f lpFrame0)
  let s := if low == 0 then s else scrubMemory s (frameAddr f) (low * 0x200000)
  if low == n then s else scrubMemory s (frameAddr (f + low)) ((n - low) * 0x200000)

/-- Scrub the drawer of a logical bench. -/
def scrubBench (s : State) (p l : Nat) : State :=
  match physOf s p l with
  | some b => scrubMemory s (drawerBase p b) 0x400000
  | none => s

/-- What a scrub covers becomes zero. -/
def scrubNow (s : State) (kind : ScrubKind) (first count : Nat) : State :=
  match kind with
  | .pair => scrubBench (scrubBench s (first / 16) (first % 16 * 2)) (first / 16) (first % 16 * 2 + 1)
  | .slice => scrubMemory s (sideboardBase (first / 16) + first % 16 * 0x4000000) 0x4000000
  | .frames => scrubFrames s first count
  | .lent => scrubMemory s (dnum s .lentBase first 0) (dnum s .lentSize first 0)

/-- A resource that a commit removes: its content is gone at the tick, and the scrub ends later (R491, R617; log entry 45). -/
def beginScrub (s : State) (kind : ScrubKind) (first count : Nat) : State :=
  startScrub (scrubNow s kind first count) kind first count

/-- A scrub completes: its resource can be granted or lent again. -/
def scrubDone (id : Nat) (s : State) : State :=
  match s.mmu.scrubs.find? (·.id == id) with
  | some x =>
    let s := { s with mmu := { s.mmu with scrubs := s.mmu.scrubs.filter (·.id != id) } }
    if x.kind == .lent then dsetNum s .lentState x.first 0 1 5 else s
  | none => s

/-! Leases. -/

def findLease (s : State) (side : LeaseSide) (slot : Nat) : Option Lease :=
  s.fab.leases.find? fun l => l.side == side && l.slot == slot

def putLease (s : State) (l : Lease) : State :=
  { s with fab := { s.fab with
      leases := upsert (fun x => x.side == l.side && x.slot == l.slot) l s.fab.leases } }

def dropLease (s : State) (side : LeaseSide) (slot : Nat) : State :=
  { s with fab := { s.fab with leases := s.fab.leases.filter fun l => !(l.side == side && l.slot == slot) } }

def borrowState (s : State) (slot : Nat) : Nat := dnum s .leaseState slot 0
def lentState (s : State) (slot : Nat) : Nat := dnum s .lentState slot 0
/-- Is a lease state ACTIVE or NOTICE? -/
def leaseOn (st : Nat) : Bool := st == 3 || st == 4

/-- The event of type 0x04 that a borrower posts (R324). -/
def leaseEvent (s : State) (slot detail high : Nat) : State :=
  let part := dnum s .leasePartition slot 0
  postEvent s { ring := 0, type := 4, part := part, detail := detail
                aux := dnum s .leaseId slot 0 + high * 2 ^ 32 }

/-- The message names: 1 REQUEST, 2 GRANT, 3 REFUSE, 4 KEEPALIVE, 5 NOTICE, 6 RELEASE (R322). -/
def leaseSend (s : State) (peer type : Nat) (fields : List Nat) : State := emit s (.lease peer type fields)

/-- REQUEST leaves: size, tier, minimum notice period and serial number (R322). The tier and the notice period asked for are in no
object: they are open values (log entry 11). -/
def leaseAsk (s : State) (slot : Nat) : State :=
  let (t, s) := fresh s 322
  let (n, s) := fresh s 323
  leaseSend (dsetNum s .leaseState slot 0 1 2) (dnum s .leaseLender slot 0) 1
    [dnum s .leaseSize slot 0, 2 + t % 2, n % 2 ^ 64, Config.serial]

/-- The borrower's side of GRANT. -/
def grantArrives (slot peer id base notice : Nat) (s : State) : State :=
  if borrowState s slot != 2 || dnum s .leaseLender slot 0 != peer then s
  else
    let s := dsetNum (dsetNum (dsetNum s .leaseState slot 0 1 3) .leaseId slot 0 4 id) .leaseDeadline slot 0 8 0
    leaseEvent (putLease s { side := .borrower, slot := slot, peer := peer, remoteBase := base, notice := notice, alive := s.time })
      slot 0 0

/-- Do two ranges meet? -/
def rangesMeet (a n b m : Nat) : Bool := a < b + m && b < a + n

/-- Can this device lend a range (R320, R321, R328)? -/
def lendable (s : State) (slot id base size tier : Nat) : Bool :=
  gnum s .lendEnable == 1 && slot < 64 && (lentState s slot == 0 || lentState s slot == 5) && !(s.fab.leaseIds.contains id) &&
  size != 0 && size % 0x200000 == 0 && base % 0x200000 == 0 && gnum s .lendBase ≤ base &&
  base + size ≤ gnum s .lendBase + gnum s .lendSize &&
  (match accessRegion base size with | .hbm => tier == 2 | .lpddr => tier == 3 | _ => false) &&
  !((List.range 64).any fun k => (leaseOn (lentState s k) || lentState s k == 8) &&
      rangesMeet base size (dnum s .lentBase k 0) (dnum s .lentSize k 0))

/-- The lender's side of GRANT: `notice` is the minimum that REQUEST asks for (R323). -/
def grantLeaves (slot peer id base size tier notice : Nat) (s : State) : State :=
  if !(lendable s slot id base size tier) then s
  else
    let n := max notice (gnum s .lendMinNotice)
    let s := dsetNum (dsetNum (dsetNum s .lentState slot 0 1 3) .lentBorrower slot 0 2 peer) .lentBase slot 0 8 base
    let s := dsetNum (dsetNum (dsetNum s .lentSize slot 0 8 size) .lentNotice slot 0 8 n) .lentId slot 0 4 id
    let s := putLease s { side := .lender, slot := slot, peer := peer, remoteBase := base, notice := n, alive := s.time }
    leaseSend { s with fab := { s.fab with leaseIds := s.fab.leaseIds ++ [id] } } peer 2 [id, base, n]

/-- REFUSE: 0 no space, 1 lending disabled, 2 notice too short. -/
def leaseRefused (side : LeaseSide) (slot peer reason : Nat) (s : State) : State :=
  match side with
  | .lender => leaseSend s peer 3 [reason]
  | .borrower =>
    if borrowState s slot == 2 && dnum s .leaseLender slot 0 == peer then
      leaseEvent (dsetNum (dsetNum s .leaseState slot 0 1 6) .leaseId slot 0 4 0) slot 3 0
    else s

/-- The lease ID of a side's slot. -/
def leaseIdOf (s : State) (side : LeaseSide) (slot : Nat) : Nat :=
  match side with | .borrower => dnum s .leaseId slot 0 | .lender => dnum s .lentId slot 0

def sideOn (s : State) (side : LeaseSide) (slot : Nat) : Bool :=
  leaseOn (match side with | .borrower => borrowState s slot | .lender => lentState s slot)

/-- A KEEPALIVE is received or sent (R322). -/
def leaseAlive (side : LeaseSide) (slot : Nat) (received : Bool) (s : State) : State :=
  match findLease s side slot with
  | some l =>
    if !(sideOn s side slot) then s
    else if received then putLease s { l with alive := s.time }
    else leaseSend s l.peer 4 [leaseIdOf s side slot]
  | none => s

/-- NOTICE reaches the borrower. -/
def noticeArrives (slot id deadline : Nat) (s : State) : State :=
  if borrowState s slot != 3 || dnum s .leaseId slot 0 != id then s
  else
    let s := dsetNum (dsetNum s .leaseState slot 0 1 4) .leaseDeadline slot 0 8 deadline
    leaseEvent s slot 1 (min 0xFFFFFFFF ((deadline - s.time) / 1000))

/-- The lender's lease is over: its range is scrubbed (R328). -/
def lentOver (s : State) (slot : Nat) : State :=
  beginScrub (dropLease (dsetNum s .lentState slot 0 1 8) .lender slot) .lent slot 1

/-- The borrower's lease is over, in state `st`. -/
def borrowOver (s : State) (slot st : Nat) : State :=
  dropLease (dsetNum (dsetNum s .leaseState slot 0 1 st) .leaseDeadline slot 0 8 0) .borrower slot

/-- RELEASE: sent by the borrower, received by the lender. -/
def leaseReleased (side : LeaseSide) (slot : Nat) (s : State) : State :=
  if !(sideOn s side slot) then s
  else
    match side with
    | .lender => lentOver s slot
    | .borrower => borrowOver (leaseSend s (dnum s .leaseLender slot 0) 6 [dnum s .leaseId slot 0]) slot 5

/-- The OWNER revokes a lent lease: NOTICE with its deadline (R323). -/
def leaseRevoked (s : State) (slot : Nat) : State :=
  match findLease s .lender slot with
  | some l =>
    if lentState s slot != 3 then s
    else
      let d := s.time + l.notice
      leaseSend (putLease (dsetNum s .lentState slot 0 1 4) { l with deadline := d }) l.peer 5 [dnum s .lentId slot 0, d]
  | none => s

/-- A deadline passes: global time has then reached it (log entry 40). -/
def leaseExpires (side : LeaseSide) (slot : Nat) (s : State) : State :=
  match side with
  | .lender =>
    (match findLease s .lender slot with
     | some l => if lentState s slot == 4 then lentOver { s with time := max s.time l.deadline } slot else s
     | none => s)
  | .borrower =>
    if borrowState s slot != 4 then s
    else
      let s := { s with time := max s.time (dnum s .leaseDeadline slot 0) }
      leaseEvent (borrowOver s slot 5) slot 2 0

/-- No KEEPALIVE: the borrower fails the lease after lend.liveness, the lender ends it after twice that (R325). -/
def livenessExpires (side : LeaseSide) (slot : Nat) (s : State) : State :=
  match findLease s side slot with
  | none => s
  | some l =>
    if !(sideOn s side slot) then s
    else
      match side with
      | .lender => lentOver { s with time := max s.time (l.alive + 2 * gnum s .lendLiveness) } slot
      | .borrower =>
        let s := { s with time := max s.time (l.alive + gnum s .lendLiveness) }
        leaseEvent (borrowOver s slot 6) slot 3 0

/-! The meanings. -/

def execLeaseGrant (side : LeaseSide) (slot peer id base size tier notice serial : Nat) (s : State) : Result :=
  match side with
  | .borrower => .next (grantArrives slot peer id base notice s)
  | .lender => if serial < 2 ^ 64 then .next (grantLeaves slot peer id base size tier notice s) else .next s
def execLeaseRefuse (side : LeaseSide) (slot peer reason : Nat) (s : State) : Result := .next (leaseRefused side slot peer reason s)
def execLeaseKeepalive (side : LeaseSide) (slot : Nat) (received : Bool) (s : State) : Result :=
  .next (whileAwake (leaseAlive side slot received) s)
def execLeaseNotice (slot id deadline : Nat) (s : State) : Result := .next (noticeArrives slot id deadline s)
def execLeaseRelease (side : LeaseSide) (slot : Nat) (s : State) : Result := .next (leaseReleased side slot s)
def execLeaseDeadline (side : LeaseSide) (slot : Nat) (s : State) : Result := .next (leaseExpires side slot s)
def execLeaseLivenessExpiry (side : LeaseSide) (slot : Nat) (s : State) : Result := .next (whileAwake (livenessExpires side slot) s)
def execScrubDone (id : Nat) (s : State) : Result := .next (whileAwake (scrubDone id) s)

end Sys2Proof.Machine
end

