-- ==== Sys2Proof/Machine/Recovery.lean ====
section
/-!
DEFINITION. Recovery in service (chapter 20): spare benches (R540 to R545), HBM4 channel retirement (R546 to R550), partition
faults (R552), die-link lanes (01_cabinet.md R39), and retention (11_drawers_tiers.md R306 to R308).
-/
namespace Sys2Proof.Machine

/-! Copying a range whole. -/

/-- Copy `n` bytes with their uncorrectable code units, cell by cell. -/
def moveRange (s : State) (src dst n : Nat) : State :=
  if !(poisonFree { s with poison := [] } src n && poisonFree { s with poison := [] } dst n) then
    copyCells s src dst n ((unitsOf src n).filter (isPoison s))
  else
    let here (a : Nat) : Bool := decide (src ≤ a ∧ a < src + n)
    let cells := (s.mem.filter fun c => here c.1).map fun c => (c.1 - src + dst, c.2)
    let bad := (s.poison.filter here).map fun u => u - src + dst
    let s := noteWrite s dst n
    let s := { s with
      mem := s.mem.filter (fun c => decide (c.1 < dst)) ++ (cells ++ s.mem.filter (fun c => decide (dst + n ≤ c.1)))
      poison := s.poison.filter fun u => decide (u < dst ∨ dst + n ≤ u) }
    bad.foldl (fun s u => markPoison s u 1) s

/-! Partition faults (R552). -/

/-- The partition's queues stop, its MIs in `lost` end with ABORTED, and its state reads STOPPED. -/
def partitionFault (s : State) (part : Nat) (lost : Flight → Bool) : State :=
  let s := (List.range 16).foldl (fun s p => (List.range 64).foldl (fun s q =>
    if qEnabled s p q && qPart s p q == part then setStopped s p q true else s) s) s
  let s := (s.jig.flights.filter fun f => f.part == part && f.phase != .executed && lost f).foldl
    (fun s f => completeFlight s f { status := 0x0B } true) s
  dsetNum s .partitionState 0 part 1 1

/-- Is an MI dealt to benches of a panel and not yet carried out? -/
def dealtOn (f : Flight) (p : Nat) : Bool :=
  f.phase != .executed && opDealt f && (panelsOf f).contains p

/-- Does an MI need a logical bench: it takes part in its deal, or is the bench that moves a MOVE's tiles (11_drawers_tiers.md R319)? -/
def needsBench (f : Flight) (p l : Nat) : Bool :=
  (dealtOn f p && (dealtBenches f p).contains l) ||
  (f.phase != .executed && miOpcode f.word == 0x12 && moveOnBench f && moveBench f == { panel := p, bench := l })

/-! Benches (R540 to R545). -/

/-- The first spare idle bench of a panel. -/
def spareOf (s : State) (p : Nat) : Option Nat := (List.range 34).find? fun b => benchState s p b == 1

/-- The logical bench that a physical bench serves or is about to serve. -/
def servedBy (s : State) (p b : Nat) : Option Nat :=
  match s.takingOver.find? (fun e => e.1 == p && e.2.1 == b) with
  | some e => some e.2.2
  | none => logicalOf s p b

/-- Drop a bench from retention. -/
def dropHeld (s : State) (p b : Nat) : State :=
  { rsetField s (panelReg .pwrRet p 0) b b 0 with
      retention := s.retention.filter fun e => !(e.1 == p && e.2.1 == .bench b) }

/-- A bench in service fails (R540): a spare wakes and starts to take over (R541), or its partition faults. -/
def failBench (s : State) (p b detail : Nat) : State :=
  match servedBy s p b with
  | none => s
  | some l =>
    let a := panelReg .fltPanel p 0
    let s := rset s a (setBits (setBits (rget s a) 13 8 b) 63 63 1)
    let rest := s.takingOver.filter fun e => !(e.1 == p && e.2.1 == b)
    match spareOf s p with
    | some x =>
      let s' := wakeUnit { s with takingOver := rest ++ [(p, x, l)] } p (.bench x)
      let s' := if logicalOf s p b == some l then s' else { s' with retiredBench := s'.retiredBench ++ [(p, b)] }
      capNote s (postFault s' { cls := 1, sev := 2, detail := detail, unit := p, sub := b })
    | none =>
      let owner := benchOwner s p l
      let first := match physOf s p l with | some o => if o == b then [] else [(p, o)] | none => []
      let s' := dropHeld { s with
        takingOver := rest, retiredBench := s.retiredBench ++ (p, b) :: first
        spareMap := upsert (fun e => e.1 == p && e.2.1 == l) (p, l, none) s.spareMap } p b
      let s' := match owner with | some q => partitionFault s' q (needsBench · p l) | none => s'
      capNote s (postFault s' { cls := 1, sev := 3, detail := detail, unit := p, sub := b, part := owner })

/-- A bench is declared failed by a trigger of R540; 0x0005 is the OWNER's write. -/
def benchFails (p b detail : Nat) (s : State) : State :=
  let st := benchState s p b
  if p < 16 && b < 34 && 1 ≤ detail && detail ≤ 4 && st != 1 && st != 3 then failBench s p b detail else s

/-- Copy the registers of a bench block (R541). -/
def copyBenchRegs (s : State) (p b x : Nat) : State :=
  let src := locBase (.bench p b)
  let dst := locBase (.bench p x)
  let old := s.regs.filter fun e => decide (src ≤ e.1 ∧ e.1 < src + 0x10000)
  old.foldl (fun t e => regStore t (e.1 - src + dst) (regStored s e.1))
    { s with regs := s.regs.filter fun e => decide (e.1 < dst ∨ dst + 0x10000 ≤ e.1) }

/-- The takeover of a spare ends (R541, R542): drawer and registers copied, the spare map bound, the failed bench retired. -/
def takeOver (p x : Nat) (s : State) : State :=
  match s.takingOver.find? (fun e => e.1 == p && e.2.1 == x) with
  | none => s
  | some (_, _, l) =>
    let s := match physOf s p l with
      | some b =>
        let s := copyBenchRegs (moveRange s (drawerBase p b) (drawerBase p x) 0x400000) p b x
        dropHeld { s with retiredBench := s.retiredBench ++ [(p, b)] } p b
      | none => s
    let n := ((s.takeovers.find? (·.1 == p)).map (·.2)).getD 0
    let s := dropHeld s p x
    { s with
      takingOver := s.takingOver.filter fun e => !(e.1 == p && e.2.1 == x)
      spareMap := upsert (fun e => e.1 == p && e.2.1 == l) (p, l, some x) s.spareMap
      takeovers := upsert (·.1 == p) (p, satAdd 16 n 1) s.takeovers }

/-- A value of compute.retire_bench that is refused with DENIED. -/
def retireRefused (s : State) (v : Nat) : Bool :=
  16 ≤ v / 256 || 34 ≤ v % 256 || benchState s (v / 256) (v % 256) == 3

/-- A write of compute.retire_bench that is not refused. -/
def retireBench (s : State) (v : Nat) : State :=
  let p := v / 256
  let b := v % 256
  if benchState s p b == 1 then
    capNote s (dropHeld { s with retiredBench := s.retiredBench ++ [(p, b)] } p b)
  else failBench s p b 5

/-! HBM4 channels (R546 to R550). -/

/-- A channel is retired into the pool, or fenced when it is the ninth or the pool is too small. -/
def retireChannel (s : State) (st c : Nat) (hard : Bool) : State :=
  if 8 ≤ st || 32 ≤ c || hbmOut s st c then s
  else
    let n := s.dram.retired.length
    if 8 ≤ n || gnum s .memHbmSpareFrames < 800 * (n + 1) then
      capNote s (postFault { s with dram := { s.dram with fenced := s.dram.fenced ++ [(st, c)] } } { cls := 2, sev := 4 })
    else
      capNote s (postFault { s with dram := { s.dram with retired := s.dram.retired ++ [(st, c, hard, hard)] } } { cls := 2 })

/-- Corrected granules of a channel within the last hour. -/
def corrections (s : State) (st c : Nat) : Nat :=
  (s.dram.corrs.filter fun e => (match e.1 with | .hbm a b _ => a == st && b == c | _ => false) &&
    decide (s.time < e.2 + 3600000000000)).length

/-- A trigger of R547: a hard one, or more than 4,096 corrected granules within 1 h. -/
def channelTrigger (st c : Nat) (hard : Bool) (s : State) : State :=
  if hard || 4096 < corrections s st c then retireChannel s st c hard else s

/-- The copy of a soft retirement ends, and the channel switches (R549). -/
def copyDone (st c : Nat) (s : State) : State :=
  { s with dram := { s.dram with retired := s.dram.retired.map fun r =>
      if r.1 == st && r.2.1 == c then (r.1, r.2.1, r.2.2.1, true) else r } }

/-! Die links. -/

/-- The parity of an Inlay encoder's input fails (14_integrity.md R398): a record, and the MI completes with POISON. -/
def encoderParity (p mi : Nat) (s : State) : State :=
  match findFlight s mi with
  | none => s
  | some f =>
    condFor (postFault s { cls := 7, detail := 6, unit := p, part := some f.part, info := accessInfo 0xFF true 0 }) (some mi) { status := 6 }

/-- A word of a drawer or sideboard holds more errors than its code corrects (14_integrity.md R398): it reads as POISON from now on. -/
def wordError (a : Nat) (s : State) : State :=
  match regionOf a with
  | .drawer _ _ | .sideboard _ => markPoison s a 1
  | _ => s

/-- A place of the integrity chain reports (14_integrity.md R398). A die link counts CRC errors and retried beats: a beat that a retry
delivers carries no error; a spare lane that replaces one, and a retry that fails, raise a record (R537, R539; 01_cabinet.md R39). -/
def spineLane (p port crcErrs retries : Nat) (outcome : LaneOutcome) (s : State) : State :=
  if 16 ≤ p || 4 ≤ port then s
  else match outcome with
  | .encoderParity mi => encoderParity p mi s
  | .wordError a => wordError a s
  | .delivered | .repaired | .failed =>
    let a := panelReg .fltSpinePort p port
    let s := rbump (rbump s a 47 32 crcErrs) a 31 16 retries
    match outcome with
    | .delivered => s
    | .repaired => postFault (rsetField s a 63 63 1) { cls := 5 }
    | .failed => postFault s { cls := 5 }
    | _ => s

/-! Retention (11_drawers_tiers.md R306 to R308). -/

/-- Has an MI work on a logical bench of a panel that it has not carried out: a tile dealt to it under SHARED, or any share of the
deal otherwise? -/
def dealtBench (f : Flight) (p l : Nat) : Bool :=
  dealtOn f p && (dealtBenches f p).contains l && (!(miShared f.word) || f.deals.any fun d => d.2.1 == p && d.2.2 == l)

/-- Is a unit idle: a slice always, between steps; a spare; a bench in service with no open tile and no issued MI dealt to it? -/
def unitIdle (s : State) (p : Nat) : RetUnit → Bool
  | .bench b => benchState s p b == 1 || (benchState s p b == 0 &&
      !(s.jig.flights.any fun f => match logicalOf s p b with | some l => dealtBench f p l | none => false))
  | .slice _ => true

/-- A requested idle unit begins to enter retention; one that has begun, and is idle still, is then held. -/
def enterHeld (p : Nat) (u : RetUnit) (s : State) : State :=
  let valid := match u with | .bench b => decide (b < 34) | .slice k => decide (k < 16)
  if valid && p < 16 && rbit s (panelReg .pwrRet p 0) (retBit u) && unitIdle s p u then
    match s.retention.find? (fun e => e.1 == p && e.2.1 == u) with
    | none => { s with retention := s.retention ++ [(p, u, .entering)] }
    | some e =>
      if e.2.2 == .entering then
        { s with retention := s.retention.map fun x => if x.1 == p && x.2.1 == u then (p, u, .held) else x }
      else s
  else s

/-- A waking unit accepts requests again; a bench whose self-test fails is declared failed (R540). -/
def wakeDone (p : Nat) (u : RetUnit) (ok : Bool) (s : State) : State :=
  if !(s.retention.contains (p, u, .waking)) then s
  else
    let s := { s with retention := s.retention.filter fun e => !(e.1 == p && e.2.1 == u) }
    match u, ok with
    | .bench b, false => failBench s p b 4
    | _, _ => s

/-- Software clears PWR_RET bits: the held units among them start to wake, and entry ends for those that had begun it (R307). -/
def wakeCleared (s : State) (p : Nat) : State :=
  let wanted (e : Nat × RetUnit × RetPhase) : Bool := e.1 != p || rbit s (panelReg .pwrRet p 0) (retBit e.2.1)
  { s with retention := (s.retention.filter fun e => wanted e || e.2.2 != .entering).map fun e =>
      if wanted e then e else (e.1, e.2.1, .waking) }

/-! The meanings. -/

def execBenchFailure (panel phys detail : Nat) (s : State) : Result := .next (benchFails panel phys detail s)
def execSpareTakeover (panel phys : Nat) (s : State) : Result := .next (takeOver panel phys s)
def execHbmChannelRetirement (stack ch : Nat) (hard : Bool) (s : State) : Result := .next (channelTrigger stack ch hard s)
def execHbmRetireCopyDone (stack ch : Nat) (s : State) : Result := .next (copyDone stack ch s)
def execSpineLaneRepair (panel port : Nat) (r : LaneReport) (s : State) : Result :=
  .next (spineLane panel port r.crcErrs r.retries r.outcome s)
def execRetentionEntry (panel : Nat) (u : RetUnit) (s : State) : Result := .next (enterHeld panel u s)
def execRetentionWake (panel : Nat) (u : RetUnit) (s : State) : Result := .next (wakeUnit s panel u)
def execRetentionWakeDone (panel : Nat) (u : RetUnit) (selfTestOk : Bool) (s : State) : Result :=
  .next (wakeDone panel u selfTestOk s)

end Sys2Proof.Machine
end

