-- ==== Sys2Proof/Machine/ClockUnit.lean ====
section
/-!
DEFINITION. Reference clocks, panel clocks and the automatic idle state (21_clocks_power.md R561 to R564, R576; 22_module.md R594,
R607).
-/
namespace Sys2Proof.Machine

/-! Reference inputs (R562 to R564). -/

def refGood (s : State) : RefIn → Bool | .a => s.clk.aGood | .b => s.clk.bGood
def refSource : RefIn → Nat | .a => 0 | .b => 1
def otherRef : RefIn → RefIn | .a => .b | .b => .a

/-- The preferred input (clk.ref_pref). -/
def prefRef (s : State) : RefIn := if gnum s .clkRefPref == 1 then .b else .a

def setGood (s : State) (r : RefIn) (g : Bool) : State :=
  match r with
  | .a => { s with clk := { s.clk with aGood := g } }
  | .b => { s with clk := { s.clk with bGood := g } }

def setOffset (s : State) (r : RefIn) (d : Int) : State :=
  match r with
  | .a => { s with clk := { s.clk with aOffset := d } }
  | .b => { s with clk := { s.clk with bOffset := d } }

/-- Switch the selected reference: counted, with a CLOCK record, ABSORBED into holdover (R564); the next 16 TIME frames carry its
part of the time error (R570). -/
def switchRef (s : State) (src : Nat) : State :=
  let s := { s with clk := { s.clk with source := src }, pen := { s.pen with settle := 16 } }
  let s := rbump s (halReg .clkRefstat) 31 24 1
  postFault s { cls := 0x0F, sev := if src == 2 then 2 else 0 }

/-- The input that serves when `r` is lost: the other one when it is good, else the holdover oscillator. -/
def fallbackRef (s : State) (r : RefIn) : Nat := if refGood s (otherRef r) then refSource (otherRef r) else 2

/-- The monitor declares an input lost (R563); an offset within ±300 ppm is tracked and is no loss. -/
def refLost (r : RefIn) (cause : LossCause) (s : State) : State :=
  let lose (s : State) : State :=
    if !(refGood s r) then s
    else
      let s := setGood s r false
      if s.clk.source == refSource r then switchRef s (fallbackRef s r) else s
  match cause with
  | .frequency d => if 30000 < d.natAbs then lose (setOffset s r d) else setOffset s r d
  | _ => lose s

/-- An input has met no loss condition for 1 ms (R562): it ends holdover. -/
def refBack (r : RefIn) (s : State) : State :=
  if refGood s r then s
  else
    let s := setGood s r true
    if s.clk.source == 2 then switchRef s (refSource r) else s

/-- The preferred input has been good for 1 s with clk.revert set (R562). -/
def refReverts (s : State) : State :=
  let r := prefRef s
  if gnum s .clkRevert == 1 && refGood s r && s.clk.source != refSource r then switchRef s (refSource r) else s

/-- A runt is discarded and counted (R563). -/
def countRunt (r : RefIn) (s : State) : State :=
  match r with
  | .a => rbump s (halReg .clkRefstat) 15 8 1
  | .b => rbump s (halReg .clkRefstat) 23 16 1

/-! Panel clocks (R561). -/

/-- Current PCLK of a panel in MHz. -/
def pclkNow (s : State) (p : Nat) : Nat := ((s.clk.pclk.find? (·.1 == p)).map (·.2)).getD 1500

/-- CLK_PCLK.TARGET: clk.pclk_mhz_p, or the thermal limit when lower. -/
def pclkTarget (s : State) (p : Nat) : Nat :=
  let t := dnum s .clkPclkMhzP p 0
  match s.clk.thermal.find? (·.1 == p) with | some e => min t e.2 | none => t

/-- The frequency that a panel is to run at: its target under the limit of R594. -/
def pclkGoal (s : State) (p : Nat) : Nat :=
  match s.clk.power with | some m => min (pclkTarget s p) m | none => pclkTarget s p

/-- CLK_PCLK.THROTTLED: a thermal or power limit holds PCLK below what clk.pclk_mhz_p asks. -/
def throttled (s : State) (p : Nat) : Bool := pclkGoal s p < dnum s .clkPclkMhzP p 0

/-- A panel moves its PLL to its goal between array passes. -/
def pclkMoves (p : Nat) (s : State) : State :=
  if 16 ≤ p || pclkNow s p == pclkGoal s p then s
  else
    rbump { s with clk := { s.clk with pclk := upsert (·.1 == p) (p, pclkGoal s p) s.clk.pclk } } (panelReg .clkPclk p 0) 63 48 1

/-- A junction's report (R607): at 95 °C PCLK is to be lowered to a limit, at 105 °C to 0.60 GHz; below 95 °C the limit ends. -/
def junction (p mc limit : Nat) (s : State) : State :=
  let s := { s with pwr := { s.pwr with panelMc := upsert (·.1 == p) (p, mc) s.pwr.panelMc } }
  let rest := s.clk.thermal.filter (·.1 != p)
  if mc < 95000 then { s with clk := { s.clk with thermal := rest } }
  else
    let m := if 105000 ≤ mc then 600 else max 600 (min limit (pclkNow s p))
    { s with clk := { s.clk with thermal := rest ++ [(p, m)] } }

/-- Input power over 10 ms (R594): above power.limit_w PCLK is to be lowered; at or below it the limit ends. -/
def inputPower (watts mhz : Nat) (s : State) : State :=
  let s := { s with pwr := { s.pwr with inputW := some watts } }
  { s with clk := { s.clk with power := if gnum s .powerLimitW < watts then some (max 600 mhz) else none } }

/-! Idle (R576). -/

/-- A panel without dealt work stops its PCLK, a DRAM channel without accesses powers down. -/
def enterIdle (u : IdleUnit) (s : State) : State :=
  let ready := match u with | .panel p => !(s.jig.flights.any (dealtOn · p)) | _ => true
  if ready && !(s.clk.idle.contains u) then { s with clk := { s.clk with idle := s.clk.idle ++ [u] } } else s

/-- The next doorbell or access returns the unit to run. -/
def leaveIdle (u : IdleUnit) (s : State) : State := { s with clk := { s.clk with idle := s.clk.idle.filter (· != u) } }

/-! The meanings. -/

def execRefclkLoss (r : RefIn) (cause : LossCause) (s : State) : Result := .next (refLost r cause s)
def execRefclkRevert (s : State) : Result := .next (refReverts s)
def execRefclkGood (r : RefIn) (s : State) : Result := .next (refBack r s)
def execRuntPulse (r : RefIn) (s : State) : Result := .next (countRunt r s)
def execPclkChange (panel : Nat) (s : State) : Result := .next (pclkMoves panel s)
def execThermalThrottle (panel mc limit : Nat) (s : State) : Result := .next (junction panel mc limit s)
def execPowerLimitThrottle (watts mhz : Nat) (s : State) : Result := .next (inputPower watts mhz s)
def execIdleEntry (u : IdleUnit) (s : State) : Result := .next (enterIdle u s)
def execPartitionIdleIdleExit (u : IdleUnit) (s : State) : Result := .next (leaveIdle u s)

end Sys2Proof.Machine
end

