-- ==== Sys2Proof/Machine/Registers.lean ====
section
/-!
DEFINITION. Register writes and reads (00_scope.md R8 to R13; 18_partitions.md R494, R498; 11_drawers_tiers.md R306): one operation
for each, over every register of the map, and the rows that are writes of one register.
-/
namespace Sys2Proof.Machine

/-! Reading. -/

/-- CROSS, PEER_KIND and PEER_NUM of a spine port (01_cabinet.md R18 to R20): ports 0 to 3 point north, east, south and west in the
4 by 4 array. -/
def spinePeer (p port : Nat) : Nat × Nat × Nat :=
  let r := p / 4
  let c := p % 4
  let rim := match port with | 0 => r == 0 | 1 => c == 3 | 2 => r == 3 | _ => c == 0
  if rim then (1, 2, port)
  else
    let n := match port with | 0 => p - 4 | 1 => p + 1 | 2 => p + 4 | _ => p - 1
    let quad (k : Nat) : Nat := 2 * (k / 4 / 2) + k % 4 / 2
    (if quad p == quad n then 0 else 1, 1, n)

/-- The tiled MI being dealt on a panel: the oldest that has issued there (06_jig.md R177). -/
def beingDealt (s : State) (p : Nat) : Option Flight :=
  s.jig.flights.find? fun f => f.phase == .issued && (jigPlan s f).isSome && (dealtBenches f p != [])

/-- O_b of the MI being dealt on a panel (06_jig.md R175); 0 while none is. -/
def openLimit (s : State) (p : Nat) : Nat := match beingDealt s p with | some f => (dealLimits s f p).1 | none => 0

/-- Bits of units of a panel in retention, on their way out of it included (PWR_RETSTAT). -/
def heldBits (s : State) (p : Nat) : Nat :=
  s.retention.foldl (fun v e => if e.1 == p && e.2.2 != .entering then Nat.lor v (2 ^ retBit e.2.1) else v) 0

def natOf (b : Bool) : Nat := if b then 1 else 0

/-- Are the links between the dies trained and carrying traffic: from the start-up stage that trains them on, outside retain
(21_clocks_power.md R577, R582)? -/
def linksTrained (s : State) : Bool := s.pwr.rails == .on && decide (2 ≤ s.pwr.stage) && s.pwr.state != 2

/-- The fields of a panel's registers that mirror live state. -/
def livePanel (s : State) (a : RegAddr) (p : Nat) : List (Nat × Nat × Nat) :=
  match a.id with
  | .jigQptr => [(63, 48, (queueFlights s p a.i).length)]
  | .jigErptr => [(48, 48, natOf (ringFull s p a.i))]
  | .jigSqstat => [(15, 0, ((s.jig.flights.filter fun f => f.phase == .issued && miShared f.word).map
      fun f => (readyTiles s f p).length).sum),
      (39, 32, (s.jig.flights.map fun f => f.waiters.countP (·.1 == p)).sum), (47, 40, openLimit s p)]
  | .jigRetstat => [(61, 48, retUsed s (p, a.i))]
  | .pwrRetstat => [(51, 0, heldBits s p)]
  | .sbdCstat => [(62, 48, ((ctxFrames s p a.i).filter (·.state == .dirty)).length)]
  | .chkCtl => [(0, 0, natOf (unitBound s p a.i))]
  | .chkState => [(63, 0, rget s a % 2 ^ crcWidth (rfield s { a with id := .chkCtl } 2 1))]
  | .fltPanel => [(1, 0, sparesLeft s p), (31, 16, ((s.takeovers.find? (·.1 == p)).map (·.2)).getD 0)]
  | .fltSpinePort =>
    (let x := spinePeer p a.i; [(0, 0, natOf (linksTrained s)), (1, 1, x.1), (3, 2, x.2.1), (7, 4, x.2.2)])
  | .clkPclk => [(11, 0, pclkNow s p), (27, 16, pclkTarget s p), (32, 32, natOf (throttled s p))]
  | _ => []

/-- Those of an edge die. -/
def liveEdge (s : State) (a : RegAddr) (e : Nat) : List (Nat × Nat × Nat) :=
  let v := portAt s (3 * e + a.i)
  match a.id with
  | .chkCtl => [(0, 0, natOf (edgeUnitBound s a.i))]
  | .chkState => [(63, 0, rget s a % 2 ^ crcWidth (rfield s { a with id := .chkCtl } 2 1))]
  | .azfPstat => [(2, 0, portState v), (3, 3, natOf v.nbrValid), (7, 4, v.lanes), (8, 8, natOf v.fallback)] ++
      [(12, 9, v.nbrPort), (31, 16, v.nbrAddr)]
  | .azfNbr => [(63, 0, v.nbrSerial)]
  | .azfPcfg => [(3 * e + a.i, 3 * e + a.i, 1)]
  | .azfRtctl => [(0, 0, s.fab.active), (1, 1, natOf s.fab.copying), (23, 8, selfAddr s)]
  | .azfSched => [(1, 0, s.fab.sched), (15, 8, match s.fab.plan with | some k => slotIndex k s.time | none => 0),
      (31, 16, min 0xFFFF (timeError s))]
  | .inlGstat => [(5, 0, 0)]
  | _ => []

/-- Those of the Halyard die. -/
def liveHalyard (s : State) (a : RegAddr) : List (Nat × Nat × Nat) :=
  match a.id with
  | .prtMmuinv => [(63, 63, natOf s.mmu.inval.isSome)]
  | .halCore => [(0, 0, s.hal.active), (1, 1, natOf (!s.hal.outA && !s.hal.outB)), (2, 2, natOf s.hal.outA),
      (3, 3, natOf s.hal.outB), (47, 16, s.hal.acked % 2 ^ 32)]
  | .halLoad => [(6, 0, 0), (16, 8, 0)]
  | .halBoot => [(0, 0, s.hal.flash.bank), (1, 1, natOf s.hal.flash.otherValid), (15, 8, s.hal.flash.security % 256)]
  | .clkRefstat => [(0, 0, natOf s.clk.aGood), (1, 1, natOf s.clk.bGood), (3, 2, s.clk.source),
      (47, 32, (s.clk.aOffset % 65536).toNat), (63, 48, (s.clk.bOffset % 65536).toNat)]
  | .clkPenstat => [(0, 0, natOf s.pen.locked), (1, 1, natOf s.pen.bypassOpen), (2, 2, natOf s.pen.master),
      (13, 8, s.pen.position % 64), (22, 16, s.pen.ringSize), (39, 24, min 0xFFFF (timeError s))]
  | _ => []

/-- Those of a bench. -/
def liveBench (s : State) (a : RegAddr) (p b : Nat) : List (Nat × Nat × Nat) :=
  match a.id with
  | .mxuBenchId => [(5, 0, b), (12, 8, (servedBy s p b).getD 0), (19, 16, p), (26, 24, benchState s p b),
      (39, 32, (benchPart s p b).getD 0)]
  | .sfuCap => [(0, 0, natOf (Config.sfuLegacy p b)), (15, 8, Config.sfuNativeRev), (23, 16, Config.sfuLegacyRev)]
  | _ => []

/-- The live fields of a register: high bit, low bit, value. How much of the syntax buffer's allocations is in use (17_media_ingest.md
R460) the spec leaves open: a free value (log entry 11). -/
def liveFields (s : State) (a : RegAddr) : List (Nat × Nat × Nat) :=
  match a.loc with
  | .panel p => livePanel s a p
  | .bench p b => liveBench s a p b
  | .edge e => liveEdge s a e
  | .halyard => liveHalyard s a
  | .ingest =>
    (match a.id, findPipe s a.i with
     | .ingQstat, some k => [(12, 0, k.ready.length), (28, 16, ppSlots k.block - k.ready.length - k.claimed.length)]
     | _, _ => [])
  | .media d =>
    if a.id == .medStat then
      [(16, 0, Config.openValue s.freeCtr (460 + d) %
        (1024 * ((s.med.ctxs.filter (·.die == d)).map fun m => cbSynbuf m.block).sum + 1))]
    else []

/-- The value of a register: stored fields, live fields over them, zero where a field is write-only (R9). -/
def regValue (s : State) (a : RegAddr) : Nat :=
  let v := (liveFields s a).foldl (fun v f => setBits v f.1 f.2.1 f.2.2) (rget s a)
  (regFields a.id).foldl (fun v f => if f.acc == .wo then setBits v f.hi f.lo 0 else v) v

/-! Who reaches a register. -/

/-- What an access comes to. -/
inductive Reach where
  /-- The link is down, or the VF is unbound (18_partitions.md R492): nothing happens, and a read gives zero. -/
  | nowhere
  /-- Refused through a VF's BAR0, with its partition (R494). -/
  | refused (part : Nat)
  /-- No register (R13), an access that is not naturally aligned (R8), or a register whose bench hides it (01_cabinet.md R38). -/
  | hole
  | register (a : RegAddr)
deriving DecidableEq, Repr, Inhabited

def reachOf (s : State) (src : Src) (off width : Nat) (write : Bool) : Reach :=
  let a := if off % (width / 8) == 0 && (width == 64 || width == 32) then regOf (off / 8 * 8) else none
  let open' : Reach := match a with | some a => if benchHidden s a then .hole else .register a | none => .hole
  let aligned : Bool := off % (width / 8) == 0 && (width == 64 || width == 32)
  if !(linkUp s src) then .nowhere
  else if !(isVf src) then open'
  else
    match vfPart s src with
    | none => .nowhere
    | some part =>
      if !aligned then .hole
      else
      match a with
      | some x => if vfReaches s part x write then open' else .refused part
      | none => .refused part

/-! Writing. -/

/-- A write of PRT_MMUINV: START is discarded while an invalidation is in progress (18_partitions.md R509). -/
def mmuinvWrite (s : State) (a : RegAddr) (v : Nat) : State :=
  if !(bit v 0) then plainWrite s a v
  else if s.mmu.inval.isSome then s
  else
    { plainWrite s a v with mmu := { s.mmu with
        inval := some { all := bit v 1, part := bits v 15 8, addr := bits v 47 16 * 0x10000 } } }

/-- Units of a panel held beyond the clears of a PWR_RET write start to wake (11_drawers_tiers.md R307). -/
def pwrRetWrite (s : State) (a : RegAddr) (v : Nat) : State :=
  match a.loc with
  | .panel p => wakeCleared (plainWrite s a v) p
  | _ => s

/-- The write of a register that the access reaches, with the effect of its own chapter. -/
def regStep (s : State) (a : RegAddr) (v : Nat) : State :=
  match a.id, a.loc with
  | .cenCtx, _ | .ldgCtx, _ => areaCtxWrite s a v
  | .jigQcfg, _ => qcfgWrite s a v
  | .jigQptr, _ => qptrWrite s a v
  | .jigErbase, _ => erbaseWrite s a v
  | .jigErptr, _ => erptrWrite s a v
  | .jigSalv, _ => salvWrite s a v
  | .jigRetcfg, _ => retcfgWrite s a v
  | .kvpPcfg, .panel p => poolWrite s p a.i v
  | .sbdCcfg, _ => ccfgWrite s a v
  | .mitCtx, _ | .mitCtxb, _ => mitWrite s a v
  | .medCtx, _ => medCtxWrite s a v
  | .medCptr, _ => medPtrWrite s a v
  | .ingPipe, _ => ingPipeWrite s a v
  | .ingRptr, _ => ingRptrWrite s a v
  | .ingQstat, _ => ingQstatWrite s a v
  | .chkCtl, .panel p | .chkState, .panel p | .chkCnt, .panel p => chkWrite s (unitBound s p a.i) a v
  | .chkCtl, .edge _ | .chkState, .edge _ | .chkCnt, .edge _ => chkWrite s (edgeUnitBound s a.i) a v
  | .prtMmuinv, _ => mmuinvWrite s a v
  | .pwrRet, _ => pwrRetWrite s a v
  | _, _ => plainWrite s a v

/-- A register write of `width` bits (R8): only an aligned 64-bit write has an effect. -/
def regWrite (src : Src) (off width v : Nat) (s : State) : State :=
  match reachOf s src off width true with
  | .refused part => logViol s src part off true
  | .register a =>
    if width == 64 then
      let v := effectiveValue s src a (v % 2 ^ 64)
      regStep (noteAssigned s src a v) a v
    else s
  | _ => s

/-- A write of a register by its name. -/
def namedWrite (src : Src) (a : RegAddr) (v : Nat) (s : State) : State := regWrite src (regOffset a) 64 v s

/-- A register read of `width` bits: the answer leaves, and the RC fields inside it clear (R8, R9, R11). -/
def regRead (src : Src) (off width : Nat) (s : State) : State :=
  match reachOf s src off width false with
  | .refused part => emit (logViol s src part off false) (.regData src off width 0)
  | .register a =>
    let lo := if width == 32 then 8 * (off % 8) else 0
    let v := regValue s a
    let s := rset s a (clearRc (regFields a.id) (rget s a) (lo + width - 1) lo)
    emit s (.regData src off width (bits v (lo + width - 1) lo))
  | .hole => emit s (.regData src off width 0)
  | .nowhere => if isVf src && linkUp s src then emit s (.regData src off width 0) else s

/-- Is the register at an offset one of these? -/
def offsetIn (ids : List RegId) (off : Nat) : Bool := match regOf off with | some a => ids.contains a.id | none => false

/-! The meanings. A row that is a write of one register with one field set is no other write. -/

def execRegisterWrite (src : Src) (addr width v : Nat) (s : State) : Result := .next (regWrite src addr width v s)
def execRegisterRead (src : Src) (addr width : Nat) (s : State) : Result := .next (regRead src addr width s)
def execJigQptrDoorbell (src : Src) (panel q v : Nat) (s : State) : Result :=
  .next (namedWrite src (panelReg .jigQptr panel q) v s)
def execJigQptrResume (src : Src) (panel q v : Nat) (s : State) : Result :=
  .next (if bit v 33 then namedWrite src (panelReg .jigQptr panel q) v s else s)
def execJigQptrReset (src : Src) (panel q v : Nat) (s : State) : Result :=
  .next (if bit v 34 then namedWrite src (panelReg .jigQptr panel q) v s else s)
def execEringEnable (src : Src) (panel c v : Nat) (s : State) : Result :=
  .next (if bit v 0 then namedWrite src (panelReg .jigErbase panel c) v s else s)
def execErptrConsumerWrite (src : Src) (panel c v : Nat) (s : State) : Result :=
  .next (namedWrite src (panelReg .jigErptr panel c) v s)
def execContextEnable (src : Src) (offset v : Nat) (s : State) : Result :=
  .next (if bit v 0 && offsetIn [.cenCtx, .ldgCtx, .jigSalv, .jigRetcfg] offset then regWrite src offset 64 v s else s)
def execKvpPoolInit (src : Src) (panel n v : Nat) (s : State) : Result :=
  .next (if bit v 0 then namedWrite src (panelReg .kvpPcfg panel n) v s else s)
def execCacheEnable (src : Src) (panel n v : Nat) (s : State) : Result :=
  .next (if bit v 0 then namedWrite src (panelReg .sbdCcfg panel n) v s else s)
def execCacheDisable (src : Src) (panel n v : Nat) (s : State) : Result :=
  .next (if bit v 0 then s else namedWrite src (panelReg .sbdCcfg panel n) v s)
def execMitreContextEnable (src : Src) (c v : Nat) (s : State) : Result :=
  .next (if bit v 0 then namedWrite src (edgeReg .mitCtx (c / 64) (c % 64)) v s else s)
def execMedContextEnable (src : Src) (die c v : Nat) (s : State) : Result :=
  .next (if bit v 0 then namedWrite src { id := .medCtx, loc := .media die, i := c } v s else s)
def execMedContextDisable (src : Src) (die c v : Nat) (s : State) : Result :=
  .next (if bit v 0 then s else namedWrite src { id := .medCtx, loc := .media die, i := c } v s)
def execMedJobDoorbell (src : Src) (die c v : Nat) (s : State) : Result :=
  .next (namedWrite src { id := .medCptr, loc := .media die, i := c } v s)
def execIngPipeEnable (src : Src) (n v : Nat) (s : State) : Result :=
  .next (if bit v 0 then namedWrite src (ingReg .ingPipe n) v s else s)
def execIngReqDoorbell (src : Src) (n v : Nat) (s : State) : Result := .next (namedWrite src (ingReg .ingRptr n) v s)
def execIngQstatResume (src : Src) (n v : Nat) (s : State) : Result :=
  .next (if bit v 33 then namedWrite src (ingReg .ingQstat n) v s else s)
def execPrtMmuinvStart (src : Src) (v : Nat) (s : State) : Result :=
  .next (if bit v 0 then namedWrite src (halReg .prtMmuinv) v s else s)
def execChkStateRestore (src : Src) (offset v : Nat) (s : State) : Result :=
  .next (if offsetIn [.chkCtl, .chkState, .chkCnt] offset then regWrite src offset 64 v s else s)
def execPwrRetWrite (src : Src) (panel v : Nat) (s : State) : Result := .next (namedWrite src (panelReg .pwrRet panel 0) v s)

end Sys2Proof.Machine
end

