-- ==== Sys2Proof/Machine/Partitions.lean ====
section
/-!
DEFINITION. Partitions in operation: the end of an invalidation (18_partitions.md R498), the PARTITION reset
(21_clocks_power.md R580; 05_macro_instructions.md R158; 11_drawers_tiers.md R314; 12_hbm_lpddr.md R342), the switch of a
time-slice group (18_partitions.md R501 to R503), BAR2 (R493) and the Function Level Reset (R492).
-/
namespace Sys2Proof.Machine

/-! Translations. -/

/-- Drop the translations whose page the partition no longer owns (R498). -/
def recheckTlb (s : State) : State :=
  { s with mmu := { s.mmu with tlb := s.mmu.tlb.filter fun e => pageOwned s e.part e.pa e.size } }

/-- Drop every translation of a partition. -/
def dropTlb (s : State) (part : Nat) : State :=
  { s with mmu := { s.mmu with tlb := s.mmu.tlb.filter (·.part != part) } }

/-- Does an invalidation cover a translation: of its partition, and all or the 64 KiB and the 2 MiB page that hold ADDR? -/
def invalCovers (i : Inval) (e : TlbEntry) : Bool :=
  e.part == i.part && (i.all || (e.va ≤ i.addr && i.addr < e.va + e.size))

/-- An invalidation completes: BUSY clears. -/
def invalDone (s : State) : State :=
  match s.mmu.inval with
  | none => s
  | some i => recheckTlb { s with mmu := { s.mmu with inval := none, tlb := s.mmu.tlb.filter fun e => !(invalCovers i e) } }

/-! Reset of register fields (00_scope.md R14). -/

/-- Do the fields of kind `k` reset on a reset of kind `on`? -/
def resetsOn : ResetKind → ResetKind → Bool
  | .part, _ => true
  | .warm, .part => false
  | .warm, _ => true
  | .cold, .cold => true
  | _, _ => false

/-- A register's value with the fields that a kind of reset covers at their reset values. -/
def resetValue (on : ResetKind) (a : RegAddr) (v : Nat) : Nat :=
  let r := regReset a
  (regFields a.id).foldl (fun v f => if resetsOn f.kind on then setBits v f.hi f.lo (bits r f.hi f.lo) else v) v

/-- Return the fields of a register that a kind of reset covers to their reset values. -/
def resetFields (s : State) (on : ResetKind) (a : RegAddr) : State := rset s a (resetValue on a (rget s a))

/-- Reset a kind's fields in the registers that `which` names. -/
def resetRegs (s : State) (on : ResetKind) (which : RegAddr → Bool) : State :=
  (s.regs.filterMap fun e => regOf e.1).foldl (fun s a => if which a then resetFields s on a else s) s

/-! The PARTITION reset. -/

/-- Counts and logs of the Jig, the panel combiner and the Mitre engines that several partitions share: they go with a partition that
owns benches on the panel, or has a Mitre context (log entry 124). -/
def sharedWith (s : State) (part : Nat) (a : RegAddr) : Bool :=
  match a.id, a.loc with
  | .jigSqstat, .panel p | .jigCombNcLog0, .panel p | .jigCombNcLog1, .panel p => !(benchesOf s part p).isEmpty
  | .mitNcLog0, .edge _ | .mitNcLog1, .edge _ => (List.range 64).any fun c => assignedTo s (edgeReg .mitCtx 0 c) part
  | _, _ => false

/-- Is a register part of a partition's contexts or bench blocks, or shared by it? The bench blocks of a time-slice member that is out
are in its save area. -/
def regBelongs (s : State) (part : Nat) (a : RegAddr) : Bool :=
  (match a.loc with
   | .bench p b => !(memberOut s part) && (match logicalOf s p b with | some l => ownsBench s part p l | none => false)
   | _ => false) || assignedTo s a part || sharedWith s part a

/-- Clear RUNNING in the entry of a run (10_training.md R280, R286). -/
def clearRunning (s : State) (r : SalvageRun) : State :=
  match salvCtx s r.part with
  | none => s
  | some c =>
    match salvAddr s c r.id with
    | none => s
    | some a =>
      let (s, e) := salvGet s r.part c a
      salvPut s r.part c a { e with flags := setBits e.flags 2 2 0 }

/-- Discard every issued MI of a partition with ABORTED, and its salvage runs (05_macro_instructions.md R158). -/
def abortPartition (s : State) (part : Nat) : State :=
  let s := (s.jig.flights.filter (·.part == part)).foldl
    (fun s f => completeFlight s f { status := 0x0B } true) s
  let s := (s.jig.runs.filter (·.part == part)).foldl clearRunning s
  { s with jig := { s.jig with runs := s.jig.runs.filter (·.part != part) } }

/-- What the contexts of a partition hold beside their registers. -/
def dropContextState (s : State) (mine : RegAddr → Bool) : State :=
  { s with
    cache := { s.cache with
      frames := s.cache.frames.filter fun f => !(mine (panelReg .sbdCcfg f.panel f.n))
      closing := s.cache.closing.filter fun c => !(mine (panelReg .sbdCcfg c.1 c.2.1)) }
    kv := { s.kv with initing := s.kv.initing.filter fun c => !(mine (panelReg .kvpPcfg c.1 c.2)) }
    jig := { s.jig with
      retained := s.jig.retained.filter fun r => !(mine (panelReg .jigRetcfg r.panel r.n))
      resetting := s.jig.resetting.filter fun r => !(mine (panelReg .jigQcfg r.1 r.2)) }
    mit := { s.mit with members := s.mit.members.filter fun m => !(mine (edgeReg .mitCtx 0 m.1)) }
    med := { s.med with
      ctxs := s.med.ctxs.filter fun m => !(mine { id := .medCtx, loc := .media m.die, i := m.c })
      pipes := s.med.pipes.filter fun k => !(mine (ingReg .ingPipe k.n)) } }

/-- A new hash key and a scrub of every frame (12_hbm_lpddr.md R341, R342). -/
def rekey (s : State) (part : Nat) : State :=
  let n := s.freeCtr
  let s := { s with freeCtr := n + 1, dram := { s.dram with masks := upsert (·.1 == part) (part, n) s.dram.masks } }
  (frameRanges s part).foldl (fun s r => scrubFrames s r.1 r.2) s

/-- Registers that a time-slice switch saves beside the drawers: panel, place (a logical bench, or `panelPlace` for the panel block),
offset in the block, value (18_partitions.md R502). -/
abbrev SavedReg : Type := Nat × Nat × Nat × Nat

/-- The place of the panel block among the saved registers. -/
def panelPlace : Nat := 64

/-- The block of a saved register, as it lies now. -/
def savedBase (s : State) (e : SavedReg) : Option Nat :=
  if e.2.1 == panelPlace then some (locBase (.panel e.1)) else (physOf s e.1 e.2.1).map fun b => locBase (.bench e.1 b)

/-- The registers that a member which is out left in its save area return to their reset values. -/
def resetSaved (s : State) (part : Nat) : State :=
  { s with mmu := { s.mmu with saved := s.mmu.saved.map fun m =>
      if m.1 == part then (part, m.2.map fun e =>
        match (savedBase s e).bind fun b => regOf (b + e.2.2.1) with
        | some a => (e.1, e.2.1, e.2.2.1, resetValue .part a e.2.2.2)
        | none => e) else m } }

/-- The PARTITION reset of an instance. -/
def resetPartition (s : State) (part : Nat) : State :=
  let s := abortPartition s part
  let mine := regBelongs s part
  let s' := resetSaved (resetRegs (dropContextState s mine) .part mine) part
  let held := s'.mmu.assigned.filter fun x => match regOf x.1 with
    | some a => !(mine a) || a.id == .jigErbase || a.id == .sbdSlice
    | none => true
  let s' := dsetNum { s' with mmu := { s'.mmu with assigned := held } } .computeAuditTiles 0 part 8 0
  if pnum s' .partitionHashRekey part == 1 then dsetNum (rekey s' part) .partitionHashRekey 0 part 1 0 else s'

/-! Time slices (R501 to R503). -/

/-- Members of a group, ascending. -/
def groupMembers (s : State) (g : Nat) : List Nat :=
  (List.range 256).filter fun p => pnum s .partitionTsliceGroup p == g && partState s p != 0

/-- Where a member's drawers lie while it is out: bench `i` of the group in all and `j` on its panel, at 4 MiB a bench (log entry
48). -/
def saveSpot (s : State) (part p i j : Nat) : Bool × Nat :=
  let k := pnum s .partitionTsliceSaveSbd part
  if k == 0xFFFF then (true, pnum s .partitionTsliceSave part + i * 0x400000)
  else (false, sideboardBase p + k * 0x10000 + j * 0x400000)

/-- Move a drawer out to a member's save area, or in from it: the T2 area goes page by page through translation. -/
def moveDrawer (s : State) (part : Nat) (drawer : Nat) (spot : Bool × Nat) (out : Bool) : State :=
  if !spot.1 then (if out then moveRange s drawer spot.2 0x400000 else moveRange s spot.2 drawer 0x400000)
  else
    (List.range 64).foldl (fun s i =>
      match translate s part (spot.2 + i * 0x10000) out with
      | (.ok pa, s) =>
        if out then moveRange s (drawer + i * 0x10000) pa 0x10000 else moveRange s pa (drawer + i * 0x10000) 0x10000
      | (.error _, s) => s) s

/-- The shared benches: panel, logical bench, place in the group and on the panel. -/
def sharedBenches (s : State) (part : Nat) : List (Nat × Nat × Nat × Nat) :=
  ((List.range 16).flatMap fun p => (benchesOf s part p).zipIdx.map fun b => (p, b.1, b.2)).zipIdx.map fun x =>
    (x.1.1, x.1.2.1, x.2, x.1.2.2)

/-- Registers of a bench block as offsets and values. -/
def benchRegs (s : State) (p b : Nat) : List (Nat × Nat) :=
  let base := locBase (.bench p b)
  (s.regs.filter fun e => decide (base ≤ e.1 ∧ e.1 < base + 0x10000)).map fun e => (e.1 - base, e.2.toNat)

/-- A member's check units on the shared panels: POLY, the running register and the byte count of each (14_integrity.md R396). Its other
contexts stay where they are while it is out (log entry 85). -/
def unitRegs (s : State) (part : Nat) : List SavedReg :=
  ((sharedBenches s part).map (·.1)).eraseDups.flatMap fun p => (List.range 4).flatMap fun u =>
    if rfield s (panelReg .chkCtl p u) 15 8 == part then
      [RegId.chkCtl, .chkState, .chkCnt].map fun id =>
        let a := panelReg id p u
        (p, panelPlace, regOffset a - locBase (.panel p), rget s a)
    else []

/-- The outgoing member's drawers, bench registers and check units are saved. -/
def saveMember (s : State) (part : Nat) : State :=
  let bs := sharedBenches s part
  let regs := bs.flatMap (fun x => match physOf s x.1 x.2.1 with
    | some b => (benchRegs s x.1 b).map fun e => (x.1, x.2.1, e.1, e.2)
    | none => []) ++ unitRegs s part
  let s := bs.foldl (fun s x => match physOf s x.1 x.2.1 with
    | some b => moveDrawer s part (drawerBase x.1 b) (saveSpot s part x.1 x.2.2.1 x.2.2.2) true
    | none => s) s
  { s with mmu := { s.mmu with saved := upsert (·.1 == part) (part, regs) s.mmu.saved } }

/-- A check unit's register takes its saved value; of CHK_CTLu only POLY does. -/
def restoreUnit (s : State) (at' v : Nat) : State :=
  match regOf at' with
  | some a => if a.id == .chkCtl then rsetField s a 2 1 (bits v 2 1) else rset s a v
  | none => s

/-- The incoming member's are restored; a member that has not run yet finds its bench registers at their reset values. -/
def restoreMember (s : State) (part : Nat) : State :=
  let regs := ((s.mmu.saved.find? (·.1 == part)).map (·.2)).getD []
  let s := (sharedBenches s part).foldl (fun s x => match physOf s x.1 x.2.1 with
    | some b =>
      let base := locBase (.bench x.1 b)
      let s := moveDrawer s part (drawerBase x.1 b) (saveSpot s part x.1 x.2.2.1 x.2.2.2) false
      let s := { s with regs := s.regs.filter fun e => decide (e.1 < base ∨ base + 0x10000 ≤ e.1) }
      (regs.filter fun e => e.1 == x.1 && e.2.1 == x.2.1).foldl (fun s e => regStore s (base + e.2.2.1) e.2.2.2) s
    | none => s) s
  let s := (regs.filter fun e => e.2.1 == panelPlace).foldl (fun s e => restoreUnit s (locBase (.panel e.1) + e.2.2.1) e.2.2.2) s
  { s with mmu := { s.mmu with saved := s.mmu.saved.filter (·.1 != part) } }

/-- The first multiple of the quantum that is not the last switch (log entry 40). -/
def switchTime (s : State) (g : TSlice) (quantum : Nat) : Nat :=
  let t := ceilDiv s.time (max 1 quantum) * max 1 quantum
  if t ≤ g.last then g.last + max 1 quantum else t

/-- The switch of a group to its next member. -/
def switchGroup (g : Nat) (s : State) : State :=
  let ms := groupMembers s g
  match ms with
  | [] | [_] => s
  | m :: _ =>
    let cur : TSlice := (s.mmu.tslice.find? (·.group == g)).getD { group := g, running := m }
    let next := ((ms.filter (cur.running < ·)).head?).getD m
    let t := switchTime s cur (pnum s .partitionTsliceQuantum m)
    let s := restoreMember (saveMember s cur.running) next
    { s with time := max s.time t
             mmu := { s.mmu with tslice := upsert (·.group == g) { group := g, running := next, last := t } s.mmu.tslice } }

/-! BAR2 and the Function Level Reset. -/

/-- The answer of an access: status, DETAIL and data. -/
def barAnswer (fn : Src) (g : Got) : State :=
  match g.cond with
  | some c => emit g.s (.barData fn c.status c.detail g.bytes)
  | none => emit g.s (.barData fn 0 0 g.bytes)

/-- An access through BAR2 that meets the neighbour window answers when what it asked there has arrived (01_cabinet.md R33). -/
def barFinish (fn : Src) (part : Option Nat) (va n : Nat) (g : Got) : State :=
  let id := g.s.fab.nextJob
  if !g.s.fab.asks.isEmpty then startJob g.s (.bar fn) part va n g.s.fab.asks
  else if jobAwaits g.s id then
    { g.s with fab := { g.s.fab with
        nextJob := id + 1
        jobs := g.s.fab.jobs ++ [{ id := id, who := .bar fn, part := part, va := va, n := 0, cond := g.cond }] } }
  else barAnswer fn g

/-- An access through a function's BAR2 (R493). -/
def barAccess (fn : Src) (off : Nat) (op : BarOp) (s : State) : State :=
  if !(linkUp s fn) then s
  else
    match fn with
    | .halyard => s
    | .pf l =>
      let a := (Config.pfBar2Base l + off) % 2 ^ 48
      (match op with
       | .read n => barFinish fn none a n (physGet (noAsks s) {} a n a)
       | .write bs => barFinish fn none a 0 (physPut (noAsks s) { job := some s.fab.nextJob } a bs a))
    | .vf _ _ =>
      match vfPart s fn, op with
      | none, .read n => barAnswer fn { s := s, bytes := List.replicate n 0 }
      | none, .write _ => s
      | some p, .read n =>
        let va := (pnum s .partitionAperture p + off) % 2 ^ 48
        barFinish fn (some p) va n (wholeGet (noAsks s) { part := some p } p va n)
      | some p, .write bs =>
        let va := (pnum s .partitionAperture p + off) % 2 ^ 48
        barFinish fn (some p) va 0 (wholePut (noAsks s) { part := some p, job := some s.fab.nextJob } p va bs)

/-- A Function Level Reset: the VF's configuration space and MSI-X state only (R492). -/
def levelReset (l n : Nat) (s : State) : State :=
  if !(s.pwr.links.contains l) || s.pwr.flrs.contains (l, n) then s
  else { s with pwr := { s.pwr with flrs := s.pwr.flrs ++ [(l, n)] } }

/-! The meanings. -/

def execMmuInvalidationDone (s : State) : Result := .next (invalDone s)
def execTsliceSwitch (group : Nat) (s : State) : Result := .next (whileAwake (switchGroup group) s)
def execBar2Access (fn : Src) (offset : Nat) (op : BarOp) (s : State) : Result := .next (barAccess fn offset op s)
def execVfFlr (lnk num : Nat) (s : State) : Result := .next (levelReset lnk num s)

end Sys2Proof.Machine
end

