-- ==== Sys2Proof/Machine/Objects.lean ====
section
/-!
DEFINITION. Objects as a request names them (19_dictionary.md R510 to R516, R518): index and subindex, access by role, the value that
a role reads, and the checks of a value written.
-/
namespace Sys2Proof.Machine

/-! Names. -/

/-- The limit of a user calibration object (R515), by index beyond 0x3800 and subindex. -/
def calLimit (n sub : Nat) : Option (Int × Int) :=
  if sub == 0 || 127 < sub then none
  else if n ≤ 0x0F then some (-2000, 2000)
  else if n ≤ 0x1F then (if sub ≤ 16 then some (-30, 15) else none)
  else if n < 0x20 then none
  else if n ≤ 0x2B then (if sub ≤ 8 then some (-3, 3) else none)
  else if n < 0x30 then none
  else if n ≤ 0x3B then some (-8, 8)
  else if n == 0x40 && sub == 1 then some (-500, 500)
  else none

def allRoles : List Role := [.owner, .host, .tenant, .peer, .internal]

/-- The row of a calibration object. -/
def calRow (id : ObjId) (n sub : Nat) : ObjRow :=
  { id := id, index := (if id == .factory then 0x3800 else 0x3900) + n, count := 1, sub := sub, type := .i32, len := 4, varLen := false
    read := if id == .factory then allRoles else [.owner, .host, .internal]
    write := if id == .user then [.owner] else []
    staged := id == .user, perPart := false, lo := 0, hi := 0xFFFFFFFF, step := 1, codes := [] }

/-- The calibration object of an index and subindex. Its number is 256 times the index beyond the family's first, plus the
subindex of the factory object. -/
def calObject (index sub : Nat) : Option (ObjRow × ObjAddr) :=
  let found (id : ObjId) (n k : Nat) : Option (ObjRow × ObjAddr) :=
    (calLimit n k).map fun _ => (calRow id n sub, { id := id, i := 256 * n + k })
  if 0x3800 ≤ index && index ≤ 0x38FF then found .factory (index - 0x3800) sub
  else if 0x3900 ≤ index && index ≤ 0x39FF then
    (if sub < 0x80 then found .user (index - 0x3900) sub else found .effective (index - 0x3900) (sub - 0x80))
  else none

/-- The object that an index, a subindex and a partition name; none where no table defines one (R510, R511). -/
def findObject (index sub part : Nat) : Option (ObjRow × ObjAddr) :=
  match objRows.find? fun r => r.index ≤ index && index < r.index + r.count && r.sub == sub with
  | some r => some (r, { id := r.id, i := index - r.index, part := if r.perPart then part else 0 })
  | none => calObject index sub

/-- Index and subindex of an object. -/
def objectName (o : ObjAddr) : Nat × Nat :=
  match o.id with
  | .factory => (0x3800 + o.i / 256, o.i % 256)
  | .user => (0x3900 + o.i / 256, o.i % 256)
  | .effective => (0x3900 + o.i / 256, o.i % 256 + 0x80)
  | id => match objRows.find? (·.id == id) with | some r => (r.index + o.i, r.sub) | none => (0, 0)

/-! Reading. -/

/-- A number of a factory calibration object, and the user's adjustment (R515). -/
def calBytes (v : Int) : List Nat := leBytes 4 (ofSigned 32 v)
def factoryValue (i : Nat) : Int := toSigned 32 (Config.factoryCal (i / 256) (i % 256))
def userValue (s : State) (i : Nat) : Int := toSigned 32 (dnum s .user i 0)

/-- The IPv6 interface identifier or other identity of a session's source in 56 bits: the identifier's low bits, link and function
number, or the device address (commit.session). -/
def sourceId : MgmtPath → Nat
  | .port iid => iid % 2 ^ 56
  | .mailbox (.pf l) => l
  | .mailbox (.vf l n) => l + 256 * n
  | .mailbox .halyard => 0
  | .fabric a => a

/-- The roles' numbers in commit.session. -/
def roleCode : Role → Nat
  | .owner => 1 | .host => 2 | .tenant => 3 | .peer => 4 | .internal => 5

/-- The role of a path (R492, R526; chapter opening). -/
def pathRole : MgmtPath → Role
  | .port _ => .owner
  | .mailbox (.vf _ _) => .tenant
  | .mailbox _ => .host
  | .fabric _ => .peer

/-- A sensor's last report, or an open value before the first (log entry 11). -/
def sensorMax (l : List (Nat × Nat)) (k : Nat) : Nat := if l.isEmpty then Config.openValue 0 k else (l.map (·.2)).foldl max 0

/-- The record that fault.select names. -/
def selectedRecord (s : State) : Option (List Nat) :=
  (s.hal.faults.find? (·.seq == gnum s .faultSelect)).map faultBytes

/-- The running firmware's version word. -/
def fwVersion (s : State) : List Nat := s.hal.flash.version.getD (leBytes 4 Config.fwVersion)

/-- The value of an object that mirrors live state or a factory value; none for an object that is stored. `part` cuts a
capability to a partition. -/
def liveObject (s : State) (part : Option Nat) (o : ObjAddr) : Option (Option (List Nat)) :=
  let val (bs : List Nat) : Option (Option (List Nat)) := some (some bs)
  match o.id with
  | .idHwRev => val (leBytes 1 Config.hwRev)
  | .idFwVersion => val (fwVersion s)
  | .idSerial | .fabSerial => val (leBytes 8 Config.serial)
  | .mgmtMac => val (leBytes 6 Config.mac).reverse
  | .capPanels | .capBenches | .capSpares | .capHbmChannels | .capLpddr | .capFabricPorts | .capEdgeUnits | .capMedia
  | .capSfuLegacy => val (capValue s o.id part)
  | .commitSession =>
    val (leBytes 8 (match s.hal.mgmt.session with | some x => x.role * 2 ^ 56 + sourceId x.src | none => 0))
  | .fabSchedTimeErr => val (leBytes 4 (min 0xFFFFFFFF (timeError s)))
  | .fabSchedState => val [s.fab.sched]
  | .computeSpareMapP => val ((List.range 32).map fun l => (physOf s o.i l).getD 0xFF)
  | .computeBenchStateP => val ((List.range 34).map fun b => benchState s o.i b)
  | .memHbmRetired =>
    val ((List.range 8).flatMap fun st => leBytes 4 (maskOf 32 fun c => s.dram.retired.any fun r => r.1 == st && r.2.1 == c))
  | .penPosition => val [s.pen.position]
  | .powerState => val [s.pwr.state]
  | .devState => val [s.pwr.stage]
  | .powerInputW => val (leBytes 2 (min 0xFFFF (s.pwr.inputW.getD (Config.openValue 0 594))))
  | .powerInputMv => val (leBytes 4 s.pwr.vinMv)
  | .thermalCoolantInMc => val (leBytes 4 (Config.openValue 0 605))
  | .thermalCoolantOutMc => val (leBytes 4 (Config.openValue 1 605))
  | .thermalPanelMaxMc => val (leBytes 4 (sensorMax s.pwr.panelMc 607))
  | .thermalHbmMaxMc => val (leBytes 4 (sensorMax s.pwr.hbmMc 608))
  | .faultSeq => val (leBytes 4 s.hal.faultSeq)
  | .faultRecord => some (selectedRecord s)
  | .factory => val (calBytes (factoryValue o.i))
  | .effective => val (calBytes (factoryValue o.i + userValue s o.i))
  | _ => none

/-- The value of an object; none where it is NOT_PRESENT. -/
def objectValue (s : State) (part : Option Nat) (o : ObjAddr) : Option (List Nat) :=
  match liveObject s part o with
  | some v => v
  | none => some (dget s o)

/-- The staged value, or the active one (R518). -/
def stagedValue (s : State) (part : Option Nat) (o : ObjAddr) : Option (List Nat) :=
  match s.hal.mgmt.staged.find? (·.1 == o) with
  | some e => some e.2
  | none => objectValue s part o

/-- Does a role read an object? Keys and the hash key give themselves to no role (15_azoer.md R433, 18_partitions.md R499). -/
def readable (role : Role) (r : ObjRow) : Bool := r.read.contains role

/-! Checks of a value written (R512). -/

/-- Length and encoding. -/
def typeOk (r : ObjRow) (v : List Nat) : Bool :=
  let fits := if r.varLen then
      v.length ≤ r.len && v.length % (if r.id == .partitionFrames then 8 else if r.id == .telemObjects then 4 else 1) == 0
    else v.length == r.len
  fits && (match r.type with
    | .bool => leVal v ≤ 1
    | .enum => r.codes.contains (leVal v)
    | _ => true)

/-- Do 2 MiB frames of T2 or T3 without an owner hold a range (20_faults.md R613)? -/
def inUnowned (s : State) (a n : Nat) : Bool :=
  (match accessRegion a n with | .hbm | .lpddr => true | _ => false) &&
  (List.range ((a + n - 1) / 0x200000 - a / 0x200000 + 1)).all fun i =>
    match frameOf ((a / 0x200000 + i) * 0x200000) with
    | some f => (frameOwner s f).isNone
    | none => false

/-- Bytes of the fault ring at a size exponent. -/
def faultRingBytes (log2 : Nat) : Nat := 64 * 2 ^ log2

/-- Does a value lie in the range that the object's Meaning states? -/
def rangeOk (s : State) (r : ObjRow) (o : ObjAddr) (v : List Nat) : Bool :=
  let n := leVal v
  match o.id with
  | .user =>
    (match calLimit (o.i / 256) (o.i % 256) with
     | some (lo, hi) => decide (lo ≤ toSigned 32 n) && decide (toSigned 32 n ≤ hi)
     | none => false)
  | .penLinkTrim => decide (-20000 ≤ toSigned 32 n) && decide (toSigned 32 n ≤ 20000)
  | .partitionFrames =>
    (List.range (v.length / 8)).all fun i => leAt v (8 * i + 4) 4 != 0 && leAt v (8 * i) 4 + leAt v (8 * i + 4) 4 ≤ 688128
  | .leaseState => n == 1 || n == 7
  | .lentState => n == 9
  | .memHbmRetire => n / 256 < 8 && n % 256 < 32
  | .faultRing => n % 4096 == 0 && (n == 0 || inUnowned s n (faultRingBytes (gnum s .faultRingLog2)))
  | .faultRingLog2 => 6 ≤ n && n ≤ 16 && (gnum s .faultRing == 0 || inUnowned s (gnum s .faultRing) (faultRingBytes n))
  | _ =>
    match r.type with
    | .u8 | .u16 | .u32 | .u64 | .time => r.lo ≤ n && n ≤ r.hi && n % max 1 r.step == 0
    | _ => true

end Sys2Proof.Machine
end

