-- ==== Sys2Proof/Machine/Power.lean ====
section
/-!
DEFINITION. Power, resets, cold start and retain (21_clocks_power.md R576 to R584; 22_module.md R590 to R593, R600, R601, R607) and
the PERST pins (R581).
-/
namespace Sys2Proof.Machine

/-! What a COLD reset keeps (R580). -/

/-- Slices as their owners have them: SBD_SLICEk of every panel (18_partitions.md R488). -/
def ownSlices (s : State) : State :=
  (knownParts s).foldl (fun s q =>
    (setPositions 256 (leVal (dget s { id := .partitionSlices, part := q }))).foldl
      (fun s i => rset s (panelReg .sbdSlice (i / 16) (i % 16)) (1 + q * 256)) s) s

/-- The management state of a device that starts: defaults, and the cause of the last power-down. -/
def freshMgmt (s : State) : Mgmt :=
  let o := dget s { id := .powerLastOff }
  if leVal o == 0 then {} else { dict := [({ id := .powerLastOff }, o)] }

/-- Everything volatile is lost. Flash, spare maps and stored calibration stay, and so do the pins, the clock inputs and the test
access port. A takeover that was under way stands (20_faults.md R545). -/
def blank (s : State) : State :=
  let s := s.takingOver.foldl (fun s e => takeOver e.1 e.2.1 s) s
  let m := freshMgmt s
  { pending := s.pending, time := s.time, sent := s.sent, freeCtr := s.freeCtr
    clk := { aGood := s.clk.aGood, bGood := s.clk.bGood, source := s.clk.source, aOffset := s.clk.aOffset, bOffset := s.clk.bOffset }
    hal := { mgmt := m, mirror := m, flash := s.hal.flash, savedCal := s.hal.savedCal }
    pwr := { s.pwr with stage := 0, state := 0, entering := false, exitAfter := false, links := [], flrs := [] }
    tap := s.tap, spareMap := s.spareMap, retiredBench := s.retiredBench, takeovers := s.takeovers }

/-! Power-up and power-down (22_module.md R591 to R593). -/

/-- The functional rails turn off. An image being written to the inactive bank is left incomplete (R592). -/
def railsOff (s : State) : State :=
  let t := blank (closeBypass s)
  { t with
    pwr := { t.pwr with rails := .off, powerGood := false, offHold := true }
    hal := { t.hal with flash := { t.hal.flash with image := [] } } }

/-- The rails turn on when PWR_EN, VIN and the protections allow it; PWR_GOOD is released, and the cold start begins. -/
def powerUp (s : State) : State :=
  if s.pwr.pwrEn && s.pwr.vinStable && !s.pwr.offHold && !s.pwr.tripped && s.pwr.rails == .off then
    { s with pwr := { s.pwr with rails := .on, powerGood := true, stage := 1 } }
  else s

/-- A trip runs the power-down and records its cause. -/
def trip (cause : Nat) (s : State) : State :=
  if s.pwr.rails != .on then s
  else
    let t := dsetNum (railsOff s) .powerLastOff 0 0 1 cause
    { t with pwr := { t.pwr with tripped := true } }

/-- VIN below 37.0 V for 200 µs. -/
def underVoltage (mv heldUs : Nat) (s : State) : State :=
  if mv < 37000 && 200 ≤ heldUs then trip 1 { s with pwr := { s.pwr with vinMv := mv, vinStable := false } } else s

/-- VIN above 63.0 V for 100 µs. -/
def overVoltage (mv heldUs : Nat) (s : State) : State :=
  if 63000 < mv && 100 ≤ heldUs then trip 2 { s with pwr := { s.pwr with vinMv := mv, vinStable := false } } else s

/-- Input current above 90 A for 1 ms. -/
def overCurrent (ma heldUs : Nat) (s : State) : State := if 90000 < ma && 1000 ≤ heldUs then trip 3 s else s

/-- VIN is applied: it counts for the power-up once it has lain in 40 to 60 V for 10 ms. -/
def vinComes (mv : Nat) (s : State) : State :=
  powerUp { s with pwr := { s.pwr with vinMv := mv, vinStable := 40000 ≤ mv && mv ≤ 60000 } }

def pwrEnRises (s : State) : State := powerUp { s with pwr := { s.pwr with pwrEn := true } }

/-- PWR_EN is deasserted: the power-down, whose cause a thermal trip has already recorded; it re-arms the power-up after a trip. -/
def pwrEnFalls (s : State) : State :=
  let s := { s with pwr := { s.pwr with pwrEn := false, tripped := false } }
  match s.pwr.rails with
  | .on => dsetNum (railsOff s) .powerLastOff 0 0 1 0
  | .halyard => railsOff s
  | .off => s

/-- The 100 ms after a power-down end. -/
def holdEnds (s : State) : State := powerUp { s with pwr := { s.pwr with offHold := false } }

/-- A sensor's report. -/
def noteSensor (s : State) (site : ThermalSite) (mc : Nat) : State :=
  match site with
  | .panel p => { s with pwr := { s.pwr with panelMc := upsert (·.1 == p) (p, mc) s.pwr.panelMc } }
  | .hbm k => { s with pwr := { s.pwr with hbmMc := upsert (·.1 == k) (k, mc) s.pwr.hbmMc } }

/-- A panel at 115 °C or a stack at 105 °C for 1 ms: every rail but the Halyard die's turns off (22_module.md R607). -/
def overheats (site : ThermalSite) (mc heldUs : Nat) (s : State) : State :=
  let s := noteSensor s site mc
  let limit := match site with | .panel _ => 115000 | .hbm _ => 105000
  if mc < limit || heldUs < 1000 || s.pwr.rails != .on then s
  else
    let t := blank (closeBypass s)
    let t := { t with
      regs := s.regs.filter fun e => (match regOf e.1 with | some a => a.loc == .halyard | none => false)
      hal := s.hal
      pwr := { t.pwr with rails := .halyard, powerGood := false, tripped := true, stage := 8 } }
    postFault (dsetNum t .powerLastOff 0 0 1 4) { cls := 0x10 }

/-- MOD_ALERT_N asserted (22_module.md R601): the newest record of SEVERITY SERVICE is held, and is not acknowledged. -/
def modAlert (s : State) : Bool :=
  s.pwr.stage == 7 || s.pwr.stage == 8 || (s.hal.outA && s.hal.outB) ||
    (s.hal.ackSeq != s.hal.serviceSeq && s.hal.faults.any (·.seq == s.hal.serviceSeq))

/-! Retain (R576 to R579; 22_module.md R600). -/

/-- Entry starts from run. -/
def enterRetain (s : State) : State :=
  if awake s then { s with pwr := { s.pwr with state := 1, entering := true, exitAfter := false } } else s

/-- Exit starts, or follows the entry under way. -/
def leaveRetain (s : State) : State :=
  if s.pwr.state == 2 then { s with pwr := { s.pwr with state := 1, entering := false, exitAfter := false } }
  else if s.pwr.state == 1 && s.pwr.entering then { s with pwr := { s.pwr with exitAfter := true } }
  else s

def portsDown (s : State) : State :=
  { s with fab := { s.fab with ports := s.fab.ports.map fun v => { v with state := 0, nbrValid := false, mgr := none } } }

/-- Entry completes: the fabric ports are DOWN; an exit that was asked for meanwhile starts. -/
def retainEntered (s : State) : State :=
  if s.pwr.state != 1 || !s.pwr.entering then s
  else
    let t := portsDown s
    capNote s { t with pwr := { t.pwr with state := if s.pwr.exitAfter then 1 else 2, entering := false, exitAfter := false } }

/-- The time limits of a held MI apply at exit. -/
def lateLimit (s : State) (f : Flight) : State :=
  if f.deadline == 0 || s.time < f.deadline then s
  else
    match miOpcode f.word with
    | 0x40 => whileRunning f.mi (waitTimeoutStep f.mi) s
    | 0x42 => whileRunning f.mi (barrierTimeoutStep f.mi) s
    | 0x20 | 0x21 => collTimeoutStep f.mi s
    | _ => s

/-- The liveness limits of a lease apply at exit. -/
def lateLease (s : State) (l : Lease) : State :=
  let limit := gnum s .lendLiveness * (match l.side with | .borrower => 1 | .lender => 2)
  if l.alive + limit ≤ s.time then livenessExpires l.side l.slot s else s

/-- Links whose PERST is deasserted train. -/
def linksTrain (s : State) : State :=
  { s with pwr := { s.pwr with links := [0, 1].filter fun l => !(s.pwr.perst.contains l) } }

/-- Exit completes; FORCE_RETAIN_N still asserted enters retain again. -/
def retainLeft (s : State) : State :=
  if s.pwr.state != 1 || s.pwr.entering then s
  else
    let s := linksTrain { s with pwr := { s.pwr with state := 0 } }
    let s := s.jig.flights.foldl lateLimit s
    let s := s.fab.leases.foldl lateLease s
    if s.pwr.forceRetain then enterRetain s else s

/-- FORCE_RETAIN_N asserted: entry at once when READY, else once READY is reached. -/
def forceRises (s : State) : State := enterRetain { s with pwr := { s.pwr with forceRetain := true } }

/-- FORCE_RETAIN_N deasserted. -/
def forceFalls (s : State) : State :=
  if s.pwr.forceRetain then leaveRetain { s with pwr := { s.pwr with forceRetain := false } } else s

/-! PCIe links (R581). -/

def fnLink : Src → Option Nat
  | .pf l => some l
  | .vf l _ => some l
  | .halyard => none

/-- PERSTn_N asserted: the link and its functions reset, partitions go on. -/
def perstRises (l : Nat) (s : State) : State :=
  if 2 ≤ l then s
  else
    { s with
      pwr := { s.pwr with
        perst := insertNat s.pwr.perst l, links := s.pwr.links.filter (· != l), flrs := s.pwr.flrs.filter (·.1 != l) }
      hal := { s.hal with mailbox := s.hal.mailbox.filter fun m => fnLink m.1 != some l } }

/-- PERSTn_N deasserted: the link trains from LINKS on, and after retain. -/
def perstFalls (l : Nat) (s : State) : State :=
  if 2 ≤ l then s
  else
    let s := { s with pwr := { s.pwr with perst := s.pwr.perst.filter (· != l) } }
    if 4 ≤ s.pwr.stage && s.pwr.stage ≤ 6 && s.pwr.state == 0 then
      { s with pwr := { s.pwr with links := insertNat s.pwr.links l } }
    else s

/-! Resets (R580). -/

/-- The COLD reset: the cold start follows. -/
def coldReset (s : State) : State :=
  let t := blank (closeBypass s)
  { t with pwr := { t.pwr with stage := 1 } }

/-- Does a context index stay assigned through a WARM reset: only where the reset leaves its PARTITION field (R494)? -/
def staysAssigned (off : Nat) : Bool :=
  match (regOf off).bind ctxHolder with
  | some (h, hi, lo) => !((regFields h.id).any fun f => f.hi == hi && f.lo == lo && resetsOn .warm f.kind)
  | none => false

/-- Every partition in use becomes STOPPED. -/
def stopAll (s : State) : State :=
  (knownParts s).foldl (fun s q => if pnum s .partitionState q == 0 then s else dsetNum s .partitionState 0 q 1 1) s

/-- The WARM reset: registers of kinds P and W, and all work in flight. DRAM, drawers and sideboards keep their content, partitions
their resources and keys; lent leases end. -/
def warmReset (s : State) : State :=
  let s := closeBypass s
  let s := (List.range 64).foldl (fun s k => if leaseOn (lentState s k) then lentOver s k else s) s
  let s := ownSlices (resetRegs (stopAll s) .warm fun _ => true)
  let s := { s with
    jig := { nextMi := s.jig.nextMi }, cache := {}, kv := {}, mit := {}, med := {}, retention := []
    mmu := { s.mmu with tlb := [], inval := none, saved := [], assigned := s.mmu.assigned.filter fun x => staysAssigned x.1 }
    fab := { s.fab with requests := [], backlog := [], txFlows := [], jobs := [], arrived := [], asks := [], served := [], flows := []
                        reseq := [] }
    dram := { s.dram with held := [], writeBack := [] }
    pwr := { s.pwr with state := 0, entering := false, exitAfter := false } }
  if s.pwr.forceRetain then enterRetain s else s

/-! Cold start (R582 to R584). -/

/-- A bench fails its self-test: a spare takes its place at once, since no drawer holds data yet; a spare is retired. -/
def selfTestFails (s : State) (x : Nat × Nat) : State :=
  match benchState s x.1 x.2 with
  | 3 => s
  | 1 => { s with retiredBench := s.retiredBench ++ [x] }
  | _ =>
    let t := failBench s x.1 x.2 4
    t.takingOver.foldl (fun s e => takeOver e.1 e.2.1 s) t

/-- Stored user calibration: a value outside the firmware's limit is discarded with a record (19_dictionary.md R516). -/
def restoreCal (s : State) (bad : List (Nat × Nat)) : State :=
  let wrong (o : ObjAddr) : Bool := bad.contains (objectName o)
  let lost := s.hal.savedCal.filter fun e => wrong e.1
  let kept := s.hal.savedCal.filter fun e => !(wrong e.1)
  let s := lost.foldl (fun s _ => postFault s { cls := 0x0C }) { s with hal := { s.hal with savedCal := kept } }
  kept.foldl (fun s e => dset s e.1 e.2) s

/-- The image: the active bank's, else the other bank's, whose version words the spec leaves open (log entry 11). -/
def bootImage (s : State) (b : BootReport) : Option State :=
  if b.activeOk then some s
  else if b.otherOk then
    let (v, s) := fresh s 582
    let (w, s) := fresh s 583
    some { s with hal := { s.hal with flash := { s.hal.flash with
      bank := 1 - s.hal.flash.bank, otherValid := false, version := some (leBytes 4 v), security := w % 256 } } }
  else none

/-- Training of a whole stack or LPDDR5X group fails: the start ends at MEMORY, with a record. -/
def memoryFails (s : State) (b : BootReport) : State :=
  let s := b.failedStacks.foldl (fun s k => postFault s { cls := 2, sev := 4, die := 5, unit := k }) s
  let s := b.failedGroups.foldl (fun s g => postFault s { cls := 2, sev := 4, die := 6, unit := 4 * g }) s
  { s with pwr := { s.pwr with stage := 3 } }

/-- The cold start, from PWR_GOOD to READY, FAILED or MEMORY. -/
def coldStarts (b : BootReport) (s : State) : State :=
  if s.pwr.stage != 1 || s.pwr.rails != .on then s
  else
    match bootImage s b with
    | none => { s with pwr := { s.pwr with stage := 7 } }
    | some s =>
      let s := b.failedBenches.foldl selfTestFails s
      let s := b.failedChannels.foldl (fun s c => retireChannel s c.1 c.2 true) s
      if !b.failedStacks.isEmpty || !b.failedGroups.isEmpty then memoryFails s b
      else
        let s := restoreCal s b.badCal
        let n := s.freeCtr
        let s := { s with freeCtr := n + 1, dram := { s.dram with lendDraw := n }, pwr := { s.pwr with stage := 6 } }
        let s := { linksTrain s with hal := { s.hal with mirror := s.hal.mgmt } }
        if s.pwr.forceRetain then enterRetain s else s

/-! The meanings. -/

def execThermalTrip (site : ThermalSite) (mc heldUs : Nat) (s : State) : Result := .next (overheats site mc heldUs s)
def execUvlo (mv heldUs : Nat) (s : State) : Result := .next (underVoltage mv heldUs s)
def execOvp (mv heldUs : Nat) (s : State) : Result := .next (overVoltage mv heldUs s)
def execOcp (ma heldUs : Nat) (s : State) : Result := .next (overCurrent ma heldUs s)
def execVinApplied (mv : Nat) (s : State) : Result := .next (vinComes mv s)
def execPwrEnAssert (s : State) : Result := .next (pwrEnRises s)
def execPwrEnDeassert (s : State) : Result := .next (pwrEnFalls s)
def execPowerOffHoldEnd (s : State) : Result := .next (holdEnds s)
def execColdStart (b : BootReport) (s : State) : Result := .next (coldStarts b s)
def execForceRetainAssert (s : State) : Result := .next (forceRises s)
def execForceRetainDeassert (s : State) : Result := .next (forceFalls s)
def execPerstAssert (lnk : Nat) (s : State) : Result := .next (perstRises lnk s)
def execPerstDeassert (lnk : Nat) (s : State) : Result := .next (perstFalls lnk s)
def execRetainEntryDone (s : State) : Result := .next (retainEntered s)
def execRetainExitDone (s : State) : Result := .next (retainLeft s)

end Sys2Proof.Machine
end

