-- ==== Sys2Proof/Machine/Commit.lean ====
section
/-!
DEFINITION. Staging and commit (19_dictionary.md R517 to R524): the check with the rules of every chapter that owns an object
(18_partitions.md R489 to R491, R501, R506; 15_azoer.md R421, R426, R434; 05_macro_instructions.md R164; 11_drawers_tiers.md R321;
20_faults.md R546, R613), and the tick.
-/
namespace Sys2Proof.Machine

/-! The state that a set of staged values leads to. -/

def putAll (l : List (ObjAddr × List Nat)) (vs : List (ObjAddr × List Nat)) : List (ObjAddr × List Nat) :=
  vs.foldl (fun l e => upsert (fun x => x.1 == e.1) e l) l

/-- The active values once the staged ones are in force. -/
def merged (s : State) : State :=
  { s with hal := { s.hal with mgmt := { s.hal.mgmt with dict := putAll s.hal.mgmt.dict s.hal.mgmt.staged } } }

/-- Is the standby core in service (20_faults.md R553)? -/
def standbyOk (s : State) : Bool := !s.hal.outA && !s.hal.outB

/-- With no standby core a change takes effect without an acknowledgement. -/
def settle (s : State) : State :=
  if standbyOk s then s else { s with hal := { s.hal with mirror := s.hal.mgmt } }

/-! Ranges of frames: first frame and count. -/

/-- What is left of one range after another is taken away. -/
def rangeMinus (a b : Nat × Nat) : List (Nat × Nat) :=
  let e := a.1 + a.2
  let f := b.1 + b.2
  (if a.1 < min e b.1 then [(a.1, min e b.1 - a.1)] else []) ++ (if max a.1 f < e then [(max a.1 f, e - max a.1 f)] else [])

def rangesMinus (as bs : List (Nat × Nat)) : List (Nat × Nat) :=
  bs.foldl (fun as b => as.flatMap fun a => rangeMinus a b) (as.filter (·.2 != 0))

def rangesTouch (as bs : List (Nat × Nat)) : Bool := as.any fun a => bs.any fun b => rangesMeet a.1 a.2 b.1 b.2

/-- The frames that a byte range of T2 or T3 touches. -/
def framesOf (a n : Nat) : List (Nat × Nat) :=
  match frameOf a with
  | some f => if n == 0 then [] else [(f, (a + n - 1) / 0x200000 + 1 - a / 0x200000)]
  | none => []

/-! What partitions own, as bits. -/

def pairBits (s : State) (q : Nat) : Nat := pnum s .partitionBenches q
def sliceBits (s : State) (q : Nat) : Nat := pnum s .partitionSlices q
/-- Bits of `a` that are not in `b`. -/
def bitsMinus (a b : Nat) : Nat := a - Nat.land a b
def groupOf (s : State) (q : Nat) : Nat := pnum s .partitionTsliceGroup q

/-! Consistency rules over the merged state `t`. -/

/-- Two partitions claim one bench pair, and share no time-slice group. -/
def benchClash (t : State) (q : Nat) : Bool :=
  (knownParts t).any fun r => r != q && Nat.land (pairBits t q) (pairBits t r) != 0 && (groupOf t q == 0 || groupOf t q != groupOf t r)

def sliceClash (t : State) (q : Nat) : Bool := (knownParts t).any fun r => r != q && Nat.land (sliceBits t q) (sliceBits t r) != 0

def frameClash (t : State) (q : Nat) : Bool :=
  (knownParts t).any fun r => r != q && rangesTouch (frameRanges t q) (frameRanges t r)

/-- The save area of a member lies wholly in slices that it owns on every shared panel (R501). -/
def saveFits (t : State) (q : Nat) : Bool :=
  let k := pnum t .partitionTsliceSaveSbd q
  k == 0xFFFF || (List.range 16).all fun p =>
    let n := (benchesOf t q p).length
    n == 0 || (let a := k * 0x10000
               let z := n * 0x400000 + 0x10000
               decide (a + z ≤ 0x40000000) && (List.range ((a + z - 1) / 0x4000000 - a / 0x4000000 + 1)).all fun i =>
                 bit (sliceBits t q) (16 * p + a / 0x4000000 + i))

/-- A time-slice group whose members differ in benches or quantum, or whose save areas do not fit (R501). -/
def groupClash (t : State) (q : Nat) : Bool :=
  let g := groupOf t q
  g != 0 && ((knownParts t).any fun r => r != q && groupOf t r == g &&
    (pairBits t r != pairBits t q || pnum t .partitionTsliceQuantum r != pnum t .partitionTsliceQuantum q)) || (g != 0 && !(saveFits t q))

/-- The receive-buffer reservations of R506 reach a port's 4,096 flits (R489). -/
def weightClash (t : State) : Bool :=
  let n := ((knownParts t).filter fun q => pnum t .partitionFabricWeight q != 0).length
  4096 ≤ 17 * n + 16 + 256 * gnum t .fabSchedEnable

/-- A RUNNING partition's root that does not lie in a T2 frame without an owner (R490). -/
def rootClash (t : State) (q : Nat) : Bool :=
  pnum t .partitionState q == 2 &&
  !(match regionOf (pnum t .partitionMmuRoot q), frameOf (pnum t .partitionMmuRoot q) with
    | .hbm, some f => (frameOwner t f).isNone
    | _, _ => false)

/-- A VF bound to two partitions (R492). -/
def vfClash (t : State) (q : Nat) : Bool :=
  (knownParts t).any fun r => r != q && [0, 1].any fun l => partVf t q l != 0 && partVf t q l == partVf t r l

/-- The panel that a tick sets as a partition's sync home; none where it leaves it (R164). `t` holds the state after the tick. -/
def nextHome (t : State) (q : Nat) : Option Nat :=
  if pnum t .partitionState q == 1 then (List.range 16).find? fun p => !(benchesOf t q p).isEmpty else none

/-- Enabled ring and salvage contexts of a partition on a panel. -/
def homeRings (s : State) (q p : Nat) : List Nat :=
  (List.range 64).filter fun c => let v := rget s (panelReg .jigErbase p c); bit v 0 && bits v 11 4 == q
def homeSalv (s : State) (q p : Nat) : List Nat :=
  (List.range 16).filter fun n => let v := rget s (panelReg .jigSalv p n); bit v 0 && bits v 15 8 == q

/-- STOPPED with MIs in flight reads DRAINING (R491). -/
def drainState (s : State) (q : Nat) : State :=
  if pnum s .partitionState q == 1 && s.jig.flights.any (·.part == q) then dsetNum s .partitionState 0 q 1 3 else s

/-- The move of a partition's sync home that a tick makes: from which panel, to which (R164). A home that the tick sets for the first
time after FREE moves nothing: contexts that still name the partition stay, enabled, where they are (log entry 145). -/
def homeMove (s t : State) (q : Nat) : Option (Nat × Nat) :=
  match nextHome t q, syncHome s q with
  | some p, some o => if p == o then none else some (o, p)
  | _, _ => none

/-- A move of the sync home meets a context of the same number that serves another partition on the new panel, or that another
partition's move at the same tick brings there (R164). -/
def homeClash (s t : State) (q : Nat) : Bool :=
  match homeMove s t q with
  | none => false
  | some (o, p) =>
    let rivals := (knownParts t).filterMap fun r => if r == q then none else
      match homeMove s t r with
      | some (o', p') => if p' == p then some (r, o') else none
      | none => none
    (homeRings s q o).any (fun c =>
        (let v := rget s (panelReg .jigErbase p c); bit v 0 && bits v 11 4 != q) || rivals.any fun r => (homeRings s r.1 r.2).contains c) ||
      (homeSalv s q o).any fun n =>
        (let v := rget s (panelReg .jigSalv p n); bit v 0 && bits v 15 8 != q) || rivals.any fun r => (homeSalv s r.1 r.2).contains n

/-- The move of a partition none of whose own objects is staged meets such a context: it became STOPPED since the last tick, and every
tick moves it. -/
def strayClash (s t : State) : Bool :=
  (knownParts t).any fun q => homeClash s t q &&
    !(s.hal.mgmt.staged.any fun e => e.1.part == q && (e.1.id == .partitionBenches || e.1.id == .partitionState))

/-- The spare pool, the lendable range and the fault ring as frames. -/
def poolFrames (t : State) : List (Nat × Nat) := [(poolFirst t, gnum t .memHbmSpareFrames)]
def lendFrames (t : State) : List (Nat × Nat) := framesOf (gnum t .lendBase) (gnum t .lendSize)
def ringFrames (t : State) : List (Nat × Nat) :=
  if gnum t .faultRing == 0 then [] else framesOf (gnum t .faultRing) (faultRingBytes (gnum t .faultRingLog2))

/-- Frames that no partition may be granted. -/
def reservedClash (t : State) (q : Nat) : Bool :=
  rangesTouch (frameRanges t q) (poolFrames t ++ lendFrames t ++ ringFrames t)

/-- Is some lease lent? -/
def lending (s : State) : Bool := (List.range 64).any fun k => leaseOn (lentState s k)

/-- The lendable range leaves T2 and T3, meets a partition's frames or the pool, or is shrunk or moved while a lease is lent
(R321). -/
def lendClash (s t : State) : Bool :=
  let b := gnum t .lendBase
  let n := gnum t .lendSize
  n != 0 && (!(match accessRegion b n with | .hbm | .lpddr => true | _ => false) ||
    rangesTouch (lendFrames t) (poolFrames t) || (knownParts t).any fun q => rangesTouch (lendFrames t) (frameRanges t q)) ||
  (lending s && (b != gnum s .lendBase || n < gnum s .lendSize))

/-- The frames that a scrub covers (R328, R491). -/
def scrubFramesOf (s : State) (x : Scrub) : List (Nat × Nat) :=
  match x.kind with
  | .frames => [(x.first, x.count)]
  | .lent => framesOf (dnum s .lentBase x.first 0) (dnum s .lentSize x.first 0)
  | .pair | .slice => []

/-- Frames under scrub. -/
def scrubbing (s : State) : List (Nat × Nat) := s.mmu.scrubs.flatMap (scrubFramesOf s)

/-- Does a change of the lendable range give up frames whose scrub is under way (R328)? -/
def lendScrubbed (s t : State) : Bool :=
  rangesTouch (rangesMinus (lendFrames s) (lendFrames t)) (scrubbing s)

/-- The pool meets a partition's frames or the lendable range, or falls below 800 frames for each retirement (20_faults.md R546). -/
def poolClash (s t : State) : Bool :=
  gnum t .memHbmSpareFrames < 800 * s.dram.retired.length || rangesTouch (poolFrames t) (lendFrames t) ||
  (knownParts t).any fun q => rangesTouch (poolFrames t) (frameRanges t q)

/-- A port of a dimension or frame that a non-zero width needs (15_azoer.md R434). -/
def dimPortsOk (t : State) : Bool :=
  let ports := dget t { id := .fabDimPorts }
  let named (p : Nat) : Bool := p < 12
  (gnum t .fabDimW0 == 0 || (named (ports.getD 0 0xFF) && named (ports.getD 1 0xFF))) &&
  (gnum t .fabDimW1 == 0 || (named (ports.getD 2 0xFF) && named (ports.getD 3 0xFF)))

/-- Frame ports: every other position that POS_BITS admits needs one while the device has an address. -/
def framePortsOk (t : State) : Bool :=
  let n := 2 ^ gnum t .fabDimPosBits
  gnum t .fabDimPosBits == 0 || gnum t .fabAddress == 0xFFFF ||
  (List.range n).all fun k => k == gnum t .fabAddress % n || (dget t { id := .fabDimFramePorts }).getD k 0xFF < 12

def widthClash (t : State) : Bool := 16 < gnum t .fabDimPosBits + gnum t .fabDimW0 + gnum t .fabDimW1

/-- A block holds an entry 0xF. -/
def routeBad (t : State) (b : Nat) : Bool :=
  (dget t { id := .fabRouteBlockB, i := b }).any fun x => x % 16 == 15 || x / 16 == 15

/-- The entry of the device's own address is not 0xC. -/
def ownRouteBad (t : State) : Bool := gnum t .fabAddress != 0xFFFF && routeEntry t (gnum t .fabAddress) != 0xC

/-- A schedule breaks R426. -/
def schedClash (t : State) : Bool :=
  let l := gnum t .fabSchedSlotLen
  let g := gnum t .fabSchedGuard
  let n := gnum t .fabSchedPeriod
  !(1 ≤ l && l ≤ 64 && 20 ≤ g && g ≤ 2000 && g % 2 == 0 && 4 * g ≤ 1000 * l && 1 ≤ n && n ≤ 256 &&
    gnum t .fabSchedOrigin % (1000 * l) == 0)

/-- A map sets a bit at or beyond N. -/
def mapClash (t : State) (p : Nat) : Bool :=
  2 ^ gnum t .fabSchedPeriod ≤ leVal (dget t { id := .fabSchedMapP, i := p })

/-- Does a staged object fail a consistency rule (reason 1)? A move of another partition's home fails any set (log entry 145). -/
def conflicts (s t : State) (o : ObjAddr) : Bool :=
  let q := o.part
  let t := (knownParts t).foldl drainState t
  strayClash s t ||
  match o.id with
  | .partitionBenches => benchClash t q || groupClash t q || homeClash s t q
  | .partitionSlices => sliceClash t q || groupClash t q
  | .partitionFrames => frameClash t q || reservedClash t q || (knownParts t).any (rootClash t)
  | .partitionMemShare => 256 < ((knownParts t).map (pnum t .partitionMemShare)).sum
  | .partitionFabricWeight => weightClash t
  | .partitionMmuRoot => rootClash t q
  | .partitionState => rootClash t q || homeClash s t q
  | .partitionVfs => vfClash t q
  | .partitionTsliceGroup | .partitionTsliceQuantum => groupClash t q || benchClash t q
  | .partitionTsliceSave | .partitionTsliceSaveSbd => groupClash t q
  | .lendEnable | .lendBase | .lendSize => lendClash s t
  | .memHbmSpareFrames => poolClash s t
  | .fabRouteBlockB => routeBad t o.i || ownRouteBad t
  | .fabAddress => ownRouteBad t || !(framePortsOk t)
  | .fabDimPosBits | .fabDimFramePorts => widthClash t || !(framePortsOk t)
  | .fabDimW0 | .fabDimW1 | .fabDimPorts => widthClash t || !(dimPortsOk t)
  | .fabSchedEnable => schedClash t || weightClash t
  | .fabSchedSlotLen | .fabSchedGuard | .fabSchedOrigin => schedClash t
  | .fabSchedPeriod => schedClash t || (List.range 12).any (mapClash t)
  | .fabSchedMapP => mapClash t o.i
  | _ => false

/-- Does a staged object remove a resource of a RUNNING or DRAINING partition, or grant one under scrub, or give up lendable frames
under scrub (reason 2)? -/
def inUse (s t : State) (o : ObjAddr) : Bool :=
  let q := o.part
  let busy := 2 ≤ pnum s .partitionState q
  let scrubbed (kind : ScrubKind) (gained : Nat) : Bool := s.mmu.scrubs.any fun x => x.kind == kind && bit gained x.first
  match o.id with
  | .partitionBenches => (busy && bitsMinus (pairBits s q) (pairBits t q) != 0) || scrubbed .pair (bitsMinus (pairBits t q) (pairBits s q))
  | .partitionSlices =>
    (busy && bitsMinus (sliceBits s q) (sliceBits t q) != 0) || scrubbed .slice (bitsMinus (sliceBits t q) (sliceBits s q))
  | .partitionFrames =>
    (busy && !(rangesMinus (frameRanges s q) (frameRanges t q)).isEmpty) ||
    rangesTouch (rangesMinus (frameRanges t q) (frameRanges s q)) (scrubbing s)
  | .lendBase | .lendSize => lendScrubbed s t
  | .partitionVfs => busy && [0, 1].any fun l => partVf s q l != 0 && partVf s q l != partVf t q l
  | .partitionFabricWeight => busy && pnum s .partitionFabricWeight q != 0 && pnum t .partitionFabricWeight q == 0
  | _ => false

/-! The check. -/

/-- commit.detail for an object and a reason. -/
def commitDetail (o : ObjAddr) (reason : Nat) : Nat := let n := objectName o; n.1 + n.2 * 2 ^ 16 + reason * 2 ^ 24

/-- The first reason that applies, as commit.detail; none when the check passes (R521). -/
def checkResult (s : State) (c : CommitReq) : Option Nat :=
  let t := merged s
  let os := s.hal.mgmt.staged.map (·.1)
  match os.find? (conflicts s t) with
  | some o => some (commitDetail o 1)
  | none =>
    match os.find? (inUse s t) with
    | some o => some (commitDetail o 2)
    | none =>
      if c.tick != 0 && (c.tick < s.time + 100000 || s.time + 60000000000 < c.tick) then some (commitDetail { id := .commitTick } 3)
      else none

def setCommit (s : State) (c : Option CommitReq) : State :=
  { s with hal := { s.hal with mgmt := { s.hal.mgmt with commit := c } } }

/-- The check completes. A commit that passes is armed once the epoch that records it is acknowledged, or at once where there is no
standby (20_faults.md R553). -/
def checkDone (s : State) : State :=
  match s.hal.mgmt.commit with
  | none => s
  | some c =>
    if c.pending then s
    else
      match checkResult s c with
      | some d => settle (dsetNum (dsetNum (setCommit s none) .commitOutcome 0 0 1 4) .commitDetail 0 0 4 d)
      | none =>
        let tick := if c.tick == 0 then s.time + 100000 else c.tick
        settle (dsetNum (setCommit s (some { c with pending := true, at' := tick, armed := !(standbyOk s) })) .commitOutcome 0 0 1 2)

/-! The tick. -/

/-- A partition becomes FREE: the reset, and the end of its keys, its sync home and its time-slice state (R491, R164). -/
def freePartition (s : State) (q : Nat) : State :=
  let s := resetPartition s q
  dsetNum { s with mmu := { s.mmu with
      keys := s.mmu.keys.filter (·.part != q), saved := s.mmu.saved.filter (·.1 != q) } } .partitionSyncHome 0 q 1 0xFF

/-- A partition is created: its mask set is drawn (12_hbm_lpddr.md R341). -/
def drawMask (s : State) (q : Nat) : State :=
  let n := s.freeCtr
  { s with freeCtr := n + 1, dram := { s.dram with masks := upsert (·.1 == q) (q, n) s.dram.masks } }

/-- Partitions whose state the set changes to FREE, or away from it. -/
def freed (s t : State) : List Nat :=
  (knownParts t).filter fun q => pnum s .partitionState q != 0 && pnum t .partitionState q == 0
def created (s t : State) : List Nat :=
  (knownParts t).filter fun q => pnum s .partitionState q == 0 && pnum t .partitionState q != 0

/-- Registers of a bench pair return to their reset values (R491). -/
def clearPair (s : State) (i : Nat) : State :=
  let p := i / 16
  let bs := [i % 16 * 2, i % 16 * 2 + 1].filterMap (physOf s p)
  resetRegs s .part fun a => (match a.loc with | .bench x b => x == p && bs.contains b | _ => false)

/-- Does a context of a sideboard area lie in a slice? -/
def areaIn (s : State) (i : Nat) (a : RegAddr) : Bool :=
  a.loc == .panel (i / 16) &&
  (match a.id with
   | .cenCtx | .ldgCtx | .jigRetcfg => bits (rget s a) 45 32 / 1024 == i % 16
   | .sbdCcfg => bits (rget s a) 29 16 / 1024 == i % 16
   | _ => false)

/-- Contexts in a slice return to their reset values. -/
def clearSlice (s : State) (i : Nat) : State :=
  let mine := areaIn s i
  resetRegs (dropContextState s fun a => mine a) .part mine

/-- A partition's removed resources are scrubbed and their contexts cleared. A pair that another member of its group keeps is not
removed. -/
def dropResources (s0 : State) (s : State) (q : Nat) : State :=
  let others := (knownParts s).foldl (fun m r => if r != q && groupOf s0 q != 0 && groupOf s r == groupOf s0 q
    then Nat.lor m (pairBits s r) else m) 0
  let pairs := setPositions 256 (bitsMinus (bitsMinus (pairBits s0 q) (pairBits s q)) others)
  let slices := setPositions 256 (bitsMinus (sliceBits s0 q) (sliceBits s q))
  let s := pairs.foldl (fun s i => beginScrub (clearPair s i) .pair i 1) s
  let s := slices.foldl (fun s i => beginScrub (clearSlice s i) .slice i 1) s
  (rangesMinus (frameRanges s0 q) (frameRanges s q)).foldl (fun s r => beginScrub s .frames r.1 r.2) s

/-- SBD_SLICEk of the slices that a partition loses and gains. -/
def moveSlices (s0 s : State) (q : Nat) : State :=
  (setPositions 256 (bitsMinus (sliceBits s q) (sliceBits s0 q))).foldl
    (fun s i => rset s (panelReg .sbdSlice (i / 16) (i % 16)) (1 + q * 256)) s
def dropSlices (s0 s : State) (q : Nat) : State :=
  (setPositions 256 (bitsMinus (sliceBits s0 q) (sliceBits s q))).foldl
    (fun s i => rset s (panelReg .sbdSlice (i / 16) (i % 16)) 0) s

/-- Does the tick drop a partition's translations (R498)? -/
def losesPages (s0 s : State) (q : Nat) : Bool :=
  pnum s0 .partitionMmuRoot q != pnum s .partitionMmuRoot q || bitsMinus (sliceBits s0 q) (sliceBits s q) != 0 ||
  !(rangesMinus (frameRanges s0 q) (frameRanges s q)).isEmpty

/-- Move the contexts of one number from a panel to another. -/
def moveRegs (s : State) (ids : List RegId) (p p' i : Nat) : State :=
  ids.foldl (fun s id =>
    let v := rget s (panelReg id p i)
    rset (rset s (panelReg id p' i) v) (panelReg id p i) (if id == .jigErbase || id == .jigSalv then setBits v 0 0 0 else v)) s

/-- An index that serves a partition on the new panel is assigned to it as on the old one (R494). -/
def moveAssigned (s : State) (id : RegId) (p p' i : Nat) : State :=
  match s.mmu.assigned.find? (·.1 == regOffset (panelReg id p i)) with
  | some x => { s with mmu := { s.mmu with assigned := sortedPut s.mmu.assigned (regOffset (panelReg id p' i)) x.2 true } }
  | none => s

/-- The sync home panel is set, and the ring and salvage contexts move with it (R164). A move that meets a context enabled since the
check does not take place (log entry 145). -/
def moveHome (s : State) (q : Nat) : State :=
  match nextHome s q with
  | none => s
  | some p =>
    if syncHome s q == some p || homeClash s s q then s
    else
      let t := dsetNum s .partitionSyncHome 0 q 1 p
      match syncHome s q with
      | none => t
      | some o =>
        let t := (homeRings s q o).foldl (fun t c =>
          moveAssigned (setRing (moveRegs t [.jigErbase, .jigErptr] o p c) { ringState s o c with panel := p }) .jigErbase o p c) t
        (homeSalv s q o).foldl (fun t n => moveAssigned (moveRegs t [.jigSalv, .jigSalvb] o p n) .jigSalv o p n) t

/-- The routing tables swap, and the new active table is copied into the shadow (15_azoer.md R421). -/
def swapRoutes (s : State) : State :=
  let s := [0, 1, 2, 3].foldl (fun s e => rbump s (edgeReg .azfRtctl e 0) 47 32 1) s
  { s with fab := { s.fab with active := 1 - s.fab.active, copying := true } }

/-- The objects of a schedule. -/
def schedIds : List ObjId := [.fabSchedEnable, .fabSchedSlotLen, .fabSchedGuard, .fabSchedPeriod, .fabSchedOrigin, .fabSchedMapP]

/-- A staged schedule is armed, or scheduled mode ends (R429). -/
def armSchedule (s0 s : State) : State :=
  if !(s0.hal.mgmt.staged.any fun e => schedIds.contains e.1.id) then s
  else if gnum s .fabSchedEnable == 1 then { s with fab := { s.fab with sched := 1 } }
  else
    let s := { s with fab := { s.fab with sched := 0, plan := none, enterAt := none, slotAt := none
                                          ports := s.fab.ports.map fun v => { v with slotOpen := false } } }
    (List.range 12).foldl drainPort s

/-- Frames that the pool gains are filled with the uncorrectable code (20_faults.md R546). -/
def growPool (s0 s : State) : State :=
  let a := poolFirst s
  let b := poolFirst s0
  if b ≤ a then s
  else
    { s with
      dram := { s.dram with
        poolLow := min s.dram.poolLow a
        healed := s.dram.healed.filter fun u => decide (u / 0x200000 < a) || decide (b ≤ u / 0x200000) }
      mem := s.mem.filter fun c => decide (c.1 < a * 0x200000) || decide (b * 0x200000 ≤ c.1) }

/-- The entry of a group in force: a member that leaves it makes way for the lowest, whose state comes back (R501, R502). -/
def regroupOne (s : State) (g : Nat) : State :=
  let put (s : State) (t : TSlice) : State := { s with mmu := { s.mmu with tslice := upsert (·.group == g) t s.mmu.tslice } }
  match groupMembers s g with
  | [] => { s with mmu := { s.mmu with tslice := s.mmu.tslice.filter (·.group != g) } }
  | m :: ms =>
    match s.mmu.tslice.find? (·.group == g) with
    | some t => if (m :: ms).contains t.running then s else put (restoreMember s m) { t with running := m }
    | none => put s { group := g, running := m }

/-- Time-slice groups in force. -/
def regroup (s : State) : State :=
  let gs := ((knownParts s).map (groupOf s) ++ s.mmu.tslice.map (·.group)).eraseDups.filter (· != 0)
  let s := gs.foldl regroupOne s
  { s with mmu := { s.mmu with saved := s.mmu.saved.filter fun e => groupOf s e.1 != 0 } }

/-- User calibration is stored in the boot flash (19_dictionary.md R516). -/
def storeCal (s0 s : State) : State :=
  { s with hal := { s.hal with savedCal := putAll s.hal.savedCal (s0.hal.mgmt.staged.filter fun e => e.1.id == .user) } }

/-- A preferred reference that changes is selected at once when it is good (21_clocks_power.md R562); a device whose
pen.master.enable clears is master no longer (R565); LOCKED takes the boundary instructions away (22_module.md R602). -/
def settleUnits (s0 s : State) : State :=
  let r := prefRef s
  let s := if prefRef s0 != r && refGood s r && s.clk.source != refSource r then switchRef s (refSource r) else s
  let s := if gnum s .penMasterEnable == 0 then { s with pen := { s.pen with master := false } } else s
  if gnum s .debugJtag == 0 && 2 ≤ s.tap.ir then { s with tap := { ir := 0, shift := [] } } else s

/-- Every staged object takes effect. -/
def applyStaged (s0 : State) : State :=
  let s := (freed s0 (merged s0)).foldl freePartition s0
  let s := merged s
  let qs := knownParts s
  let s := (created s0 s).foldl drawMask s
  let s := qs.foldl (dropSlices s0) s
  let s := qs.foldl (moveSlices s0) s
  let s := qs.foldl (dropResources s0) s
  let s := qs.foldl (fun t q => if losesPages s0 s q then dropTlb t q else t) s
  let s := qs.foldl drainState (recheckTlb s)
  let s := qs.foldl moveHome s
  let s := regroup (armSchedule s0 (swapRoutes s))
  capNote s0 (settleUnits s0 (storeCal s0 (growPool s0 (rehash s0 s))))

/-- The staging set empties and the session ends. -/
def endSession (s : State) : State :=
  { s with hal := { s.hal with mgmt := { s.hal.mgmt with staged := [], session := none, commit := none } }
           fab := { s.fab with heldRoutes := [] } }

/-- Global time reaches the tick of an armed commit (log entry 40). -/
def commitTicks (s : State) : State :=
  match s.hal.mgmt.commit with
  | none => s
  | some c =>
    if !c.pending || !c.armed then s
    else
      let s := endSession (applyStaged { s with time := max s.time c.at' })
      settle (dsetNum (dsetNum (dsetNum s .commitSeq 0 0 4 c.n) .commitOutcome 0 0 1 3) .commitAppliedAt 0 0 8 c.at')

/-- 10 s pass without a staged write or a commit request (R517). -/
def sessionExpires (s : State) : State :=
  match s.hal.mgmt.session, s.hal.mgmt.commit with
  | some x, none => settle (endSession { s with time := max s.time (x.last + 10000000000) })
  | _, _ => s

/-! The meanings. -/

def execCommitCheckDone (s : State) : Result := .next (checkDone s)
def execCommitTick (s : State) : Result := .next (commitTicks s)
def execSessionIdleExpiry (s : State) : Result := .next (sessionExpires s)

end Sys2Proof.Machine
end

