-- ==== Sys2Proof/Machine/Cores.lean ====
section
/-!
DEFINITION. The two Halyard cores: mirror epochs, the switchover and its return (20_faults.md R553, R554; 19_dictionary.md R524), the
Halyard's links (01_cabinet.md R18), and updates in service (20_faults.md R556 to R558).
-/
namespace Sys2Proof.Machine

/-! Responses. -/

def mailboxOf (s : State) (fn : Src) : Nat × Nat :=
  ((s.hal.mailbox.find? (·.1 == fn)).map (·.2)).getD (0, 0)

def setMailbox (s : State) (fn : Src) (m : Nat × Nat) : State :=
  { s with hal := { s.hal with mailbox := upsert (fun x => x.1 == fn) (fn, m) s.hal.mailbox } }

/-- A response leaves. In a mailbox the done word takes its REQ_ID, and the function's last vector is raised (19_dictionary.md
R530). -/
def answerLeaves (s : State) (path : MgmtPath) (bytes : List Nat) : State :=
  match path with
  | .mailbox fn =>
    if !(linkUp s fn) then s
    else
      let s := setMailbox (emit s (.mgmt path bytes)) fn ((mailboxOf s fn).1, leAt bytes 4 4)
      (raiseVector s fn (msixVectors fn - 1)).getD s
  | _ => emit s (.mgmt path bytes)

/-- A response waits for the epoch that records its request; with no standby it leaves at once. -/
def respond (s : State) (path : MgmtPath) (bytes : List Nat) : State :=
  if standbyOk s then { s with hal := { s.hal with held := s.hal.held ++ [(s.hal.epoch + 1, path, bytes)] } }
  else answerLeaves (settle s) path bytes

/-! Epochs (R553). -/

/-- The active core closes an epoch, and its copy begins. -/
def epochClose (s : State) : State :=
  if standbyOk s && s.hal.copying.isNone then
    { s with hal := { s.hal with copying := some s.hal.mgmt, epoch := s.hal.epoch + 1 } }
  else s

/-- Units are armed for a commit whose PENDING state an acknowledged epoch records. -/
def armCommit (s : State) (m : Mgmt) : State :=
  match s.hal.mgmt.commit, m.commit with
  | some c, some d => if c.pending && d.pending && c.n == d.n then setCommit s (some { c with armed := true }) else s
  | _, _ => s

/-- The standby acknowledges the epoch: what waited for it is released. -/
def epochAck (s : State) : State :=
  match s.hal.copying with
  | none => s
  | some m =>
    let s := { s with hal := { s.hal with mirror := m, copying := none, acked := s.hal.epoch } }
    let due := s.hal.held.filter fun h => h.1 ≤ s.hal.acked
    let s := { s with hal := { s.hal with held := s.hal.held.filter fun h => !(h.1 ≤ s.hal.acked) } }
    due.foldl (fun s h => answerLeaves s h.2.1 h.2.2) (armCommit s m)

/-- An epoch boundary at which nothing is left open. -/
def flushEpoch (s : State) : State := epochAck (epochClose (epochAck s))

/-! The switchover (R554, R524). -/

/-- Objects that hardware owns: a switchover does not take them back. -/
def hardwareOwned (o : ObjAddr) : Bool :=
  match o.id with
  | .commitOutcome | .commitDetail | .commitAppliedAt => false
  | .partitionState | .leaseState | .lentState | .partitionHashRekey => true
  | id => (objRows.any fun r => r.id == id && r.write.isEmpty)

def dictNum (l : List (ObjAddr × List Nat)) (id : ObjId) : Nat := leVal (objIn l { id := id })
def dictPut (l : List (ObjAddr × List Nat)) (id : ObjId) (n v : Nat) : List (ObjAddr × List Nat) :=
  upsert (fun e => e.1 == { id := id }) ({ id := id }, leBytes n v) l

/-- What the standby resumes from. An armed commit that has reached its tick since the epoch stands applied; one that was accepted
since is LOST. -/
def restored (s : State) : Mgmt :=
  let live := s.hal.mgmt
  let m := s.hal.mirror
  let own := fun (e : ObjAddr × List Nat) => hardwareOwned e.1
  let base := putAll (m.dict.filter fun e => !(own e)) (live.dict.filter own)
  match m.commit with
  | some c =>
    if c.pending && dictNum live.dict .commitSeq == c.n then
      let d := putAll base (m.staged.filter fun e => !(own e))
      let d := dictPut (dictPut (dictPut d .commitSeq 4 c.n) .commitOutcome 1 3) .commitAppliedAt 8 c.at'
      { m with dict := d, staged := [], session := none, commit := none }
    else { m with dict := base, commit := some { c with armed := c.pending } }
  | none =>
    if live.commit.isSome || (dictNum live.dict .commitOutcome == 4 && dictNum m.dict .commitOutcome != 4) then
      { m with dict := dictPut base .commitOutcome 1 5, staged := [], session := none }
    else { m with dict := base }

/-- The answer of a request that the failed core had received (R554): RETRY, DETAIL 0x0E80, RETRY_AFTER 0. -/
def retryOf (bytes : List Nat) : List Nat :=
  bytes.take 2 ++ [0, 0] ++ (bytes.drop 4).take 8 ++ [8, 0] ++ leBytes 2 0x0E80 ++ List.replicate 8 0

/-- The other core becomes the active one. -/
def switchCore (s : State) : State :=
  rbump { s with hal := { s.hal with active := 1 - s.hal.active } } (halReg .halCore) 15 8 1

/-- The active core goes out of service. -/
def activeOut (s : State) : State :=
  if s.hal.active == 0 then { s with hal := { s.hal with outA := true } } else { s with hal := { s.hal with outB := true } }

/-- 100 µs without a heartbeat: the standby takes over; with no standby both cores are out, and every partition faults (R552). -/
def switchover (s : State) : State :=
  if s.hal.outA && s.hal.outB || s.pwr.rails == .off then s
  else if standbyOk s then
    let m := restored s
    let held := s.hal.held
    let s := switchCore (activeOut s)
    let s := { s with hal := { s.hal with mgmt := m, mirror := m, copying := none, epoch := s.hal.acked, held := [] } }
    postFault (held.foldl (fun s h => answerLeaves s h.2.1 (retryOf h.2.2)) s) { cls := 6, die := 4, sub := 1 - s.hal.active }
  else
    let s := { s with hal := { s.hal with outA := true, outB := true, copying := none, held := [] } }
    let qs := (knownParts s).filter fun q => pnum s .partitionState q != 0
    postFault (qs.foldl (fun s q => partitionFault s q fun _ => false) s) { cls := 6, sev := 3, die := 4, sub := s.hal.active }

/-! Updates (R556 to R558). -/

/-- The bytes written from offset `off` without a gap, and how many chunks they take. -/
def imageFrom (l : List (Nat × List Nat)) : Nat → Nat → List Nat
  | 0, _ => []
  | fuel + 1, off =>
    match l.find? (·.1 == off) with
    | some c => c.2 ++ imageFrom l fuel (off + 1024)
    | none => []

/-- The image of the inactive bank, when it is complete, signed, and of a security version that may run. -/
def verifiedImage (s : State) : Option (List Nat) :=
  let l := s.hal.flash.image
  let bs := imageFrom l l.length 0
  if !l.isEmpty && bs.length == 1024 * l.length && Config.imageSigned bs &&
      s.hal.flash.security ≤ Config.imageSecurityVersion bs then some bs else none

def setUpdate (s : State) (v : Nat) : State := dsetNum s .updateState 0 0 1 v

/-- The new image runs: the cores reboot one after the other, with a switchover at an epoch boundary between them. Its version
word's place in the image is not in the spec (log entry 11). -/
def firmwareRuns (s : State) (bs : List Nat) : State :=
  let s := switchCore (flushEpoch s)
  let (v, s) := fresh s 556
  let fl := { s.hal.flash with
    bank := 1 - s.hal.flash.bank, otherValid := true, image := [], version := some (leBytes 4 v)
    security := Config.imageSecurityVersion bs }
  postFault (postFault (setUpdate { s with hal := { s.hal with flash := fl } } 3) { cls := 6, die := 4, sub := 1 - s.hal.active })
    { cls := 0x11, die := 4 }

/-- Verification ends, and the update proceeds once there is a standby core to reboot. -/
def startFirmware (s : State) : State :=
  match verifiedImage s with
  | none => setUpdate s 4
  | some bs => if standbyOk s then firmwareRuns s bs else setUpdate s 2

/-- Panels load the microcode one at a time; no result changes (R558). -/
def startMicrocode (s : State) : State :=
  match verifiedImage s with
  | none => setUpdate s 4
  | some _ =>
    postFault (setUpdate { s with hal := { s.hal with flash := { s.hal.flash with
      microcode := setPositions 16 (gnum s .updatePanels) } } } 3) { cls := 0x11, die := 4 }

/-- 1,024 image bytes go to update.offset, which advances. The bank they overwrite holds no verified image any more. -/
def storeChunk (s : State) (bs : List Nat) : State :=
  let off := gnum s .updateOffset
  let fl := { s.hal.flash with image := upsert (·.1 == off) (off, bs) s.hal.flash.image, otherValid := false }
  dsetNum { s with hal := { s.hal with flash := fl } } .updateOffset 0 0 4 (off + 1024)

/-! A core's return, and the Halyard's links. -/

/-- The failed core passes its self-test and becomes standby, or stays out with a SERVICE record. -/
def standbyReturn (ok : Bool) (s : State) : State :=
  if standbyOk s || (s.hal.outA && s.hal.outB) then s
  else if !ok then postFault s { cls := 6, sev := 4, die := 4, sub := 1 - s.hal.active }
  else
    let s := { s with hal := { s.hal with outA := false, outB := false, mirror := s.hal.mgmt, acked := s.hal.epoch } }
    if gnum s .updateState == 2 then startFirmware s else s

/-- One of the two links, at edge die 2 or 0, fails; the other carries all management traffic. What happens when both have failed the
spec does not say: the model goes on serving requests and register accesses (log entry 148). -/
def linkFails (edge : Nat) (s : State) : State :=
  if (edge != 0 && edge != 2) || s.hal.linksDown.contains edge then s
  else postFault { s with hal := { s.hal with linksDown := s.hal.linksDown ++ [edge] } } { cls := 5 }

/-! The meanings. -/

def execHalyardEpochClose (s : State) : Result := .next (epochClose s)
def execHalyardEpochAck (s : State) : Result := .next (epochAck s)
def execHalyardSwitchover (s : State) : Result := .next (switchover s)
def execHalyardStandbyReturn (selfTestOk : Bool) (s : State) : Result := .next (standbyReturn selfTestOk s)
def execHalyardLinkFailure (edge : Nat) (s : State) : Result := .next (linkFails edge s)

end Sys2Proof.Machine
end

