-- ==== Sys2Proof/Machine/Manage.lean ====
section
/-!
DEFINITION. Management requests (19_dictionary.md R511, R512, R515 to R520, R527 to R534; 18_partitions.md R499, R500; 20_faults.md
R545, R546, R556; 21_clocks_power.md R577, R578, R580; 22_module.md R601): one pipeline from the request to its response, and the
rows that are a write of one object.
-/
namespace Sys2Proof.Machine

/-! Requests and responses. -/

/-- What a request is answered with. `cold` says that a COLD reset follows the answer. -/
structure Reply where
  status : Nat := 0
  detail : Nat := 0
  retry : Nat := 0
  body : List Nat := []
  cold : Bool := false
deriving DecidableEq, Repr, Inhabited

def deniedReply (d : Nat) : Reply := { status := 2, detail := d }
def absentReply (d : Nat) : Reply := { status := 9, detail := d }
def retryReply (d us : Nat) : Reply := { status := 8, detail := d, retry := us }

/-- The bytes of a response (R527). -/
def replyBytes (op : Nat) (r : MgmtReq) (x : Reply) : List Nat :=
  [1, op + 128] ++ leBytes 2 x.body.length ++ leBytes 4 r.reqId ++ leBytes 2 r.index ++ [r.sub % 256, r.part % 256, x.status, 0] ++
  leBytes 2 x.detail ++ leBytes 4 x.retry ++ [0, 0, 0, 0] ++ x.body

/-- The partition whose instance a request selects (R511); none for a VF that is not bound. -/
def requestPart (s : State) (r : MgmtReq) : Option Nat :=
  match r.path with
  | .mailbox (.vf l n) => vfPart s (.vf l n)
  | _ => some r.part

/-- Does a path reach a core that works? -/
def pathOpen (s : State) (path : MgmtPath) : Bool :=
  s.pwr.rails != .off && !(s.hal.outA && s.hal.outB) &&
  (match path with
   | .port _ => true
   | .mailbox .halyard => false
   | .mailbox fn => linkUp s fn
   | .fabric _ => awake s)

/-- Is an object answered in the present stage (21_clocks_power.md R582, R583; 22_module.md R607)? Before READY the management port
reads identity, faults and dev.state (log entry 46). -/
def stageAnswers (s : State) (role : Role) (index sub : Nat) (write : Bool) : Bool :=
  let reads := !write && (index == 0x1000 || index == 0x8000 || (index == 0x3200 && sub == 3))
  s.pwr.stage == 6 || (role == .owner &&
    (reads || (s.pwr.stage == 7 && write && index == 0x8100 && sub == 2) || (s.pwr.stage == 8 && !write && index == 0x3300)))

/-! The rate limit (R532). -/

/-- A partition's bucket at the present time: tokens, and the time of its last refill. -/
def bucketNow (s : State) (q : Nat) : Nat × Nat :=
  match s.hal.buckets.find? (·.1 == q) with
  | none => (200, s.time)
  | some b =>
    let k := (s.time - b.2.2) / 500000
    if 200 ≤ b.2.1 + k then (200, s.time) else (b.2.1 + k, b.2.2 + k * 500000)

def setBucket (s : State) (q : Nat) (b : Nat × Nat) : State :=
  { s with hal := { s.hal with buckets := upsert (·.1 == q) (q, b) s.hal.buckets } }

/-! Reads (R518). -/

/-- The answer of a READ (`staged` false) or a READ_STAGED of one object. -/
def readReply (s : State) (role : Role) (part index sub : Nat) (staged : Bool) : Reply :=
  match findObject index sub part with
  | none => absentReply 0x0D01
  | some (row, o) =>
    if !(readable role row) then deniedReply 0
    else
      let cut := if role == .tenant then some part else none
      match (if staged then stagedValue s cut o else objectValue s cut o) with
      | some v => { body := v }
      | none => absentReply 0

/-- An entry of a READ_BATCH response: status, zero, length, value padded to 4 bytes. -/
def batchEntry (x : Reply) : List Nat :=
  [x.status, 0] ++ leBytes 2 x.body.length ++ x.body ++ List.replicate (roundUp x.body.length 4 - x.body.length) 0

/-- The answer of a READ_BATCH (R523, R527, R528). -/
def batchReply (s : State) (role : Role) (part : Option Nat) (body : List Nat) : Reply :=
  let n := body.length / 4
  if 32 < n || body.length % 4 != 0 then deniedReply 0
  else
    let out := (List.range n).flatMap fun i =>
      batchEntry (readReply s role (part.getD (body.getD (4 * i + 3) 0)) (leAt body (4 * i) 2) (body.getD (4 * i + 2) 0) false)
    if 1032 < out.length then deniedReply 0x0D0C else { body := out }

/-! Staged writes (R517, R522). -/

/-- µs up to a time, rounded up. -/
def usUntil (s : State) (t : Nat) : Nat := ceilDiv (t - s.time) 1000

/-- A commit that is PENDING holds back staged writes and writes of commit.tick. -/
def pendingWait (s : State) : Option Nat :=
  match s.hal.mgmt.commit with
  | some c => if c.pending then some (usUntil s c.at') else none
  | none => none

def stageWrite (s : State) (path : MgmtPath) (role : Role) (o : ObjAddr) (v : List Nat) : Reply × State :=
  match pendingWait s with
  | some us => (retryReply 0x0D07 us, s)
  | none =>
    match s.hal.mgmt.session.filter (·.src != path) with
    | some x => (retryReply 0x0D05 (usUntil s (x.last + 10000000000)), s)
    | none =>
      let m := { s.hal.mgmt with session := some { src := path, role := roleCode role, last := s.time } }
      if o.id == .fabRouteBlockB && s.fab.copying then
        ({}, { s with hal := { s.hal with mgmt := m }
                      fab := { s.fab with heldRoutes := upsert (·.1 == o) (o, v) s.fab.heldRoutes } })
      else ({}, { s with hal := { s.hal with mgmt := { m with staged := upsert (·.1 == o) (o, v) m.staged } } })

/-! Writes with an effect of their own. -/

/-- commit.seq (R520). -/
def requestCommit (s : State) (path : MgmtPath) (n : Nat) : Reply × State :=
  let m := s.hal.mgmt
  if m.commit.isSome then (retryReply 0x0D0A 100, rbump s (halReg .halLoad) 39 24 1)
  else if n == (gnum s .commitSeq + 1) % 2 ^ 32 &&
      (m.session.any (·.src == path) || (m.staged.isEmpty && s.fab.heldRoutes.isEmpty)) then
    let m := { m with
      commit := some { n := n, tick := gnum s .commitTick }
      session := m.session.map fun x => if x.src == path then { x with last := s.time } else x }
    ({}, dsetNum { s with hal := { s.hal with mgmt := m } } .commitOutcome 0 0 1 1)
  else (deniedReply 0x0D06, s)

/-- commit.abort (R519): the session ends, and a commit that has not reached its tick is discarded. -/
def abortCommit (s : State) : State :=
  if s.hal.mgmt.commit.isSome then dsetNum (endSession s) .commitOutcome 0 0 1 0 else endSession s

/-- lease.state: REQUEST from a slot that holds no lease, RELEASE of one that is in force (11_drawers_tiers.md R322). -/
def leaseWrite (s : State) (slot v : Nat) : Reply × State :=
  let st := borrowState s slot
  if v == 1 then (if st == 0 || st == 5 || st == 6 then ({}, leaseAsk s slot) else (deniedReply 0, s))
  else if leaseOn st then ({}, leaseReleased .borrower slot s) else (deniedReply 0, s)

/-- A key part (18_partitions.md R499, R500): the slot's version counter returns to 1 (13_inlay.md R373). -/
def setKey (s : State) (q slot : Nat) (tag : Bool) (bs : List Nat) : State :=
  let k : KeyPart := { part := q, slot := slot, tag := tag, bytes := bs }
  let s := { s with mmu := { s.mmu with
    keys := upsert (fun x => x.part == q && x.slot == slot && x.tag == tag) k s.mmu.keys } }
  dsetNum s (if slot == 0 then .partitionSealVersion0 else .partitionSealVersion1) 0 q 4 1

/-- Both keys of a slot drawn from the random generator. -/
def drawKeys (s : State) (q slot : Nat) : State :=
  let n := s.freeCtr
  let byte (i : Nat) : Nat := Config.randomByte n i % 256
  setKey (setKey { s with freeCtr := n + 1 } q slot false ((List.range 64).map byte)) q slot true
    ((List.range 32).map fun i => byte (64 + i))

/-- Entries of a list of objects: index, subindex, partition. -/
def objectList (bs : List Nat) : List (Nat × Nat × Nat) :=
  (List.range (bs.length / 4)).map fun i => (leAt bs (4 * i) 2, bs.getD (4 * i + 2) 0, bs.getD (4 * i + 3) 0)

/-- The instance that a stream's entry names: a TENANT's own partition. -/
def entryPart (role : Role) (q n : Nat) : Nat := if role == .tenant then q else n

/-- telem.enable (R534): its list may name only objects that the role reads. The first sequence number is open (log entry 11). -/
def telemWrite (s : State) (role : Role) (q k v : Nat) : Reply × State :=
  let o : ObjAddr := { id := .telemEnable, i := k, part := q }
  let rest := s.hal.telem.filter fun t => !(t.1 == q && t.2.1 == k)
  if v == 0 then ({}, dset { s with hal := { s.hal with telem := rest } } o [0])
  else
    let ok := (objectList (dget s { o with id := .telemObjects })).all fun e =>
      match findObject e.1 e.2.1 (entryPart role q e.2.2) with
      | some (row, _) => readable role row
      | none => false
    if !ok then (deniedReply 0, s)
    else
      let (x, s) := fresh s 534
      ({}, dset { s with hal := { s.hal with telem := rest ++ [(q, k, x % 2 ^ 32, role)] } } o [1])

/-- power.state: RETAIN is refused while a partition runs or a lease is lent (21_clocks_power.md R577). -/
def powerWrite (s : State) (v : Nat) : Reply × State :=
  if v == 0 then ({}, leaveRetain s)
  else if (knownParts s).any (fun q => 2 ≤ pnum s .partitionState q) || lending s then (deniedReply 0x0F01, s)
  else ({}, enterRetain s)

/-- The write of an object that is not staged, its value checked. -/
def activeWrite (s : State) (path : MgmtPath) (role : Role) (o : ObjAddr) (bs : List Nat) : Reply × State :=
  let v := leVal bs
  let plain : Reply × State := ({}, dset s o bs)
  match o.id with
  | .commitSeq => requestCommit s path v
  | .commitTick => (match pendingWait s with | some us => (retryReply 0x0D07 us, s) | none => plain)
  | .commitAbort => ({}, if v == 1 then abortCommit s else s)
  | .leaseState => leaseWrite s o.i v
  | .leaseLender | .leaseSize | .leaseWindow | .leasePartition =>
    (let st := borrowState s o.i; if st == 0 || st == 5 || st == 6 then plain else (deniedReply 0, s))
  | .lentState => if lentState s o.i == 3 then ({}, leaseRevoked s o.i) else (deniedReply 0, s)
  | .fabManagerEnable | .fabManagerPriority => ({}, adoptManager (dset s o bs))
  | .keySlot0Xts => ({}, setKey s o.part 0 false bs)
  | .keySlot0Tag => ({}, setKey s o.part 0 true bs)
  | .keySlot1Xts => ({}, setKey s o.part 1 false bs)
  | .keySlot1Tag => ({}, setKey s o.part 1 true bs)
  | .keyGenerate => ({}, drawKeys s o.part (v - 1))
  | .telemEnable => telemWrite s role o.part o.i v
  | .computeRetireBench => if retireRefused s v then (deniedReply 0, s) else ({}, retireBench s v)
  | .memHbmRetire => ({}, retireChannel s (v / 256) (v % 256) false)
  | .updateChunk => ({}, storeChunk s bs)
  | .updateStart => ({}, if v == 1 then startFirmware s else startMicrocode s)
  | .penBypass => ({}, if v == 1 then closeBypass (dset s o bs) else dset s o bs)
  | .powerState => powerWrite s v
  | .devReset => if v == 1 then ({ cold := true }, s) else ({}, warmReset s)
  | .partitionReset => ({}, if v == 1 then resetPartition s o.part else s)
  | .moduleAlertAck =>
    ({}, if v == 1 then { s with hal := { s.hal with ackSeq := s.hal.serviceSeq } } else s)
  | _ => plain

/-- The write of an object: presence, role, type, range, then its effect (R15, R16, R510, R512). -/
def writeReply (s : State) (path : MgmtPath) (role : Role) (part index sub : Nat) (bs : List Nat) : Reply × State :=
  match findObject index sub part with
  | none => (absentReply 0x0D01, s)
  | some (row, o) =>
    if !(row.write.contains role) then (deniedReply 0, s)
    else if !(typeOk row bs) then (deniedReply 0x0D02, s)
    else if !(rangeOk s row o bs) then (deniedReply 0x0D03, s)
    else if row.staged then stageWrite s path role o bs
    else activeWrite s path role o bs

/-! The pipeline. -/

/-- Keep the last 16 responses of a source; a RETRY is not kept, so that its repetition is executed (R529; log entry 47). -/
def keepReply (s : State) (path : MgmtPath) (reqId : Nat) (bytes : List Nat) : State :=
  let mine := s.hal.mgmt.kept.filter fun k => k.path == path
  let others := s.hal.mgmt.kept.filter fun k => k.path != path
  { s with hal := { s.hal with mgmt := { s.hal.mgmt with
      kept := ({ path := path, reqId := reqId, bytes := bytes } :: mine).take 16 ++ others } } }

/-- Answer a request. -/
def finishRequest (op : Nat) (r : MgmtReq) (x : Reply) (s : State) : State :=
  let bytes := replyBytes op r x
  if x.cold then coldReset (answerLeaves s r.path bytes)
  else respond (if x.status == 8 then s else keepReply s r.path r.reqId bytes) r.path bytes

/-- A TENANT request takes a token, or is answered with the wait until the next (R532). -/
def rateLimit (s : State) (role : Role) (part : Nat) : Option Nat × State :=
  if role != .tenant then (none, s)
  else
    let b := bucketNow s part
    if b.1 == 0 then (some (usUntil s (b.2 + 500000)), rbump s (halReg .halLoad) 55 40 1)
    else (none, setBucket s part (b.1 - 1, b.2))

/-- Serve a request: `answers` says whether the stage lets the device answer it, `act` executes it. -/
def serveRequest (op : Nat) (answers : State → Role → Bool) (act : State → Role → Nat → Reply × State) (r : MgmtReq) (s : State) :
    State :=
  let role := pathRole r.path
  match requestPart s r with
  | none => s
  | some part =>
    if !(pathOpen s r.path) || !(answers s role) then s
    else
      match s.hal.mgmt.kept.find? fun k => k.path == r.path && k.reqId == r.reqId with
      | some k => respond s r.path k.bytes
      | none =>
        if r.version != 1 then finishRequest op r (deniedReply 0x0D08) s
        else
          match rateLimit s role part with
          | (some us, s) => finishRequest op r (retryReply 0x0D0B us) s
          | (none, s) => (fun y => finishRequest op r y.1 y.2) (act s role part)

def readRequest (r : MgmtReq) (s : State) : State :=
  serveRequest 1 (fun s role => stageAnswers s role r.index r.sub false)
    (fun s role part => (readReply s role part r.index r.sub false, s)) r s

def stagedRequest (r : MgmtReq) (s : State) : State :=
  serveRequest 3 (fun s role => stageAnswers s role r.index r.sub false)
    (fun s role part => (readReply s role part r.index r.sub true, s)) r s

def batchRequest (r : MgmtReq) (s : State) : State :=
  serveRequest 4
    (fun s role => (objectList r.body).all fun e => stageAnswers s role e.1 e.2.1 false)
    (fun s role part => (batchReply s role (if role == .tenant then some part else none) r.body, s)) r s

def writeRequest (r : MgmtReq) (s : State) : State :=
  serveRequest 2 (fun s role => stageAnswers s role r.index r.sub true)
    (fun s role part => writeReply s r.path role part r.index r.sub r.body) r s

/-- A row that is the write of one object, perhaps of one value: any other request is not its event. -/
def writeOf (ids : List ObjId) (p : Nat → Bool) (r : MgmtReq) (s : State) : State :=
  match findObject r.index r.sub r.part with
  | some (_, o) => if ids.contains o.id && p (leVal r.body) then writeRequest r s else s
  | none => s

/-! The mailbox (R530). -/

/-- A write of the doorbell word: before the done word matches the last one, it is answered with RETRY. -/
def doorbell (fn : Src) (v : Nat) (s : State) : State :=
  if s.pwr.stage != 6 || !(linkUp s fn) || fn == .halyard || (isVf fn && (vfPart s fn).isNone) then s
  else
    let m := mailboxOf s fn
    if m.1 == m.2 then setMailbox s fn (v % 2 ^ 32, m.2)
    else emit s (.mgmt (.mailbox fn) (replyBytes 0 { path := .mailbox fn, reqId := v } (retryReply 0x0D09 0)))

/-! Telemetry (R534). -/

def padded (v : List Nat) : List Nat := v ++ List.replicate (roundUp v.length 4 - v.length) 0

/-- A period of a stream: one record, over the oldest. -/
def telemPeriod (q k : Nat) (s : State) : State :=
  match s.hal.telem.find? fun t => t.1 == q && t.2.1 == k with
  | none => s
  | some (_, _, seq, role) =>
    let at' (id : ObjId) : ObjAddr := { id := id, i := k, part := q }
    let cut := if role == .tenant then some q else none
    let values := (objectList (dget s (at' .telemObjects))).flatMap fun e =>
      match findObject e.1 e.2.1 (entryPart role q e.2.2) with
      | some (_, o) => padded ((objectValue s cut o).getD [])
      | none => []
    let rec' := leBytes 8 s.time ++ leBytes 4 seq ++ [0, 0, 0, 0] ++ values
    let slot := seq % 2 ^ leVal (dget s (at' .telemRingLog2))
    let s := (partPut s { part := some q } q (leVal (dget s (at' .telemRing)) + slot * rec'.length) rec').s
    { s with hal := { s.hal with telem := s.hal.telem.map fun t =>
        if t.1 == q && t.2.1 == k then (q, k, (seq + 1) % 2 ^ 32, role) else t } }

/-! Neighbor Discovery (R526). -/

/-- The interface identifier that modified EUI-64 forms from the MAC address. -/
def ownIid : Nat := ((Config.mac / 2 ^ 24) ^^^ 0x020000) % 2 ^ 24 * 2 ^ 40 + 0xFFFE * 2 ^ 24 + Config.mac % 2 ^ 24

def neighborAnswers (target : Nat) (s : State) : State :=
  if pathOpen s (.port target) && target == ownIid then emit s (.neighbor ownIid) else s

/-! The test access port (22_module.md R602). -/

/-- IDCODE: the version in bits 31:28 is open (log entry 11). -/
def idcode : Nat := Config.openValue 0 602 % 16 * 2 ^ 28 + 0x0940 * 2 ^ 12 + Config.jtagMaker % 2 ^ 11 * 2 + 1

/-- The instruction that a name loads: without BOUNDARY only BYPASS and IDCODE are offered. -/
def tapCode (s : State) (name : String) : Nat :=
  if name == "IDCODE" then 1
  else if gnum s .debugJtag != 1 then 0
  else if name == "SAMPLE/PRELOAD" then 2
  else if name == "EXTEST" then 3
  else 0

/-- The register that an instruction selects, as captured; how many cells the boundary register has is open (log entry 11). -/
def tapCapture (ir : Nat) : List Bool :=
  match ir with
  | 0 => [false]
  | 1 => (List.range 32).map (bit idcode)
  | _ => (List.range (Config.openValue 1 602 % 4096)).map Config.boundaryCell

def tapStep (op : TapOp) (s : State) : State :=
  if s.pwr.rails == .off then s
  else
    match op with
    | .load name => { s with tap := { ir := tapCode s name, shift := [] } }
    | .capture => { s with tap := { s.tap with shift := tapCapture s.tap.ir } }
    | .shift tdi => emit { s with tap := { s.tap with shift := s.tap.shift.drop 1 ++ [tdi] } } (.tdo (s.tap.shift.headD false))
    | .reset => { s with tap := {} }

/-! The meanings. -/

def execMgmtRead (r : MgmtReq) (s : State) : Result := .next (readRequest r s)
def execMgmtWrite (r : MgmtReq) (s : State) : Result := .next (writeRequest r s)
def execReadStaged (r : MgmtReq) (s : State) : Result := .next (stagedRequest r s)
def execReadBatch (r : MgmtReq) (s : State) : Result := .next (batchRequest r s)
def execMailboxDoorbell (fn : Src) (v : Nat) (s : State) : Result := .next (doorbell fn v s)
def execCommitRequest (r : MgmtReq) (s : State) : Result := .next (writeOf [.commitSeq] (fun _ => true) r s)
def execCommitAbort (r : MgmtReq) (s : State) : Result := .next (writeOf [.commitAbort] (· == 1) r s)
def execKeyWrite (r : MgmtReq) (s : State) : Result :=
  .next (writeOf [.keySlot0Xts, .keySlot0Tag, .keySlot1Xts, .keySlot1Tag] (fun _ => true) r s)
def execKeyGenerate (r : MgmtReq) (s : State) : Result := .next (writeOf [.keyGenerate] (fun _ => true) r s)
def execLeaseRequest (r : MgmtReq) (s : State) : Result := .next (writeOf [.leaseState] (· == 1) r s)
def execLeaseRevoke (r : MgmtReq) (s : State) : Result := .next (writeOf [.lentState] (· == 9) r s)
def execPowerStateRetain (r : MgmtReq) (s : State) : Result := .next (writeOf [.powerState] (· == 2) r s)
def execPowerStateRun (r : MgmtReq) (s : State) : Result := .next (writeOf [.powerState] (· == 0) r s)
def execDevResetCold (r : MgmtReq) (s : State) : Result := .next (writeOf [.devReset] (· == 1) r s)
def execDevResetWarm (r : MgmtReq) (s : State) : Result := .next (writeOf [.devReset] (· == 2) r s)
def execPartitionReset (r : MgmtReq) (s : State) : Result := .next (writeOf [.partitionReset] (· == 1) r s)
def execRetireBench (r : MgmtReq) (s : State) : Result := .next (writeOf [.computeRetireBench] (fun _ => true) r s)
def execHbmRetire (r : MgmtReq) (s : State) : Result := .next (writeOf [.memHbmRetire] (fun _ => true) r s)
def execUpdateChunk (r : MgmtReq) (s : State) : Result := .next (writeOf [.updateChunk] (fun _ => true) r s)
def execUpdateStartFirmware (r : MgmtReq) (s : State) : Result := .next (writeOf [.updateStart] (· == 1) r s)
def execUpdateStartMicrocode (r : MgmtReq) (s : State) : Result := .next (writeOf [.updateStart] (· == 2) r s)
def execModuleAlertAck (r : MgmtReq) (s : State) : Result := .next (writeOf [.moduleAlertAck] (· == 1) r s)
def execPenBypassWrite (r : MgmtReq) (s : State) : Result := .next (writeOf [.penBypass] (· == 1) r s)
def execTelemetryEnable (r : MgmtReq) (s : State) : Result := .next (writeOf [.telemEnable] (fun _ => true) r s)
def execTelemetrySample (part k : Nat) (s : State) : Result := .next (whileAwake (telemPeriod part k) s)
def execNeighborDiscovery (target : Nat) (s : State) : Result := .next (neighborAnswers target s)
def execTestAccessPort (op : TapOp) (s : State) : Result := .next (tapStep op s)

end Sys2Proof.Machine
end

