-- ==== Sys2Proof/Machine/Dispatch.lean ====
section
/-!
DEFINITION. One arm per command: the direct call of its meaning.
-/
namespace Sys2Proof.Machine

/-- The effect of a command on everything but the queue. -/
def exec (i : Instr) (s : State) : Host.Outcome State Fault Refusal :=
  match i with
  | .nop mi => Sys2Proof.Machine.execNop mi s
  | .mm mi => Sys2Proof.Machine.execMm mi s
  | .mma mi => Sys2Proof.Machine.execMma mi s
  | .conv mi => Sys2Proof.Machine.execConv mi s
  | .attnFwd mi => Sys2Proof.Machine.execAttnFwd mi s
  | .attnBwd mi => Sys2Proof.Machine.execAttnBwd mi s
  | .ew mi => Sys2Proof.Machine.execEw mi s
  | .sfuMap mi => Sys2Proof.Machine.execSfuMap mi s
  | .rowred mi => Sys2Proof.Machine.execRowred mi s
  | .softmax mi => Sys2Proof.Machine.execSoftmax mi s
  | .norm mi => Sys2Proof.Machine.execNorm mi s
  | .move mi => Sys2Proof.Machine.execMove mi s
  | .mcast mi => Sys2Proof.Machine.execMcast mi s
  | .flush mi => Sys2Proof.Machine.execFlush mi s
  | .prefetch mi => Sys2Proof.Machine.execPrefetch mi s
  | .kvAppend mi => Sys2Proof.Machine.execKvAppend mi s
  | .kvFork mi => Sys2Proof.Machine.execKvFork mi s
  | .kvFree mi => Sys2Proof.Machine.execKvFree mi s
  | .cantonSelect mi => Sys2Proof.Machine.execCantonSelect mi s
  | .allReduce mi arr => Sys2Proof.Machine.execAllReduce mi arr s
  | .reduceScatter mi arr => Sys2Proof.Machine.execReduceScatter mi arr s
  | .allGather mi arr => Sys2Proof.Machine.execAllGather mi arr s
  | .allToAll mi arr => Sys2Proof.Machine.execAllToAll mi arr s
  | .kvPass mi arr => Sys2Proof.Machine.execKvPass mi arr s
  | .permute mi arr => Sys2Proof.Machine.execPermute mi arr s
  | .gatherRetainKeep mi arr => Sys2Proof.Machine.execGatherRetainKeep mi arr s
  | .gatherRetainFetch mi arr => Sys2Proof.Machine.execGatherRetainFetch mi arr s
  | .gatherRetainDrop mi => Sys2Proof.Machine.execGatherRetainDrop mi s
  | .gatherRetainDropAll mi => Sys2Proof.Machine.execGatherRetainDropAll mi s
  | .ledgerUpdate mi => Sys2Proof.Machine.execLedgerUpdate mi s
  | .censusRead mi => Sys2Proof.Machine.execCensusRead mi s
  | .check mi => Sys2Proof.Machine.execCheck mi s
  | .pool mi => Sys2Proof.Machine.execPool mi s
  | .cropResize mi => Sys2Proof.Machine.execCropResize mi s
  | .boxDecode mi => Sys2Proof.Machine.execBoxDecode mi s
  | .nms mi => Sys2Proof.Machine.execNms mi s
  | .wait mi => Sys2Proof.Machine.execWait mi s
  | .waitRelease mi => Sys2Proof.Machine.execWaitRelease mi s
  | .waitTimeout mi => Sys2Proof.Machine.execWaitTimeout mi s
  | .signal mi => Sys2Proof.Machine.execSignal mi s
  | .barrier mi => Sys2Proof.Machine.execBarrier mi s
  | .barrierComplete mi => Sys2Proof.Machine.execBarrierComplete mi s
  | .barrierTimeout mi => Sys2Proof.Machine.execBarrierTimeout mi s
  | .ingestPullClaim mi => Sys2Proof.Machine.execIngestPullClaim mi s
  | .ingestPullRelease mi => Sys2Proof.Machine.execIngestPullRelease mi s
  | .ingestClaimTimeout mi => Sys2Proof.Machine.execIngestClaimTimeout mi s
  | .salvageMark mi => Sys2Proof.Machine.execSalvageMark mi s
  | .miIssue panel q => Sys2Proof.Machine.execMiIssue panel q s
  | .miComplete mi => Sys2Proof.Machine.execMiComplete mi s
  | .eventWaitRoom part ring => Sys2Proof.Machine.execEventWaitRoom part ring s
  | .combinerPartialArrival mi p => Sys2Proof.Machine.execCombinerPartialArrival mi p s
  | .tileDealShared mi panel ask => Sys2Proof.Machine.execTileDealShared mi panel ask s
  | .damagePark mi => Sys2Proof.Machine.execDamagePark mi s
  | .salvageRunEnd part id => Sys2Proof.Machine.execSalvageRunEnd part id s
  | .jigQptrDoorbell src panel q v => Sys2Proof.Machine.execJigQptrDoorbell src panel q v s
  | .jigQptrResume src panel q v => Sys2Proof.Machine.execJigQptrResume src panel q v s
  | .jigQptrReset src panel q v => Sys2Proof.Machine.execJigQptrReset src panel q v s
  | .eringEnable src panel c v => Sys2Proof.Machine.execEringEnable src panel c v s
  | .erptrConsumerWrite src panel c v => Sys2Proof.Machine.execErptrConsumerWrite src panel c v s
  | .contextEnable src offset v => Sys2Proof.Machine.execContextEnable src offset v s
  | .kvpPoolInit src panel n v => Sys2Proof.Machine.execKvpPoolInit src panel n v s
  | .kvpPoolReady panel n => Sys2Proof.Machine.execKvpPoolReady panel n s
  | .cacheEnable src panel n v => Sys2Proof.Machine.execCacheEnable src panel n v s
  | .cacheDisable src panel n v => Sys2Proof.Machine.execCacheDisable src panel n v s
  | .cacheDisableDone panel n => Sys2Proof.Machine.execCacheDisableDone panel n s
  | .cacheFillDone panel n frameAddr => Sys2Proof.Machine.execCacheFillDone panel n frameAddr s
  | .mitreContextEnable src c v => Sys2Proof.Machine.execMitreContextEnable src c v s
  | .collTimeout mi => Sys2Proof.Machine.execCollTimeout mi s
  | .medContextEnable src die c v => Sys2Proof.Machine.execMedContextEnable src die c v s
  | .medContextDisable src die c v => Sys2Proof.Machine.execMedContextDisable src die c v s
  | .medJobDoorbell src die c v => Sys2Proof.Machine.execMedJobDoorbell src die c v s
  | .medDecodePicture die c jobs back ev => Sys2Proof.Machine.execMedDecodePicture die c jobs back ev s
  | .medFrameSlotWait die c => Sys2Proof.Machine.execMedFrameSlotWait die c s
  | .medEncodePicture die c chunks refused => Sys2Proof.Machine.execMedEncodePicture die c chunks refused s
  | .ingPipeEnable src n v => Sys2Proof.Machine.execIngPipeEnable src n v s
  | .ingReqDoorbell src n v => Sys2Proof.Machine.execIngReqDoorbell src n v s
  | .ingSampleReady n req => Sys2Proof.Machine.execIngSampleReady n req s
  | .ingSampleSkip n req reason => Sys2Proof.Machine.execIngSampleSkip n req reason s
  | .ingPipeStop n req => Sys2Proof.Machine.execIngPipeStop n req s
  | .ingQstatResume src n v => Sys2Proof.Machine.execIngQstatResume src n v s
  | .prtMmuinvStart src v => Sys2Proof.Machine.execPrtMmuinvStart src v s
  | .mmuInvalidationDone => Sys2Proof.Machine.execMmuInvalidationDone s
  | .chkStateRestore src offset v => Sys2Proof.Machine.execChkStateRestore src offset v s
  | .pwrRetWrite src panel v => Sys2Proof.Machine.execPwrRetWrite src panel v s
  | .retentionEntry panel u => Sys2Proof.Machine.execRetentionEntry panel u s
  | .retentionWake panel u => Sys2Proof.Machine.execRetentionWake panel u s
  | .retentionWakeDone panel u selfTestOk => Sys2Proof.Machine.execRetentionWakeDone panel u selfTestOk s
  | .registerWrite src addr width v => Sys2Proof.Machine.execRegisterWrite src addr width v s
  | .drawerPortCollision panel bench word master aBytes beat bBytes dropped => Sys2Proof.Machine.execDrawerPortCollision panel bench word master aBytes beat bBytes dropped s
  | .regionRefusal addr n master part write mi => Sys2Proof.Machine.execRegionRefusal addr n master part write mi s
  | .buntingParityError panel bench beat len mi => Sys2Proof.Machine.execBuntingParityError panel bench beat len mi s
  | .dramUncorrectableRead read mi => Sys2Proof.Machine.execDramUncorrectableRead read mi s
  | .dramCorrectedRead read => Sys2Proof.Machine.execDramCorrectedRead read s
  | .writeDrain ch => Sys2Proof.Machine.execWriteDrain ch s
  | .dramRefresh ch => Sys2Proof.Machine.execDramRefresh ch s
  | .patrolScrub addr f => Sys2Proof.Machine.execPatrolScrub addr f s
  | .hotBankAlarm addr acts => Sys2Proof.Machine.execHotBankAlarm addr acts s
  | .flitReceive port bytes => Sys2Proof.Machine.execFlitReceive port bytes s
  | .flitNak port seq => Sys2Proof.Machine.execFlitNak port seq s
  | .creditInit port credits => Sys2Proof.Machine.execCreditInit port credits s
  | .schedExit port => Sys2Proof.Machine.execSchedExit port s
  | .schedEnter port start => Sys2Proof.Machine.execSchedEnter port start s
  | .hello port serial nport addr prio mserial dist => Sys2Proof.Machine.execHello port serial nport addr prio mserial dist s
  | .helloSend port => Sys2Proof.Machine.execHelloSend port s
  | .helloTimeout port => Sys2Proof.Machine.execHelloTimeout port s
  | .fabricRead port p => Sys2Proof.Machine.execFabricRead port p s
  | .readResp port p => Sys2Proof.Machine.execReadResp port p s
  | .fabricWrite port p => Sys2Proof.Machine.execFabricWrite port p s
  | .writeAck port p => Sys2Proof.Machine.execWriteAck port p s
  | .atomic port p => Sys2Proof.Machine.execAtomic port p s
  | .atomicResp port p => Sys2Proof.Machine.execAtomicResp port p s
  | .message port p => Sys2Proof.Machine.execMessage port p s
  | .messageAck port p => Sys2Proof.Machine.execMessageAck port p s
  | .packetNak port p => Sys2Proof.Machine.execPacketNak port p s
  | .unreachable port p => Sys2Proof.Machine.execUnreachable port p s
  | .packetForward port p => Sys2Proof.Machine.execPacketForward port p s
  | .packetResendTimeout tag => Sys2Proof.Machine.execPacketResendTimeout tag s
  | .portTrained port lanes fallback => Sys2Proof.Machine.execPortTrained port lanes fallback s
  | .fabricLaneLoss port lane => Sys2Proof.Machine.execFabricLaneLoss port lane s
  | .routeShadowCopyDone => Sys2Proof.Machine.execRouteShadowCopyDone s
  | .schedSlotBoundary => Sys2Proof.Machine.execSchedSlotBoundary s
  | .schedActivate => Sys2Proof.Machine.execSchedActivate s
  | .schedDriftExit => Sys2Proof.Machine.execSchedDriftExit s
  | .schedReentry => Sys2Proof.Machine.execSchedReentry s
  | .leaseRequest r => Sys2Proof.Machine.execLeaseRequest r s
  | .leaseGrant side slot peer id base size tier notice serial => Sys2Proof.Machine.execLeaseGrant side slot peer id base size tier notice serial s
  | .leaseRefuse side slot peer reason => Sys2Proof.Machine.execLeaseRefuse side slot peer reason s
  | .leaseKeepalive side slot received => Sys2Proof.Machine.execLeaseKeepalive side slot received s
  | .leaseNotice slot id deadline => Sys2Proof.Machine.execLeaseNotice slot id deadline s
  | .leaseRelease side slot => Sys2Proof.Machine.execLeaseRelease side slot s
  | .leaseRevoke r => Sys2Proof.Machine.execLeaseRevoke r s
  | .leaseDeadline side slot => Sys2Proof.Machine.execLeaseDeadline side slot s
  | .leaseLivenessExpiry side slot => Sys2Proof.Machine.execLeaseLivenessExpiry side slot s
  | .scrubDone id => Sys2Proof.Machine.execScrubDone id s
  | .penTime f => Sys2Proof.Machine.execPenTime f s
  | .penTimeSend => Sys2Proof.Machine.execPenTimeSend s
  | .arrive f => Sys2Proof.Machine.execArrive f s
  | .withdraw f => Sys2Proof.Machine.execWithdraw f s
  | .penRelease f => Sys2Proof.Machine.execPenRelease f s
  | .withdrawn f => Sys2Proof.Machine.execWithdrawn f s
  | .measure f residence elapsed => Sys2Proof.Machine.execMeasure f residence elapsed s
  | .measureSend => Sys2Proof.Machine.execMeasureSend s
  | .link f => Sys2Proof.Machine.execLink f s
  | .penMasterLoss next => Sys2Proof.Machine.execPenMasterLoss next s
  | .bypassOpen position => Sys2Proof.Machine.execBypassOpen position s
  | .bypassClose cause => Sys2Proof.Machine.execBypassClose cause s
  | .refclkLoss r cause => Sys2Proof.Machine.execRefclkLoss r cause s
  | .refclkRevert => Sys2Proof.Machine.execRefclkRevert s
  | .pclkChange panel => Sys2Proof.Machine.execPclkChange panel s
  | .thermalThrottle panel mc limit => Sys2Proof.Machine.execThermalThrottle panel mc limit s
  | .powerLimitThrottle watts mhz => Sys2Proof.Machine.execPowerLimitThrottle watts mhz s
  | .thermalTrip site mc heldUs => Sys2Proof.Machine.execThermalTrip site mc heldUs s
  | .uvlo mv heldUs => Sys2Proof.Machine.execUvlo mv heldUs s
  | .ovp mv heldUs => Sys2Proof.Machine.execOvp mv heldUs s
  | .ocp ma heldUs => Sys2Proof.Machine.execOcp ma heldUs s
  | .vinApplied mv => Sys2Proof.Machine.execVinApplied mv s
  | .pwrEnAssert => Sys2Proof.Machine.execPwrEnAssert s
  | .pwrEnDeassert => Sys2Proof.Machine.execPwrEnDeassert s
  | .coldStart b => Sys2Proof.Machine.execColdStart b s
  | .forceRetainAssert => Sys2Proof.Machine.execForceRetainAssert s
  | .forceRetainDeassert => Sys2Proof.Machine.execForceRetainDeassert s
  | .perstAssert lnk => Sys2Proof.Machine.execPerstAssert lnk s
  | .perstDeassert lnk => Sys2Proof.Machine.execPerstDeassert lnk s
  | .powerStateRetain r => Sys2Proof.Machine.execPowerStateRetain r s
  | .powerStateRun r => Sys2Proof.Machine.execPowerStateRun r s
  | .retainExitDone => Sys2Proof.Machine.execRetainExitDone s
  | .devResetCold r => Sys2Proof.Machine.execDevResetCold r s
  | .devResetWarm r => Sys2Proof.Machine.execDevResetWarm r s
  | .partitionReset r => Sys2Proof.Machine.execPartitionReset r s
  | .partitionIdleIdleExit u => Sys2Proof.Machine.execPartitionIdleIdleExit u s
  | .tsliceSwitch group => Sys2Proof.Machine.execTsliceSwitch group s
  | .mgmtRead r => Sys2Proof.Machine.execMgmtRead r s
  | .mgmtWrite r => Sys2Proof.Machine.execMgmtWrite r s
  | .readStaged r => Sys2Proof.Machine.execReadStaged r s
  | .readBatch r => Sys2Proof.Machine.execReadBatch r s
  | .mailboxDoorbell fn v => Sys2Proof.Machine.execMailboxDoorbell fn v s
  | .commitRequest r => Sys2Proof.Machine.execCommitRequest r s
  | .commitCheckDone => Sys2Proof.Machine.execCommitCheckDone s
  | .commitTick => Sys2Proof.Machine.execCommitTick s
  | .commitAbort r => Sys2Proof.Machine.execCommitAbort r s
  | .sessionIdleExpiry => Sys2Proof.Machine.execSessionIdleExpiry s
  | .keyWrite r => Sys2Proof.Machine.execKeyWrite r s
  | .keyGenerate r => Sys2Proof.Machine.execKeyGenerate r s
  | .retireBench r => Sys2Proof.Machine.execRetireBench r s
  | .benchFailure panel phys detail => Sys2Proof.Machine.execBenchFailure panel phys detail s
  | .spareTakeover panel phys => Sys2Proof.Machine.execSpareTakeover panel phys s
  | .hbmRetire r => Sys2Proof.Machine.execHbmRetire r s
  | .hbmChannelRetirement stack ch hard => Sys2Proof.Machine.execHbmChannelRetirement stack ch hard s
  | .hbmRetireCopyDone stack ch => Sys2Proof.Machine.execHbmRetireCopyDone stack ch s
  | .spineLaneRepair panel port report => Sys2Proof.Machine.execSpineLaneRepair panel port report s
  | .halyardEpochClose => Sys2Proof.Machine.execHalyardEpochClose s
  | .halyardEpochAck => Sys2Proof.Machine.execHalyardEpochAck s
  | .halyardSwitchover => Sys2Proof.Machine.execHalyardSwitchover s
  | .updateChunk r => Sys2Proof.Machine.execUpdateChunk r s
  | .updateStartFirmware r => Sys2Proof.Machine.execUpdateStartFirmware r s
  | .updateStartMicrocode r => Sys2Proof.Machine.execUpdateStartMicrocode r s
  | .moduleAlertAck r => Sys2Proof.Machine.execModuleAlertAck r s
  | .penBypassWrite r => Sys2Proof.Machine.execPenBypassWrite r s
  | .telemetryEnable r => Sys2Proof.Machine.execTelemetryEnable r s
  | .telemetrySample part k => Sys2Proof.Machine.execTelemetrySample part k s
  | .vfFlr lnk num => Sys2Proof.Machine.execVfFlr lnk num s
  | .registerRead src addr width => Sys2Proof.Machine.execRegisterRead src addr width s
  | .bar2Access fn offset op => Sys2Proof.Machine.execBar2Access fn offset op s
  | .fabricPortSlow port rate => Sys2Proof.Machine.execFabricPortSlow port rate s
  | .refclkGood r => Sys2Proof.Machine.execRefclkGood r s
  | .runtPulse r => Sys2Proof.Machine.execRuntPulse r s
  | .powerOffHoldEnd => Sys2Proof.Machine.execPowerOffHoldEnd s
  | .idleEntry u => Sys2Proof.Machine.execIdleEntry u s
  | .retainEntryDone => Sys2Proof.Machine.execRetainEntryDone s
  | .halyardLinkFailure edge => Sys2Proof.Machine.execHalyardLinkFailure edge s
  | .halyardStandbyReturn selfTestOk => Sys2Proof.Machine.execHalyardStandbyReturn selfTestOk s
  | .refreshRateDoubling ch hot => Sys2Proof.Machine.execRefreshRateDoubling ch hot s
  | .neighborDiscovery target => Sys2Proof.Machine.execNeighborDiscovery target s
  | .testAccessPort op => Sys2Proof.Machine.execTestAccessPort op s

end Sys2Proof.Machine
end

