-- ==== Sys2Proof/Safety.lean ====
section
/-!
DEFINITION. The words in which the statements speak: a command that answers a next state, what stays as it was, the invariant of
the memory, and what a safe step is.
-/
namespace Sys2Proof.Safety

open Sys2Proof.Machine

/-- The outcome is a next state with a property. -/
def Answers (o : Host.Outcome State Fault Refusal) (p : State → Prop) : Prop := ∃ t, o = .next t ∧ p t

/-- A safe step answers a next state: it neither faults nor is refused. -/
def SafeStep (s : State) : Prop := ∃ t, step s = .next t

/-- The memory has its canonical form. -/
def CanonicalMemory (s : State) : Prop := Memory.wf s.mem = true

/-- Every byte of memory reads as before. -/
def SameBytes (s t : State) : Prop := ∀ a, Memory.byte t.mem a = Memory.byte s.mem a

/-- Every byte outside `n` bytes from `lo` reads as before. -/
def SameBytesOutside (lo n : Nat) (s t : State) : Prop :=
  ∀ a, (a < lo ∨ lo + n ≤ a) → Memory.byte t.mem a = Memory.byte s.mem a

/-- Every register other than these holds what it held. -/
def SameRegsBut (l : List RegAddr) (s t : State) : Prop :=
  ∀ off, off ∉ l.map regOffset → regStored t off = regStored s off

/-- The newest fault record has a class, a DETAIL and a severity (20_faults.md R536). -/
def NewestFault (t : State) (cls detail sev : Nat) : Prop :=
  ∃ r, t.hal.faults.head? = some r ∧ r.cls = cls ∧ r.detail = detail ∧ r.sev = sev

/-- Fault records go to no ring in memory (20_faults.md R613). -/
def NoFaultRing (s : State) : Prop := gnum s .faultRing = 0

/-- The registers that a rule of their own chapter acts on when they are written. -/
def ownRuleRegisters : List RegId :=
  [.cenCtx, .ldgCtx, .jigQcfg, .jigQptr, .jigErbase, .jigErptr, .jigSalv, .jigRetcfg, .kvpPcfg, .sbdCcfg, .mitCtx, .mitCtxb, .medCtx,
   .medCptr, .ingPipe, .ingRptr, .ingQstat, .chkCtl, .chkState, .chkCnt, .prtMmuinv, .pwrRet]

/-- Somebody other than a VF reaches a register through a link that is up (00_scope.md R8, 01_cabinet.md R38). -/
def Reaches (s : State) (src : Src) (a : RegAddr) : Prop :=
  isVf src = false ∧ linkUp s src = true ∧ regOf (regOffset a) = some a ∧ benchHidden s a = false

/-- The flight `f` of an MI may take a step: its number finds it, and nothing holds its partition back. -/
def Runs (s : State) (mi : Nat) (f : Flight) : Prop :=
  findFlight s mi = some f ∧ awake s = true ∧ memberOut s f.part = false ∧ underScrub s f.part = false

/-- The effect of an MI has come about: it can complete. -/
def Executed (t : State) (mi : Nat) : Prop := ∃ g, findFlight t mi = some g ∧ g.phase = .executed

/-- The translation of an address of a partition answers `pa` without meeting an uncorrectable table entry; `u` is the state after it
(18_partitions.md R496, R498; 12_hbm_lpddr.md R334). -/
def Maps (s u : State) (part va : Nat) (write : Bool) (pa : Nat) : Prop :=
  ((cached s part va).isSome = true ∨ walkBad s part va = []) ∧ translateQuiet s part va write = (.ok pa, u)

/-- No lease of a neighbour's memory is active (11_drawers_tiers.md R326). -/
def NoLease (s : State) : Prop := ∀ k, k < 256 → dnum s .leaseState k 0 ≠ 3 ∧ dnum s .leaseState k 0 ≠ 4

/-- The request of a semaphore access (05_macro_instructions.md R147). -/
def semReq (f : Flight) : Req := { part := some f.part, byVa := true }

/-- A semaphore lies in this device, at `pa`, and can be read: `u` is the state after its translation. -/
def SemHere (s u : State) (f : Flight) (write : Bool) (pa : Nat) : Prop :=
  semAddr f < 2 ^ 48 ∧ Maps s u f.part (semAddr f) write pa ∧ regionOf pa ≠ .neighbor ∧
  (physGet u (semReq f) pa 4 (semAddr f)).cond = none

/-- A write of a context register keeps its ENABLE bit: the register holds what was written, and nothing else changes but the
assignment of the context (18_partitions.md R494) and the directory of a retain pool. -/
def EnableStands (s : State) (a : RegAddr) (v : Nat) (o : Host.Outcome State Fault Refusal) : Prop :=
  Answers o fun t => rget t a = writeFields (regFields a.id) (rget s a) v ∧ rbit t a 0 = true ∧ SameRegsBut [a] s t ∧
    t = { s with regs := t.regs, mmu := { s.mmu with assigned := t.mmu.assigned }, jig := { s.jig with retained := t.jig.retained } }

/-- Hardware clears the ENABLE bit of a context register, and logs it (20_faults.md R616, CONFIG). -/
def EnableRefused (a : RegAddr) (o : Host.Outcome State Fault Refusal) : Prop :=
  Answers o fun t => rbit t a 0 = false ∧ ∃ r ∈ t.hal.faults, r.cls = 8 ∧ r.detail = 1 ∧ r.sub = a.i

/-- An area that a context names, `size` bytes from AREA (bits 45:32), lies in one sideboard slice of its PARTITION
(04_rounding_census_ledger.md, CEN_CTXn). -/
def AreaFits (s : State) (p v size : Nat) : Prop :=
  bits v 45 32 * 0x10000 / 0x4000000 = (bits v 45 32 * 0x10000 + size - 1) / 0x4000000 ∧
  inSlicesOf s p (bits v 15 8) (bits v 45 32 * 0x10000) size = true

/-- What ENABLE of a census, ledger, salvage or retain context of panel `p` is checked for (05_macro_instructions.md R618): the area lies in slices of
PARTITION, the partition has benches and its sync home there, and no other enabled context serves the same. -/
def ContextGood (s : State) (id : RegId) (p n v : Nat) : Prop :=
  (id = .cenCtx → AreaFits s p v ((bits v 27 16 + 1) * 64)) ∧ (id = .ldgCtx → AreaFits s p v ((bits v 27 16 + 1) * 128)) ∧
  (id = .jigSalv → benchesOf s (bits v 15 8) p ≠ [] ∧ syncHome s (bits v 15 8) = some p) ∧
  (id = .jigRetcfg → ∀ k ∈ setPositions 16 (bits v 31 16),
    inSlicesOf s k (bits v 15 8) (bits v 45 32 * 0x10000) (bits v 61 48 * 0x10000) = true) ∧
  otherServes s id (if id = .cenCtx then [p] else allPanels) (if id = .jigRetcfg then 8 else 16) (panelReg id p n)
    (fun y => bits y 15 8 == bits v 15 8 && (id != .jigRetcfg || bits y 3 1 == bits v 3 1)) = false

/-- The ECC counters of a DRAM channel (12_hbm_lpddr.md, HBM_ECCs and R353). -/
def eccReg : DramChan → RegAddr
  | .hbm st _ _ => edgeReg .hbmEcc (st / 2) (st % 2)
  | .lpddr pk _ => edgeReg .lpxEcc (pk / 4) 0

/-- A fault record for a partition, or for none, reaches no memory: no ring of the partition takes its event, and the Halyard writes
no ring (20_faults.md R538, R613). -/
def QuietRecord (s : State) (part : Option Nat) : Prop := NoFaultRing s ∧ ∀ q, part = some q → ringCtx s q 0 = none

/-- An MI that has issued without a failed request of its own and without damage, and that waits for no block of a neighbour
(05_macro_instructions.md R129; 13_inlay.md R378). -/
def ReadyMi (f : Flight) (slots : List Nat) : Prop :=
  f.phase = .issued ∧ (∀ c ∈ f.conds, statusRank c.status ≠ 2) ∧ f.damages = [] ∧ missingRemote f slots = []

/-- The work in which the effect of an MI is tried: it has asked a neighbour for nothing yet (01_cabinet.md R33). -/
def workOf (s : State) (f : Flight) : Work := { s := { s with fab := { s.fab with asks := [] } }, f := f }

/-- An effect that asks a neighbour for nothing and meets no damaged block under FAULT or SALVAGE (01_cabinet.md R33; 10_training.md
R276). -/
def ComesAbout (effect : Work → Work) (w : Work) : Prop := (effect w).s.fab.asks = [] ∧ blocksMi (effect w).f = false

/-- An MI has its effect in this step, and can complete. -/
def HasEffect (o : Host.Outcome State Fault Refusal) (effect : Work → Work) (mi : Nat) (w : Work) : Prop :=
  o = .next (effectOf effect mi w) ∧ Executed (effectOf effect mi w) mi

/-- The MIs whose effect is one function of their flight: command, opcode, source slots, effect. -/
def dataMis : List ((Nat → Instr) × Nat × List Nat × (Work → Work)) :=
  [(.mm, 0x01, [0, 1], effectMatrix false), (.mma, 0x02, [0, 1, 2], effectMatrix true), (.conv, 0x03, [0, 1, 2], effectConv),
   (.attnFwd, 0x04, [0, 1, 2, 5, 6, 7], effectAttnFwd), (.attnBwd, 0x05, [0, 1, 2, 4, 6, 7], effectAttnBwd), (.ew, 0x08, [0, 1, 2], effectEw),
   (.sfuMap, 0x0C, [0], effectSfuMap), (.rowred, 0x09, [0], effectRowred), (.softmax, 0x0A, [0], effectSoftmax),
   (.norm, 0x0B, [0, 1, 2], effectNorm), (.move, 0x10, [0], effectMove), (.mcast, 0x11, [0], effectMcast), (.flush, 0x12, [], effectFlush),
   (.prefetch, 0x13, [], effectPrefetch), (.kvAppend, 0x18, [0, 1], effectKvAppend), (.kvFork, 0x19, [], effectKvFork),
   (.kvFree, 0x1A, [], effectKvFree), (.cantonSelect, 0x1B, [0], effectCantonSelect), (.ledgerUpdate, 0x28, [], effectLedgerUpdate),
   (.censusRead, 0x29, [], effectCensusRead), (.pool, 0x38, [0], effectPool), (.cropResize, 0x39, [0, 1], effectCropResize),
   (.boxDecode, 0x3A, [0, 1], effectBoxDecode), (.nms, 0x3B, [0, 1], effectNms), (.salvageMark, 0x4F, [], effectSalvageMark)]

/-! ## Macro-instructions that nothing stands in the way of (05_macro_instructions.md R129, R152) -/

/-- Every page that a partition's translations hold is a page of 64 KiB or of 2 MiB, where it should be (18_partitions.md R496, R498). -/
def WholePages (s : State) : Prop := ∀ e ∈ s.mmu.tlb, e.va % 0x10000 = 0 ∧ e.size % 0x10000 = 0 ∧ e.pa % 0x10000 = 0

/-- The 64 KiB page at a partition address is translated and allowed, and lies in DRAM, or in a sideboard slice of the partition, of this
device that reads without error. -/
def pageHere (s : State) (part : Nat) (write : Bool) (va : Nat) : Bool :=
  match cached s part va with
  | some e =>
    let pa := e.pa + (va - e.va)
    e.read && (!write || e.write) && poisonFree s pa 0x10000 && (physRefusal s { part := some part } pa 0x10000 write).isNone &&
    (match regionOf pa with | .hbm | .lpddr | .sideboard _ => true | _ => false)
  | none => false

/-- So does every page that `n` bytes from `va` touch; `write` says that they may be written as well as read. -/
def bytesHere (s : State) (part : Nat) (write : Bool) (va n : Nat) : Bool :=
  n == 0 || (List.range ((va + n - 1) / 0x10000 + 1 - va / 0x10000)).all fun i => pageHere s part write ((va / 0x10000 + i) * 0x10000)

/-- The device-physical address that the translations hold for a partition address. -/
def physAddr (s : State) (part va : Nat) : Option Nat := (cached s part va).map fun e => e.pa + (va - e.va)

/-- No tile cache serves a partition (11_drawers_tiers.md R310). -/
def NoCache (s : State) (part : Nat) : Prop :=
  ∀ p n, p < 16 → n < 8 → rbit s (panelReg .sbdCcfg p n) 0 = true → rfield s (panelReg .sbdCcfg p n) 15 8 ≠ part

/-- Who reads and writes an MI's operands in T0 and T1: the bench that a MOVE names, the home panel's unit, the participating units and,
for an MI on a pool, the pool's panel (11_drawers_tiers.md R319; 06_jig.md R169; 08_attention_kv.md R235). -/
def operandUnits (s : State) (f : Flight) : List Exec :=
  (if miOpcode f.word == 0x10 then [moveBench f] else []) ++ homeUnit f :: ((f.roster.flatMap fun e => e.2.map fun b => ({ panel := e.1, bench := b } : Exec)) ++
    (((opPool f).bind (poolOf s f.part)).map tablePlace).toList)

/-- The units that reach the operand of a slot: of an MCAST's destination its targets (06_jig.md R185). -/
def unitsFor (s : State) (f : Flight) (n : Nat) (d : Desc) : List Exec :=
  if miOpcode f.word == 0x11 then (if n == 3 then (mcastTargets s f d).map (·.1) else [homeUnit f]) else operandUnits s f

/-- The bytes from BASE that an operand spans: its image as spill, or its rows by their strides (02_formats.md R72; R137). A collective
may also go over the image with the rows back to back (16_mitre.md R450). -/
def operandSpan (f : Flight) (d : Desc) : Nat :=
  let rows := rowOffset d (d.extents.map (· - 1)) + rowBytes (descFmt d) (descExt d 0)
  if d.format == 0xF then imageBytes f.word d else if mitreMi f then max rows (imageBytes f.word d) else rows

/-- The bytes of an operand's block scales (02_formats.md R56). -/
def scaleSpan (d : Desc) : Nat := if descMx d then (dropAt d.blockAxis d.extents).foldl (· * ·) 1 * scaleRun d else 0

/-- Is the operand of a slot a destination, or a page table that the MI rewrites (08_attention_kv.md R244)? -/
def operandDest (f : Flight) (n : Nat) : Bool := (opDests (miOpcode f.word)).contains n || miOpcode f.word == 0x1A

/-- May a unit make an access of an MI to its drawer or sideboard (11_drawers_tiers.md R300, R305)? -/
def nearAllows (s : State) (f : Flight) (u : Exec) (d : Desc) (n : Nat) (write : Bool) : Bool :=
  (physRefusal s (benchReq f write) (nearAddr s u d.tier d.base) n write).isNone &&
  (match regionOf (nearAddr s u d.tier d.base) with | .drawer _ _ | .sideboard _ => true | _ => false)

/-- An operand is raw and lies whole in this device where the MI may read it, and a destination where it may write it too. -/
def operandHere (s : State) (f : Flight) (n : Nat) (d : Desc) : Bool :=
  let w := operandDest f n
  d.comp == 0 && decide (d.tier < 4) && (fmtOfCode d.format).isSome && (d.format != 0xF || (opSpills f).contains n) &&
  d.extents.length == 5 && d.extents.all (1 ≤ ·) && decide (d.blockAxis < 5) &&
  (if d.tier ≤ 1 then (unitsFor s f n d).all fun u =>
      nearAllows s f u d (operandSpan f d) false && (!w || nearAllows s f u d (operandSpan f d) true)
    else bytesHere s f.part w d.base (operandSpan f d)) &&
  bytesHere s f.part w d.scalePtr (scaleSpan d)

/-- An MI with an opcode has issued without a condition, is not malformed, runs unaudited on whole pages of a machine without errors or
caches in its way, has benches to run on, and all its operands lie here (05_macro_instructions.md R129, R133, R152, R169). -/
structure PlainMi (s : State) (mi : Nat) (f : Flight) (op : Nat) : Prop where
  runs : Runs s mi f
  opcode : miOpcode f.word = op
  fresh : f.phase = .issued ∧ f.conds = [] ∧ f.damages = [] ∧ f.tried = [] ∧ f.puts = [] ∧ f.drops = [] ∧ f.written = [] ∧ f.audit = 0
  wellFormed : opFaults s f [] = []
  sound : s.poison = [] ∧ s.dram.retired = [] ∧ s.dram.fenced = [] ∧ s.retention = [] ∧ CanonicalMemory s
  pages : WholePages s
  uncached : NoCache s f.part
  quiet : QuietRecord s (some f.part)
  benches : f.panel < 16 ∧ f.roster ≠ [] ∧ (∀ e ∈ f.roster, e.1 < 16 ∧ e.2 ≠ [] ∧ ∀ b ∈ e.2, b < 32) ∧
    ∀ d ∈ f.deals, ∃ e ∈ f.roster, e.1 = d.2.1 ∧ d.2.2 ∈ e.2
  operands : ∀ e ∈ flightDescs f, operandHere s f e.1 e.2 = true

/-- The byte ranges of DRAM, by partition address, that an MI stores to: its destinations in T2 and T3, and block scales. -/
def storedSpans (f : Flight) : List (Nat × Nat) :=
  ((flightDescs f).filter fun e => operandDest f e.1).flatMap fun e =>
    (if 2 ≤ e.2.tier then [(e.2.base, operandSpan f e.2)] else []) ++ [(e.2.scalePtr, scaleSpan e.2)]

/-- No byte of DRAM has changed but those of some ranges of a partition. -/
def OnlyStores (s t : State) (part : Nat) (spans : List (Nat × Nat)) : Prop :=
  ∀ a, (regionOf a = .hbm ∨ regionOf a = .lpddr) →
    (∀ r ∈ spans, ∀ i, i < r.2 → physAddr s part (r.1 + i) ≠ some a) → Memory.byte t.mem a = Memory.byte s.mem a

/-- An MI has had its effect, and every condition that it has met is status OK: it can complete with OK (05_macro_instructions.md R152). -/
def EndsOk (t : State) (mi : Nat) : Prop := ∃ g, findFlight t mi = some g ∧ g.phase = .executed ∧ ∀ c ∈ g.conds, c.status = 0

/-- In this step an MI has its effect, meets nothing but OK, and stores to these ranges of DRAM alone. -/
def RunsToEnd (o : Host.Outcome State Fault Refusal) (effect : Work → Work) (mi : Nat) (s : State) (f : Flight)
    (spans : List (Nat × Nat)) : Prop :=
  o = .next (effectOf effect mi (workOf s f)) ∧ EndsOk (effectOf effect mi (workOf s f)) mi ∧
  OnlyStores s (effectOf effect mi (workOf s f)) f.part spans

/-- The three areas of a pool: page map with the free stack, summaries, frames (08_attention_kv.md R236, R238, R246). -/
def poolSpans (p : Pool) : List (Nat × Nat) := [(p.map, 12 * p.pages), (p.ctn, 1024 * p.pages), (p.frames, 0x40000 * p.pages)]

/-- An MI's pool, as R235 admits one, whose areas lie here (08_attention_kv.md). -/
def PoolHere (s : State) (f : Flight) (p : Pool) : Prop :=
  (opPool f).bind (poolOf s f.part) = some p ∧ p.format ∈ [1, 3, 5] ∧ 0 < p.head ∧ p.head ≤ 256 ∧ p.pages < 2 ^ 24 ∧
  ∀ r ∈ poolSpans p, bytesHere s p.part true r.1 r.2 = true

/-- The pages that an MI pinned at issue are pages of its pool, whose free stack has room for them (08_attention_kv.md R240). -/
def PinsStand (s : State) (f : Flight) (p : Pool) : Prop :=
  PoolHere s f p ∧ (∀ id ∈ f.data, id < p.pages) ∧ freePages s p + f.data.length ≤ p.pages

/-- The map entry of a page as it lies in memory, by the translation of the pool's map (08_attention_kv.md R238). -/
def mapEntry (s : State) (p : Pool) (id : Nat) : PageEntry :=
  pageEntryOf (leVal (Memory.read s.mem ((physAddr s p.part (p.map + 8 * id)).getD 0) 8))

/-- A page table of one entry in T2 or T3, whose word is read at `pa` (08_attention_kv.md R237). -/
def OneEntry (s : State) (f : Flight) (n : Nat) (d : Desc) (pa : Nat) : Prop :=
  slotDesc f n = some d ∧ d.extents = [1, 1, 1, 1, 1] ∧ 2 ≤ d.tier ∧ physAddr s f.part d.base = some pa ∧ pa % 4 = 0

/-- The page that a word of a page table names. -/
def pageWord (s : State) (pa : Nat) : Nat := leVal (Memory.read s.mem pa 4) % 2 ^ 24

/-- A COLL with OP `op` of communicator `k` whose parts have all arrived, agree with it, and refuse nothing; no check unit covers it
(16_mitre.md R438, R440). -/
def CollReady (s : State) (f : Flight) (k : Comm) (op : Nat) (arr : List CollArrival) : Prop :=
  commOf s f = some k ∧ collOp f = op ∧ allArrived (neededRanks s k f) arr = true ∧ matched f arr = true ∧ refusedRank arr = none ∧
  collChk f = false

/-- The blocks that the partials of a reduction cover, this member's own first, cover each block once, each part a node of the tree and
none NONCANONICAL (03_exact_sums.md R89, R93; 16_mitre.md R443). -/
def PartsFit (f : Flight) (arr : List CollArrival) : Prop :=
  let ps := (collFirst f, collCount f, 0) :: arr.map fun a => (a.first, a.count, a.flags)
  descTest (slotDesc f 0) (fun d => d.format == 0xF) = false ∧ coverageOk (collNb f) (ps.map fun p => (p.1, p.2.1)) = true ∧
  ∀ p ∈ ps, bit p.2.2 1 = false ∧ isNodeRange (collNb f) p.1 p.2.1 (rangeAligned p.1 p.2.1) = true

/-- The flight of an MI holds a condition with a status and a DETAIL, and can complete. -/
def EndsWith (t : State) (mi status detail : Nat) : Prop :=
  ∃ g, findFlight t mi = some g ∧ g.phase = .executed ∧ ∃ c ∈ g.conds, c.status = status ∧ c.detail = detail

/-- The next output record of a media context can be written: its ring has room, its place lies at `pa` in this device, where the
partition may write, and its vector stands in the table; `u` is the state after the translation (17_media_ingest.md R465). -/
def RecordHere (s u : State) (m : MedCtx) (pa : Nat) : Prop :=
  let va := cbOutRing m.block + 32 * (rfield s (medReg .medCptr m.die m.c) 63 48 % cbRecs m.block)
  medRoom s m ≠ 0 ∧ cbRecs m.block ≤ 4096 ∧ va % 0x10000 + 32 ≤ 0x10000 ∧ Maps s u (medPart s m) va true pa ∧
  regionOf pa ≠ .neighbor ∧ physRefusal u (medReq (medPart s m)) pa 32 true = none ∧ poisonFree u pa 32 = true ∧ s.retention = [] ∧
  (m.irq = true ∨ cbMsix m.block < msixVectors (partFn s (medPart s m)))

/-- From `w` to `t` a media context has written one output record at `pa`: its 32 bytes, OUT_PRODUCER one further, and no other byte
and no other register but MED_STAT (17_media_ingest.md R465). -/
def RecordStands (w t : State) (m : MedCtx) (pa type flags detail count pos id : Nat) : Prop :=
  let ptr := medReg .medCptr m.die m.c
  Memory.read t.mem pa 32 = [type, flags + if m.phase then 128 else 0] ++ leBytes 2 detail ++ leBytes 4 count ++ leBytes 4 pos ++
    leBytes 4 m.outIndex ++ leBytes 8 id ++ leBytes 8 w.time ∧
  SameBytesOutside pa 32 w t ∧ rfield t ptr 63 48 = (rfield w ptr 63 48 % cbRecs m.block + 1) % cbRecs m.block ∧
  rfield t ptr 47 0 = rfield w ptr 47 0 ∧ SameRegsBut [ptr, medReg .medStat m.die 0] w t ∧
  t = { w with regs := t.regs, mem := t.mem, dram := t.dram, mmu := t.mmu, med := t.med, sent := t.sent
               fab := { w.fab with asks := t.fab.asks, arrived := t.fab.arrived } }

/-- No request of an ingest pipe waits in its ring (17_media_ingest.md R478). -/
def NoRequestWaits (s : State) (p : IngPipe) : Prop :=
  rfield s (ingReg .ingRptr p.n) 31 16 % ppReqs p.block = rfield s (ingReg .ingRptr p.n) 15 0 % ppReqs p.block

/-- The state in which a unit is enabled through its register: the value is written, an enabling that still waited for a neighbour is given
up, and nothing has been asked of a neighbour yet (01_cabinet.md R33). -/
def enabling (s : State) (src : Src) (a : RegAddr) (v : Nat) : State :=
  let w := cancelEnable (plainWrite (noteAssigned s src a v) a v) a
  { w with fab := { w.fab with asks := [] } }

/-- Only what the fabric keeps for neighbour accesses without an MI has changed in it. -/
def SameFabric (s t : State) : Prop :=
  t.fab = { s.fab with jobs := t.fab.jobs, arrived := t.fab.arrived, asks := t.fab.asks }

/-- A fabric port of the device that is trained (15_azoer.md R405). -/
def Trained (s : State) (p : Nat) : Prop := p < s.fab.ports.length ∧ 2 ≤ (portAt s p).state

/-- Only one port has changed, its counters, and what has been sent. -/
def OnlyPort (p : Nat) (s t : State) : Prop :=
  (∀ q, q ≠ p → portAt t q = portAt s q) ∧ t.fab.ports.length = s.fab.ports.length ∧ SameRegsBut [portReg .azfPcnt p] s t ∧
  t = { s with fab := { s.fab with ports := t.fab.ports }, regs := t.regs, sent := t.sent }

/-- A port has sent one link control message, and so holds it for a replay; where its replay buffer was full, the message waits
(15_azoer.md R407, R409). -/
def ControlSent (s t : State) (p code : Nat) (fields : List Nat) : Prop :=
  if replayRoom (portAt s p) = 0 ∨ (portAt s p).ctl ≠ [] then
    (portAt t p).ctl = (portAt s p).ctl ++ [[code, 0] ++ fields] ∧ (portAt t p).replay = (portAt s p).replay ∧ t.sent = s.sent
  else
    (portAt t p).replay = (portAt s p).replay ++ [{ seq := (portAt s p).txSeq, kind := 3, body := [code, 0] ++ fields }] ∧
    (portAt t p).txSeq = ((portAt s p).txSeq + 1) % 4096 ∧ t.sent.length = s.sent.length + 1

/-- A whole packet arrives by a trained port at the device that it names (15_azoer.md R412, R414). -/
def ArrivesHere (s : State) (p : Nat) (k : Packet) : Prop :=
  Trained s p ∧ addressed s k = true ∧ k.dst ≠ 0xFFFF ∧ routeTo s k = .here ∧ k.crc = packetCrc k

/-- The packet `a` answers the request `k` with an operation, a status and data; its FSEQ and CRC it gets when it leaves
(15_azoer.md R410, R411, R413). -/
def AnswerTo (s : State) (k a : Packet) (op status : Nat) (data : List Nat) : Prop :=
  a.dst = k.src ∧ a.src = selfAddr s ∧ a.vc = k.vc ∧ a.flow = k.flow ∧ a.tag = k.tag ∧ a.op = op ∧ a.status = status ∧
  a.order = false ∧ a.hopsLeft = 32 ∧ a.payload = data ∧ a.len = data.length

/-- The status of an access for another device, and what its answer carries: data, or the DETAIL of a refusal (15_azoer.md R411). -/
def answerStatus (g : Got) : Nat := (g.cond.map (·.status)).getD 0
def answerData (g : Got) (data : List Nat) : List Nat :=
  if answerStatus g = 0 ∨ answerStatus g = 6 then data else leBytes 2 ((g.cond.map (·.detail)).getD 0)

/-- The device serves a management request anew: its path is open, its stage answers, its REQ_ID is not one of the kept, and a TENANT
has a token, which leaves with it; `u` is the state that then serves it, for the instance `part` (19_dictionary.md R511, R527, R529,
R532). -/
def Served (s u : State) (r : MgmtReq) (answers : Bool) (part : Nat) : Prop :=
  requestPart s r = some part ∧ pathOpen s r.path = true ∧ answers = true ∧ r.version = 1 ∧
  (∀ k ∈ s.hal.mgmt.kept, ¬(k.path = r.path ∧ k.reqId = r.reqId)) ∧
  ((pathRole r.path ≠ .tenant ∧ u = s) ∨
    (pathRole r.path = .tenant ∧ (bucketNow s part).1 ≠ 0 ∧ u = setBucket s part ((bucketNow s part).1 - 1, (bucketNow s part).2)))

/-- A request that writes one object which its role writes, with a value that its type and its range admit; the object is not
staged (19_dictionary.md R510 to R512). -/
def Written (s u : State) (r : MgmtReq) (part : Nat) (row : ObjRow) (o : ObjAddr) : Prop :=
  Served s u r (stageAnswers s (pathRole r.path) r.index r.sub true) part ∧ findObject r.index r.sub part = some (row, o) ∧
  row.write.contains (pathRole r.path) = true ∧ typeOk row r.body = true ∧ rangeOk u row o r.body = true ∧ row.staged = false

/-- Every object but these has the active value that it had. -/
def SameObjectsBut (l : List ObjAddr) (s t : State) : Prop := ∀ o, o ∉ l → dget t o = dget s o

/-- A value that the role of a request reads: a TENANT's is cut to its partition (19_dictionary.md R513). -/
def cutOf (r : MgmtReq) (part : Nat) : Option Nat := if pathRole r.path = .tenant then some part else none

end Sys2Proof.Safety
end

