-- ==== Sys2Proof/Certificates/Slice0/Obligations.lean ====
section
/-!
DEFINITION. The statements about the model. Each docstring names the rules of the spec that the statement formalises, or says that
it states a choice of the model.
-/

open Sys2Proof Sys2Proof.Machine Sys2Proof.Safety

/-! ## The block: its steps, its reset, and what every step keeps -/

/-- The queue is first in, first out: a step runs the command at its front with the rest of the queue. -/
def Obligations.StepRunsTheFrontCommand : Prop :=
  ∀ (i : Instr) (s : State), step { s with pending := i :: s.pending } = exec i s

/-- 21_clocks_power.md R582; log entries 1, 3 and 4 (the model's choices): after reset the device is READY, every register holds its
reset value, no byte of memory is listed, nothing is in flight, and no command waits.
The model's choice (log entry 8): on an empty queue 1 ns passes; a slew removes at most 1 ns, and time never runs backwards
(21_clocks_power.md R565). -/
def Obligations.ResetAndIdleTime : Prop :=
  (
  State.reset.pwr.stage = 6 ∧ awake State.reset = true ∧ State.reset.pending = [] ∧ State.reset.mem = [] ∧
  State.reset.jig.flights = [] ∧ State.reset.fab.ports.length = 12 ∧ (∀ off, regStored State.reset off = resetAt off) ∧
  (∀ a, Memory.byte State.reset.mem a = 0) ∧ CanonicalMemory State.reset) ∧
  (
  ∀ s : State, s.pending = [] → Answers (step s) fun t =>
    s.time ≤ t.time ∧ t.time ≤ s.time + 2 ∧ (s.pen.slew = 0 → t.time = s.time + 1) ∧
    t = { s with time := t.time, pen := { s.pen with slew := t.pen.slew, slewTicks := t.pen.slewTicks } })

/-- Every command has a meaning: no step faults or is refused. -/
def Obligations.NoStepStops : Prop :=
  ∀ s : State, SafeStep s

/-- Every step keeps the canonical form of the memory: strictly rising addresses and no byte listed that reads as an unlisted one
does. -/
def Obligations.EveryStepKeepsMemoryCanonical : Prop :=
  ∀ s t : State, CanonicalMemory s → step s = .next t → CanonicalMemory t

/-- R565: global time never runs backwards. Only a module that has just joined a ring adopts another time, and only one that has never
had the time of a ring counts from 0 when it becomes master. -/
def Obligations.GlobalTimeNeverRunsBackwards : Prop :=
  ∀ (i : Instr) (s t : State), ((∃ f, i = .penTime f) → s.pen.adopted = true) → ((∃ n, i = .penMasterLoss n) → s.pen.timed = true) →
    exec i s = .next t → s.time ≤ t.time

/-- A write keeps every byte outside it and stores every byte inside it. -/
def Obligations.MemoryReadsBackWhatWasWritten : Prop :=
  ∀ (m : List Host.Cell) (a : Nat) (bs : List Nat), Memory.wf m = true →
    Memory.wf (Memory.write m a bs) = true ∧
    (∀ i, i < bs.length → Memory.byte (Memory.write m a bs) (a + i) = bs.getD i 0 % 256) ∧
    (∀ b, (b < a ∨ a + bs.length ≤ b) → Memory.byte (Memory.write m a bs) b = Memory.byte m b) ∧
    (∀ n, Memory.read m a n = (List.range n).map fun i => Memory.byte m (a + i))

/-! ## Registers (00_scope.md, 01_cabinet.md, 18_partitions.md) -/

/-- R9: an aligned 64-bit write sets every RW field, clears the W1C bits and sets the W1S bits that it writes as 1, and leaves every
other field as it was; no other register changes, and no byte of memory.
R8: an aligned 32-bit write, and an access that is not naturally aligned, by whichever function, changes no field. -/
def Obligations.RegisterWritesActByAccessCode : Prop :=
  (
  ∀ (s : State) (src : Src) (a : RegAddr) (v : Nat), Reaches s src a → a.id ∉ ownRuleRegisters → v < 2 ^ 64 →
    Answers (exec (.registerWrite src (regOffset a) 64 v) s) fun t =>
      (∀ f ∈ regFields a.id,
        rfield t a f.hi f.lo =
          match f.acc with
          | .rw => bits v f.hi f.lo
          | .w1c => bits (rget s a) f.hi f.lo - Nat.land (bits (rget s a) f.hi f.lo) (bits v f.hi f.lo)
          | .w1s => Nat.lor (bits (rget s a) f.hi f.lo) (bits v f.hi f.lo)
          | _ => rfield s a f.hi f.lo) ∧
      SameRegsBut [a] s t ∧ t = { s with regs := t.regs, mmu := { s.mmu with assigned := t.mmu.assigned } }) ∧
  (
  ∀ (s : State) (src : Src) (addr v : Nat),
    (isVf src = false ∨ addr % 4 ≠ 0 → exec (.registerWrite src addr 32 v) s = .next s) ∧
    (addr % 8 ≠ 0 → exec (.registerWrite src addr 64 v) s = .next s))

/-- R9 and R8: a 64-bit read answers the register's value and clears its RC fields; a 32-bit read answers the addressed half and
clears the RC fields that lie wholly in it; no other register changes.
R13: a read of an offset that no table defines returns zero, and a write to it is discarded; through a VF the access is counted
in PRT_VIOL as well (18_partitions.md R494). -/
def Obligations.RegisterReadsAnswerAndClear : Prop :=
  (
  ∀ (s : State) (src : Src) (a : RegAddr), Reaches s src a →
    (Answers (exec (.registerRead src (regOffset a) 64) s) fun t =>
      t.sent = .regData src (regOffset a) 64 (bits (regValue s a) 63 0) :: s.sent ∧
      (∀ f ∈ regFields a.id, rfield t a f.hi f.lo = if f.acc = .rc then 0 else rfield s a f.hi f.lo) ∧
      SameRegsBut [a] s t ∧ t = { s with regs := t.regs, sent := t.sent }) ∧
    (∀ h, h < 2 → Answers (exec (.registerRead src (regOffset a + 4 * h) 32) s) fun t =>
      t.sent = .regData src (regOffset a + 4 * h) 32 (bits (regValue s a) (32 * h + 31) (32 * h)) :: s.sent ∧
      (∀ f ∈ regFields a.id, rfield t a f.hi f.lo =
        if f.acc = .rc ∧ 32 * h ≤ f.lo ∧ f.hi ≤ 32 * h + 31 then 0 else rfield s a f.hi f.lo) ∧
      SameRegsBut [a] s t ∧ t = { s with regs := t.regs, sent := t.sent })) ∧
  (
  ∀ (s : State) (src : Src) (off v : Nat), wfSrc src = true → off % 8 = 0 → off < 2 ^ 32 → regOf off = none → linkUp s src = true →
    (Answers (exec (.registerRead src off 64) s) fun t => t.sent.head? = some (.regData src off 64 0)) ∧
    (isVf src = false ∨ vfPart s src = none → exec (.registerWrite src off 64 v) s = .next s) ∧
    (∀ part, vfPart s src = some part → Answers (exec (.registerWrite src off 64 v) s) fun t =>
      rfield t (halReg .prtViol) 59 48 = min (rfield s (halReg .prtViol) 59 48 + 1) 0xFFF ∧
      t.hal.mgmt = s.hal.mgmt ∧ t.jig.flights = s.jig.flights))

/-- 01_cabinet.md R38: the registers of a spare idle or retired bench read zero, at either width and through every function, and
discard writes, MXU_BENCH_ID apart. -/
def Obligations.HiddenBenchReadsZero : Prop :=
  ∀ (s : State) (src : Src) (a : RegAddr) (p b v h : Nat), linkUp s src = true → regOf (regOffset a) = some a → h < 2 →
    a.loc = .bench p b → a.id ≠ .mxuBenchId → (benchState s p b = 1 ∨ benchState s p b = 3) →
    (Answers (exec (.registerRead src (regOffset a) 64) s) fun t => t.sent.head? = some (.regData src (regOffset a) 64 0)) ∧
    (Answers (exec (.registerRead src (regOffset a + 4 * h) 32) s) fun t =>
      t.sent.head? = some (.regData src (regOffset a + 4 * h) 32 0)) ∧
    (Answers (exec (.registerWrite src (regOffset a) 64 v) s) fun t => rget t a = rget s a) ∧
    (isVf src = false →
      exec (.registerRead src (regOffset a) 64) s = .next { s with sent := .regData src (regOffset a) 64 0 :: s.sent } ∧
      exec (.registerWrite src (regOffset a) 64 v) s = .next s)

/-- 18_partitions.md R494: a VF that is bound to a partition reads zero from a register outside it, and its write changes no field of
such a register; without a ring to tell of it, nothing changes but PRT_VIOL and the fault log. -/
def Obligations.VfIsConfinedToItsRegisters : Prop :=
  ∀ (s : State) (l n part v : Nat) (a : RegAddr), linkUp s (.vf l n) = true → vfPart s (.vf l n) = some part →
    regOf (regOffset a) = some a →
    (vfReaches s part a false = false →
      Answers (exec (.registerRead (.vf l n) (regOffset a) 64) s) fun t =>
        t.sent.head? = some (.regData (.vf l n) (regOffset a) 64 0)) ∧
    (vfReaches s part a true = false → Answers (exec (.registerWrite (.vf l n) (regOffset a) 64 v) s) fun t =>
      t.hal.mgmt = s.hal.mgmt ∧ t.jig.flights = s.jig.flights ∧
      (a.id ∉ [.prtViol, .prtXfault, .jigErptr, .jigErbase, .pwrRet, .pwrRetstat, .hbmEcc, .hbmEaddr, .lpxEcc, .lpxEaddr, .azfRtctl] →
        rget t a = rget s a) ∧
      (syncHome s part = none → NoFaultRing s →
        NewestFault t 7 4 0 ∧ SameRegsBut [halReg .prtViol] s t ∧ t = { s with regs := t.regs, hal := t.hal }))

/-! ## Command queues and event rings (05_macro_instructions.md) -/

/-- R128: a doorbell moves TAIL and, with RESUME, ends STOPPED; nothing else changes. A TAIL that would take back slots stops the
queue and raises a CONFIG record with DETAIL 0x0002 instead.
R158: RESET discards every MI in flight of the queue; when no event of the queue waits for room, the queue stands at HEAD and TAIL
0 and not STOPPED. -/
def Obligations.QueuesTakeDoorbellsAndReset : Prop :=
  (
  ∀ (s : State) (src : Src) (p q v : Nat), Reaches s src (panelReg .jigQptr p q) → v < 2 ^ 64 → bit v 34 = false →
    (tailDistance s p q (qTail s p q) ≤ tailDistance s p q (bits v 15 0) →
      (∀ i ∈ [Instr.jigQptrDoorbell src p q v] ++ (if bit v 33 then [Instr.jigQptrResume src p q v] else []),
        Answers (exec i s) fun t =>
          qTail t p q = bits v 15 0 ∧ qHead t p q = qHead s p q ∧ (qStopped t p q = if bit v 33 then false else qStopped s p q) ∧
          SameRegsBut [panelReg .jigQptr p q] s t ∧
          t = { s with regs := t.regs, mmu := { s.mmu with assigned := t.mmu.assigned } })) ∧
    (tailDistance s p q (bits v 15 0) < tailDistance s p q (qTail s p q) →
      Answers (exec (.jigQptrDoorbell src p q v) s) fun t =>
        qTail t p q = qTail s p q ∧ qStopped t p q = true ∧ (∃ r ∈ t.hal.faults, r.cls = 8 ∧ r.detail = 2))) ∧
  (
  ∀ (s : State) (src : Src) (p q v : Nat), Reaches s src (panelReg .jigQptr p q) → v < 2 ^ 64 → bit v 34 = true →
    Answers (exec (.jigQptrReset src p q v) s) fun t =>
      (∀ f ∈ t.jig.flights, ¬(f.panel = p ∧ f.q = q)) ∧
      (s.jig.flights = [] → s.jig.waiting = [] → s.jig.resetting = [] →
        rget t (panelReg .jigQptr p q) = 0 ∧ SameRegsBut [panelReg .jigQptr p q] s t ∧ t.jig.resetting = [] ∧ t.mem = s.mem))

/-- R160 and R618: a ring context of the sync home panel, of 64 records or more, that no other context serves, starts afresh when it
is enabled.
R160 and R162: a write of the consumer index moves it, leaves the producer index, and ends the outstanding interrupt.
R159 to R161: a completion event that waits is written into its ring as soon as there is room: 32 bytes at the producer's place,
and the producer index moves on. -/
def Obligations.EventRingsFillAndDrain : Prop :=
  (
  ∀ (s : State) (src : Src) (p c v : Nat), Reaches s src (panelReg .jigErbase p c) → v < 2 ^ 64 → isVf src = false →
    bit v 0 = true → 6 ≤ bits v 51 48 → syncHome s (bits v 11 4) = some p → p < 16 →
    (∀ k d, k < 16 → d < 64 → (k, d) ≠ (p, c) → rbit s (panelReg .jigErbase k d) 0 = false) → s.jig.waiting = [] → s.jig.resetting = [] →
    Answers (exec (.eringEnable src p c v) s) fun t =>
      rbit t (panelReg .jigErbase p c) 0 = true ∧ rfield t (panelReg .jigErbase p c) 51 48 = bits v 51 48 ∧
      rfield t (panelReg .jigErptr p c) 31 0 = 0 ∧ (ringState t p c).phase = true ∧
      SameRegsBut [panelReg .jigErbase p c, panelReg .jigErptr p c] s t ∧
      t = { s with regs := t.regs, jig := { s.jig with rings := t.jig.rings }, mmu := { s.mmu with assigned := t.mmu.assigned } }) ∧
  (
  ∀ (s : State) (src : Src) (p c v : Nat), Reaches s src (panelReg .jigErptr p c) → v < 2 ^ 64 → s.jig.waiting = [] →
    s.jig.resetting = [] → Answers (exec (.erptrConsumerWrite src p c v) s) fun t =>
      rfield t (panelReg .jigErptr p c) 15 0 = bits v 15 0 ∧
      rfield t (panelReg .jigErptr p c) 31 16 = rfield s (panelReg .jigErptr p c) 31 16 ∧ (ringState t p c).irq = false ∧
      SameRegsBut [panelReg .jigErptr p c] s t ∧
      t = { s with regs := t.regs, jig := { s.jig with rings := t.jig.rings }, mmu := { s.mmu with assigned := t.mmu.assigned } }) ∧
  (
  ∀ (s u : State) (part ring p c pa : Nat) (e : Event), CanonicalMemory s → s.jig.waiting = [e] → s.jig.resetting = [] →
    e.part = part → e.ring = ring → ringCtx s part ring = some (p, c) → ringFull s p c = false →
    rbit s (panelReg .jigErbase p c) 1 = false →
    Maps s u part (rfield s (panelReg .jigErbase p c) 47 12 * 4096 +
      32 * (rfield s (panelReg .jigErptr p c) 31 16 % 2 ^ rfield s (panelReg .jigErbase p c) 51 48)) true pa →
    physRefusal u { part := some part } pa 32 true = none → poisonFree u pa 32 = true → regionOf pa ≠ .neighbor → s.retention = [] →
    Answers (exec (.eventWaitRoom part ring) s) fun t =>
      t.jig.waiting = [] ∧ Memory.read t.mem pa 32 = (eventBytes e (ringState s p c).phase s.time).map (· % 256) ∧ SameBytesOutside pa 32 s t ∧
      rfield t (panelReg .jigErptr p c) 31 16 =
        (rfield s (panelReg .jigErptr p c) 31 16 + 1) % 2 ^ rfield s (panelReg .jigErbase p c) 51 48)

/-- R125 to R131: MI_ISSUE puts the next MI of a ready queue, the only one of its panel that may issue, into flight under the next
number, and moves HEAD past it; every other MI stays as it is. An MI without FENCE, or with nothing of its queue in flight, issues at
once, unless it works on pages, checks its successor or writes a salvage table. One whose slot cannot be read completes with the
refusal. A CHECK that is denied takes its next MI with it (14_integrity.md R391). -/
def Obligations.IssuePutsTheNextMiIntoFlight : Prop :=
  (
  ∀ (s : State) (p q : Nat), queueOpen s p q = true → NoLease s → (∀ x, x < 64 → x ≠ q → qEnabled s p x = false) →
    (∀ r ∈ s.jig.runs, r.panel ≠ p) →
    ∀ g, g = ctrlGet s (qPart s p q) (slotAddr s p q (qHead s p q)) 64 →
      (g.cond = none → miOpcode g.bytes ∉ [0x04, 0x18, 0x19, 0x1A, 0x1B, 0x30, 0x4F] →
        (miFence g.bytes = false ∨ streamFlights s p q none = []) →
        Answers (exec (.miIssue p q) s) fun t =>
          (∃ f, findFlight t s.jig.nextMi = some f ∧ f.panel = p ∧ f.q = q ∧ f.slot = qHead s p q ∧ f.part = qPart s p q ∧
            f.word = g.bytes ∧ f.run = none) ∧ (∀ m, m ≠ s.jig.nextMi → findFlight t m = findFlight s m) ∧
          t.jig.nextMi = s.jig.nextMi + 1 ∧ qHead t p q = (qHead s p q + 1) % qSlots s p q) ∧
      (∀ c, g.cond = some c → Answers (exec (.miIssue p q) s) fun t =>
        (∃ f, findFlight t s.jig.nextMi = some f ∧ f.phase = .executed ∧ f.unread = true ∧ f.conds.map (·.status) = [c.status]) ∧
        (∀ m, m ≠ s.jig.nextMi → findFlight t m = findFlight s m) ∧ qHead t p q = (qHead s p q + 1) % qSlots s p q)) ∧
  (
  ∀ (s u : State) (p q : Nat), queueRun s p q = none → issueQueue s p q = some u → queueTurn s p q = true → s.fab.asks = [] →
    (NoLease s ∨ u.fab.asks = []) → Answers (exec (.miIssue p q) s) fun t =>
      (∃ f, findFlight t s.jig.nextMi = some f ∧ f.panel = p ∧ f.q = q ∧ f.slot = qHead s p q ∧ f.part = qPart s p q) ∧
      (t.jig.nextMi = s.jig.nextMi + 1 ∧ qHead t p q = (qHead s p q + 1) % qSlots s p q ∨
        t.jig.nextMi = s.jig.nextMi + 2 ∧ qHead t p q = (qHead s p q + 2) % qSlots s p q))

/-- R152, R155 and R157: an executed MI that nothing holds back completes: it leaves the flights, and its queue stops under a status
of rank 8 or higher. Without such a status and without EVENT no event is posted.
R152: the status of an MI is that of the condition highest in rank, and the first met among equals. -/
def Obligations.CompletionReportsTheHighestRank : Prop :=
  (
  ∀ (s : State) (mi : Nat) (f : Flight), Runs s mi f → canComplete s f = true → f.run = none →
    Answers (exec (.miComplete mi) s) fun t =>
      findFlight t mi = none ∧ t.mmu.keys = s.mmu.keys ∧ t.time = s.time ∧
      (statusStops (finalCond f.conds f.lenFlag).status = true → qStopped t f.panel f.q = true) ∧
      (statusStops (finalCond f.conds f.lenFlag).status = false → miEvent f.word = false → f.sums = [] → opPool f = none →
        t.sent = s.sent ∧ t.jig.waiting = s.jig.waiting ∧ qStopped t f.panel f.q = qStopped s f.panel f.q)) ∧
  (
  ∀ (cs : List Cond) (b : Bool), cs ≠ [] → (∀ c ∈ cs, c.status ≠ 0 ∧ statusRank c.status < 12) →
    ∃ i, ∃ h : i < cs.length, (finalCond cs b).status = cs[i].status ∧ (cs[i].detail ≠ 0 → (finalCond cs b).detail = cs[i].detail) ∧
      (∀ j, ∀ k : j < cs.length, statusRank cs[i].status ≤ statusRank cs[j].status) ∧
      (∀ j, ∀ k : j < cs.length, j < i → statusRank cs[i].status < statusRank cs[j].status))

/-! ## NOP, semaphores and barriers (05_macro_instructions.md) -/

/-- R146: NOP does nothing but execute.
R147 and R149: WAIT ends when (word − VALUE) mod 2^32, read signed, is zero or greater, and waits when it is not; WAIT_RELEASE
looks again. Neither changes a byte of memory.
R148: SIGNAL adds VALUE to the word mod 2^32 once every earlier MI of its queue has completed, and writes no other byte.
R151: a BARRIER of SCOPE 0 arrives and waits; when COUNT participants have arrived, as many as COUNT complete, the oldest
first.
R147, R151 and R572: the limit of a WAIT, or of a BARRIER of SCOPE 0, ends it with TIMEOUT; its queue's other MIs and memory stay
as they are. A step at a limit means that global time has reached it (log entry 40, the model's choice). -/
def Obligations.NopSemaphoresAndBarriers : Prop :=
  (
  ∀ (s : State) (mi : Nat) (f : Flight), Runs s mi f → f.phase = .issued → miOpcode f.word = 0x00 → f.conds = [] → f.damages = [] →
    f.tried = [] → f.puts = [] → Answers (exec (.nop mi) s) fun t =>
      findFlight t mi = some { f with phase := .executed } ∧ (∀ m, m ≠ mi → findFlight t m = findFlight s m) ∧
      t = { s with jig := { s.jig with flights := t.jig.flights }, fab := { s.fab with asks := [] } }) ∧
  (
  ∀ (s u : State) (mi pa : Nat) (f : Flight), Runs s mi f → miOpcode f.word = 0x40 → SemHere s u f false pa →
    ∀ i, ((i = Instr.wait mi ∧ f.phase = .issued) ∨ (i = .waitRelease mi ∧ f.phase = .waiting)) →
      (semMet (leVal (physGet u (semReq f) pa 4 (semAddr f)).bytes) (semValue f) = true →
        Answers (exec i s) fun t => Executed t mi ∧ t.mem = s.mem ∧ t.time = s.time) ∧
      (semMet (leVal (physGet u (semReq f) pa 4 (semAddr f)).bytes) (semValue f) = false →
        Answers (exec i s) fun t =>
          findFlight t mi = some { f with phase := .waiting } ∧ t.mem = s.mem ∧ t.time = s.time)) ∧
  (
  ∀ (s u : State) (mi pa : Nat) (f : Flight), Runs s mi f → miOpcode f.word = 0x41 → f.phase = .issued → earlier s f = [] →
    SemHere s u f true pa → physRefusal u (semReq f) pa 4 true = none → CanonicalMemory s → poisonFree u pa 4 = true →
    Answers (exec (.signal mi) s) fun t =>
      Executed t mi ∧ SameBytesOutside pa 4 s t ∧
      Memory.read t.mem pa 4 = leBytes 4 ((leVal (Memory.read s.mem pa 4) + semValue f) % 2 ^ 32)) ∧
  (
  ∀ (s : State) (mi : Nat) (f : Flight), Runs s mi f → miOpcode f.word = 0x42 → barScope f = 0 →
    (f.phase = .issued → earlier s f = [] → (∀ a ∈ barArrivals s f.part (barId f), a.count = barCount f) →
      Answers (exec (.barrier mi) s) fun t =>
        findFlight t mi = some { f with phase := .waiting } ∧
        barArrivals t f.part (barId f) = barArrivals s f.part (barId f) ++
          [{ part := f.part, id := barId f, mi := mi, count := barCount f }] ∧
        t = { s with jig := { s.jig with flights := t.jig.flights, arrivals := t.jig.arrivals } }) ∧
    (f.phase = .waiting → 1 ≤ barCount f → barCount f = (barArrivals s f.part (barId f)).length →
      (∀ a ∈ barArrivals s f.part (barId f), (findFlight s a.mi).isSome) →
      Answers (exec (.barrierComplete mi) s) fun t =>
        (∀ a ∈ barArrivals s f.part (barId f), Executed t a.mi) ∧ barArrivals t f.part (barId f) = [])) ∧
  (
  ∀ (s : State) (mi : Nat) (f : Flight), Runs s mi f → f.deadline ≠ 0 → (f.phase = .waiting ∨ f.phase = .issued) → f.conds = [] →
    f.puts = [] → ∀ i, ((i = Instr.waitTimeout mi ∧ miOpcode f.word = 0x40) ∨
        (i = .barrierTimeout mi ∧ miOpcode f.word = 0x42 ∧ barScope f = 0)) →
      Answers (exec i s) fun t =>
        (∃ g, findFlight t mi = some g ∧ g.phase = .executed ∧ (finalCond g.conds g.lenFlag).status = 7) ∧
        t.time = max s.time f.deadline ∧ t.mem = s.mem ∧ (∀ m, m ≠ mi → findFlight t m = findFlight s m))

/-! ## Contexts of a panel (04, 08, 10 and 11, R618) -/

/-- R618 and the ENABLE fields of CEN_CTXn, LDG_CTXn, JIG_SALVn and JIG_RETCFGn: the enable stands exactly when the area lies in
slices of PARTITION, the panel is one that serves it, and no other enabled context serves the same; else hardware clears it. -/
def Obligations.ContextEnableIsChecked : Prop :=
  ∀ (s : State) (src : Src) (id : RegId) (p n v : Nat), id ∈ [RegId.cenCtx, .ldgCtx, .jigSalv, .jigRetcfg] →
    Reaches s src (panelReg id p n) → v < 2 ^ 64 → bit v 0 = true →
    (ContextGood s id p n v → EnableStands s (panelReg id p n) v (exec (.contextEnable src (regOffset (panelReg id p n)) v) s)) ∧
    (¬ContextGood s id p n v → EnableRefused (panelReg id p n) (exec (.contextEnable src (regOffset (panelReg id p n)) v) s))

/-- R235 and R238: an enabled pool context starts to initialise with READY 0; when it is ready, READY is 1, every page is FREE with
GEN 0, and every page lies on the free stack.
R309, R311 and R314: a cache context starts with every frame INVALID; a frame that fills takes the 64 KiB of HBM4 and is CLEAN;
a disable keeps the context in use until its write-backs are done, and then every frame is INVALID. -/
def Obligations.PoolsAndCachesFill : Prop :=
  (
  ∀ (s : State) (p n : Nat),
    (∀ (src : Src) (v : Nat), Reaches s src (panelReg .kvpPcfg p n) → v < 2 ^ 64 → bit v 0 = true →
      poolRefused (plainWrite s (panelReg .kvpPcfg p n) v) (panelReg .kvpPcfg p n)
        (poolAt (plainWrite s (panelReg .kvpPcfg p n) v) p n) = false →
      Answers (exec (.kvpPoolInit src p n v) s) fun t =>
        rbit t (panelReg .kvpPcfg p n) 0 = true ∧ rbit t (panelReg .kvpPstat p n) 24 = false ∧
        rfield t (panelReg .kvpPstat p n) 23 0 = 0 ∧ (p, n) ∈ t.kv.initing ∧
        SameRegsBut [panelReg .kvpPcfg p n, panelReg .kvpPstat p n] s t ∧ t.mem = s.mem) ∧
    (∀ (u : State) (pa : Nat), (p, n) ∈ s.kv.initing → s.retention = [] → CanonicalMemory s → (poolAt s p n).pages < 2 ^ 24 →
      (poolAt s p n).map % 65536 + 12 * (poolAt s p n).pages ≤ 65536 →
      Maps s u (poolAt s p n).part (poolAt s p n).map true pa → regionOf pa ≠ .neighbor →
      physRefusal u { kvReq (poolAt s p n) with byVa := true } pa (12 * (poolAt s p n).pages) true = none →
      poisonFree u pa (12 * (poolAt s p n).pages) = true →
      Answers (exec (.kvpPoolReady p n) s) fun t =>
        rbit t (panelReg .kvpPstat p n) 24 = true ∧ rfield t (panelReg .kvpPstat p n) 23 0 = (poolAt s p n).pages ∧
        (p, n) ∉ t.kv.initing ∧ SameRegsBut [panelReg .kvpPstat p n] s t ∧
        SameBytesOutside pa (12 * (poolAt s p n).pages) s t ∧
        Memory.read t.mem pa (12 * (poolAt s p n).pages) = List.replicate (8 * (poolAt s p n).pages) 0 ++
          ((List.range (poolAt s p n).pages).reverse.flatMap (leBytes 4)))) ∧
  (
  ∀ (s : State) (p n : Nat),
    (∀ (src : Src) (v : Nat), Reaches s src (panelReg .sbdCcfg p n) → v < 2 ^ 64 →
      (bit v 0 = true → cacheRefused (plainWrite s (panelReg .sbdCcfg p n) v) p n = false →
        Answers (exec (.cacheEnable src p n v) s) fun t =>
          rbit t (panelReg .sbdCcfg p n) 0 = true ∧ ctxFrames t p n = [] ∧ SameRegsBut [panelReg .sbdCcfg p n] s t ∧
          t = { s with regs := t.regs, cache := t.cache, mmu := { s.mmu with assigned := t.mmu.assigned } }) ∧
      (bit v 0 = false → rbit s (panelReg .sbdCcfg p n) 0 = true →
        Answers (exec (.cacheDisable src p n v) s) fun t =>
          rbit t (panelReg .sbdCcfg p n) 0 = true ∧ (p, n, v) ∈ t.cache.closing ∧ t.cache.frames = s.cache.frames ∧
          t = { s with cache := t.cache, mmu := { s.mmu with assigned := t.mmu.assigned } })) ∧
    (∀ v : Nat, bit v 0 = false → (s.cache.closing.find? fun c => c.1 == p && c.2.1 == n) = some (p, n, v) →
      Answers (exec (.cacheDisableDone p n) s) fun t =>
        rbit t (panelReg .sbdCcfg p n) 0 = false ∧ ctxFrames t p n = [] ∧
        ((∀ f ∈ ctxFrames s p n, f.state ≠ .dirty) → t.mem = s.mem ∧ SameRegsBut [panelReg .sbdCcfg p n] s t)) ∧
    (∀ (f : CacheFrame) (u : State) (va pa : Nat), findFrame s p n va = some f → f.state = .filling →
      frameRefused s f true = none → Maps s u (rfield s (panelReg .sbdCcfg p n) 15 8) f.addr false pa → s.retention = [] →
      CanonicalMemory s →
      readsPoison u pa 0x10000 = false → poisonFree u (cacheFrameAddr s f) 0x10000 = true →
      Answers (exec (.cacheFillDone p n va) s) fun t =>
        findFrame t p n va = some { f with state := .clean } ∧ t.regs = s.regs ∧
        Memory.read t.mem (cacheFrameAddr s f) 0x10000 = Memory.read s.mem pa 0x10000 ∧
        SameBytesOutside (cacheFrameAddr s f) 0x10000 s t))

/-! ## Macro instructions (03, 05 to 10, 14, 16 and 17) -/

/-- R129 and each MI's own rule: an MI that has issued, whose effect needs nothing of a neighbour and meets no damage that stops it,
comes about in one step with the whole of its effect, and can complete. A KV_APPEND that must copy first starts its copies
(08_attention_kv.md R239); a MOVE on a bench of another partition and an MCAST without a target are apart. -/
def Obligations.DataMiHasItsEffect : Prop :=
  ∀ (s : State) (mi : Nat) (f : Flight), ∀ d ∈ dataMis, Runs s mi f → ReadyMi f d.2.2.1 → miOpcode f.word = d.2.1 →
    (d.2.1 = 0x10 → moveDenied s f = false) → (d.2.1 = 0x11 → mcastNowhere f = false) →
    (d.2.1 = 0x18 → f.data ≠ [] ∨ (startCopies { s := s, f := f }).f.data = []) → ComesAbout d.2.2.2 (workOf s f) →
    HasEffect (exec (d.1 mi) s) d.2.2.2 mi (workOf s f)

/-- R129 and R152, and what each MI computes (R76, R86 and R259; 07_row_functions.md R194, R205, R210, R214 and R219; 09_sliding_window.md
R263, R266, R270 and R272): a well-formed matrix, convolution, element, row or window MI whose operands lie in this device has its effect in
one step, ends with OK, and stores to no byte of DRAM but its destinations' and their block scales' (NMS with BOUND_EN also to the bound
table). An MMA whose accumulate operand is A48 spill, read whole and covering, ends with OK or NONCANONICAL. -/
def Obligations.TiledMisRunToEnd : Prop :=
  (
  ∀ (s : State) (mi : Nat) (f : Flight), ∀ d ∈ [(Instr.mm mi, 0x01, effectMatrix false), (.mma mi, 0x02, effectMatrix true),
      (.conv mi, 0x03, effectConv), (.ew mi, 0x08, effectEw), (.sfuMap mi, 0x0C, effectSfuMap), (.rowred mi, 0x09, effectRowred),
      (.softmax mi, 0x0A, effectSoftmax), (.norm mi, 0x0B, effectNorm), (.pool mi, 0x38, effectPool),
      (.cropResize mi, 0x39, effectCropResize), (.boxDecode mi, 0x3A, effectBoxDecode), (.nms mi, 0x3B, effectNms)],
    PlainMi s mi f d.2.1 → (d.2.1 = 0x02 → descTest (slotDesc f 2) (fun c => c.format == 0xF) = false) →
    ∀ bounds, bounds = (if d.2.1 = 0x3B ∧ bit (pb f 1) 7 = true then
        [(boundAddr s f.panel f.q (bits (pb f 1) 5 0), 4 * descExt ((slotDesc f 0).getD {}) 2)] else []) →
    (∀ r ∈ bounds, bytesHere s f.part true r.1 r.2 = true) →
    RunsToEnd (exec d.1 s) d.2.2 mi s f (storedSpans f ++ bounds)) ∧
  (
  ∀ (s : State) (mi : Nat) (f : Flight) (a b c : Desc) (ts : List SpillTile), PlainMi s mi f 0x02 → slotDesc f 0 = some a →
    slotDesc f 1 = some b → slotDesc f 2 = some c → c.format = 0xF →
    readSpills (workOf s f) c (descExt a 1) (descExt b 1) (dealTiles f (planTiles f.word 1 (descExt a 1) (descExt b 1))) =
      (workOf s f, ts) →
    spillsBad ts (descExt a 1) (descExt b 1) (blockCount (descExt a 0)) = false →
    exec (.mma mi) s = .next (effectOf (effectMatrix true) mi (workOf s f)) ∧
    (∃ g, findFlight (effectOf (effectMatrix true) mi (workOf s f)) mi = some g ∧ g.phase = .executed ∧
      ∀ x ∈ g.conds, x.status = 0 ∨ x.status = 0x0A) ∧
    OnlyStores s (effectOf (effectMatrix true) mi (workOf s f)) f.part (storedSpans f))

/-- R129 and R152; 11_drawers_tiers.md R315 to R318 and 06_jig.md R185 to R188: a well-formed MOVE on benches of its partition, and an
MCAST to benches of it, whose operands lie in this device, have their effect in one step, end with OK, and store to no byte of DRAM but
their destination's (an MCAST only to block scales there).
FLUSH and PREFETCH end with OK; FLUSH with INV and ALL leaves no frame of the partition's contexts on the MI's panels; PREFETCH of one
frame that a context of the one panel serves leaves that frame held. -/
def Obligations.MoversRunToEnd : Prop :=
  (
  ∀ (s : State) (mi : Nat) (f : Flight),
    (PlainMi s mi f 0x10 → moveDenied s f = false → RunsToEnd (exec (.move mi) s) effectMove mi s f (storedSpans f)) ∧
    (PlainMi s mi f 0x11 → mcastNowhere f = false → (∀ d, slotDesc f 3 = some d → ∀ t ∈ mcastTargets s f d, t.2 = true) →
      RunsToEnd (exec (.mcast mi) s) effectMcast mi s f (storedSpans f))) ∧
  (
  ∀ (s : State) (mi : Nat) (f : Flight), Runs s mi f → f.phase = .issued → f.conds = [] → f.damages = [] → f.tried = [] → f.puts = [] →
    (miOpcode f.word = 0x12 → exec (.flush mi) s = .next (effectOf effectFlush mi (workOf s f)) ∧
      EndsOk (effectOf effectFlush mi (workOf s f)) mi ∧
      (bit (param f 40 1) 1 = true → bit (param f 40 1) 2 = true →
        partFrames (effectOf effectFlush mi (workOf s f)) f.part (setPositions 16 f.mask) = [])) ∧
    (miOpcode f.word = 0x13 → exec (.prefetch mi) s = .next (effectOf effectPrefetch mi (workOf s f)) ∧
      EndsOk (effectOf effectPrefetch mi (workOf s f)) mi ∧
      (∀ (p n a : Nat) (d : Desc), slotDesc f 0 = some d → setPositions 16 f.mask = [p] →
        framesTouched (touchedRanges f.word d) = [a] → cacheCtx s p f.part a = some n →
        (findFrame (effectOf effectPrefetch mi (workOf s f)) p n a).isSome = true)))

/-- R129 and R152; 08_attention_kv.md R227, R233 and R247: a well-formed attention MI or CANTON_SELECT whose operands, and whose pinned
pages, lie in this device has its effect in one step, ends with OK, and stores to no byte of DRAM but its destinations', their block
scales' and its pool's.
R239, R241, R243 and R244: KV_FREE of an entry marks it missing, and its page goes to the free stack when nothing else holds it; KV_FORK
of an entry names the same page; KV_APPEND to an empty sequence takes one page from the stack for up to 256 positions. -/
def Obligations.AttentionAndPagesRunToEnd : Prop :=
  (
  ∀ (s : State) (mi : Nat) (f : Flight) (areas : List (Nat × Nat)),
    (PlainMi s mi f 0x04 → attnPartialIn f = false →
      (attnPartialOut f = true → ∀ q d, slotDesc f 0 = some q → slotDesc f 3 = some d → d.extents = q.extents) →
      (attnMask f = 4 → ∀ d, attnX f 0 = some d → ceilDiv (attnPlan s f).nq 64 ≤ descExt d 1 ∧ (attnPlan s f).seqs ≤ descExt d 2 ∧
        (attnPlan s f).heads ≤ descExt d 3) →
      ((attnPaged f = false ∧ areas = []) ∨ (attnPaged f = true ∧ ∃ p, PinsStand s f p ∧ areas = poolSpans p)) →
      RunsToEnd (exec (.attnFwd mi) s) effectAttnFwd mi s f (storedSpans f ++ areas)) ∧
    (PlainMi s mi f 0x05 → RunsToEnd (exec (.attnBwd mi) s) effectAttnBwd mi s f (storedSpans f)) ∧
    (PlainMi s mi f 0x1B → (∃ p, PinsStand s f p ∧ areas = poolSpans p) →
      RunsToEnd (exec (.cantonSelect mi) s) effectCantonSelect mi s f (storedSpans f ++ areas))) ∧
  (
  ∀ (s : State) (mi : Nat) (f : Flight) (p : Pool) (d : Desc) (pa : Nat), PoolHere s f p →
    (PlainMi s mi f 0x1A → OneEntry s f 0 d pa → f.lens.getD 0 0 = 0 → pageWord s pa < p.pages →
      let e := mapEntry s p (pageWord s pa)
      1 ≤ e.ref → freePages s p < p.pages → let t := effectOf effectKvFree mi (workOf s f)
      exec (.kvFree mi) s = .next t ∧ EndsOk t mi ∧ pageWord t pa = noPage ∧
      freePages t p = freePages s p + (if e.ref = 1 ∧ e.pin = 0 then 1 else 0)) ∧
    (∀ (src : Desc) (ps : Nat), PlainMi s mi f 0x19 → OneEntry s f 0 src ps → OneEntry s f 3 d pa → pageWord s pa = noPage →
      pageWord s ps < p.pages → (mapEntry s p (pageWord s ps)).state = 1 → (mapEntry s p (pageWord s ps)).ref < 0xFFFF →
      1 ≤ f.lens.getD 0 0 → f.lens.getD 0 0 ≤ 256 → let t := effectOf effectKvFork mi (workOf s f)
      exec (.kvFork mi) s = .next t ∧ EndsOk t mi ∧ pageWord t pa = pageWord s ps ∧ freePages t p = freePages s p) ∧
    (∀ k, PlainMi s mi f 0x18 → slotDesc f 0 = some k → OneEntry s f 3 d pa → f.data = [] → pageWord s pa = noPage →
      f.lens.getD 0 0 = 0 → 1 ≤ appendCount f k 0 → appendCount f k 0 ≤ 256 → 1 ≤ freePages s p → freePages s p ≤ p.pages →
      leVal (Memory.read s.mem ((physAddr s p.part (stackAddr p (freePages s p - 1))).getD 0) 4) % 2 ^ 24 < p.pages →
      let t := effectOf effectKvAppend mi (workOf s f)
      exec (.kvAppend mi) s = .next t ∧ EndsOk t mi ∧ freePages t p = freePages s p - 1))

/-- 04_rounding_census_ledger.md R117, R121, R122 and R619: LEDGER_UPDATE and CENSUS_READ have their effect in one step and end with OK.
LEDGER_UPDATE of one entry stores the entry that R122 gives for its merged census record; CENSUS_READ of one entry without the
summary stores that record at its destination.
10_training.md R286 and R288: SALVAGE_MARK ends with OK and stores its entry, VALID with the fields of the MI, or with VALID clear. -/
def Obligations.RecordMisRunToEnd : Prop :=
  (
  ∀ (s : State) (mi : Nat) (f : Flight),
    (PlainMi s mi f 0x28 →
      RunsToEnd (exec (.ledgerUpdate mi) s) effectLedgerUpdate mi s f [] ∧
      (∀ (e a : Nat) (c : Cen) (u : State), selEntries f = [e] → readCensus (workOf s f).s f.part e (bit (param f 44 1) 0) = (c, u) →
        ledgerAddr u f.part e = some a → physRefusal u (areaReq f.part) a 128 true = none →
        Memory.read (effectOf effectLedgerUpdate mi (workOf s f)).mem a 128 =
          (ledgerBytes (ledgerUpdate (bit (param f 44 1) 1) c (ledgerOfBytes (Memory.read u.mem a 128)))).map (· % 256))) ∧
    (PlainMi s mi f 0x29 →
      RunsToEnd (exec (.censusRead mi) s) effectCensusRead mi s f (storedSpans f) ∧
      (∀ (e pa : Nat) (d : Desc), selEntries f = [e] → slotDesc f 3 = some d → 2 ≤ d.tier → bit (param f 44 1) 1 = false →
        physAddr s f.part d.base = some pa →
        Memory.read (effectOf effectCensusRead mi (workOf s f)).mem pa 64 =
          (cenBytes (readCensus (workOf s f).s f.part e (bit (param f 44 1) 0)).1).map (· % 256)))) ∧
  (
  ∀ (s : State) (mi : Nat) (f : Flight) (c : Nat × Nat) (d : Desc) (a pa : Nat), PlainMi s mi f 0x4F → slotDesc f 0 = some d →
    salvCtx s f.part = some c → salvAddr s c (param f 40 2) = some a → bytesHere s f.part true a 64 = true →
    physAddr s f.part a = some pa →
    RunsToEnd (exec (.salvageMark mi) s) effectSalvageMark mi s f [(a, 64)] ∧
    let old := salvOfBytes (Memory.read s.mem pa 64)
    let fl := param f 58 1
    Memory.read (effectOf effectSalvageMark mi (workOf s f)).mem pa 64 =
      (salvBytes (if bit fl 1 then { old with flags := setBits old.flags 0 0 0 }
        else { old with id := param f 40 2, flags := 1 + (if bit fl 0 then 2 else 0), count := param f 42 2, descM1 := param f 56 2
                        prog := param f 44 6, descs := param f 50 6, step := miStep f.word, tensorId := d.tensorId })).map (· % 256))

/-- 16_mitre_mapping.md R438, R440 to R451: a well-formed COLL whose parts have all arrived and agree, and whose operands lie in this
device, has its effect in one step, ends with OK and stores to no byte of DRAM but its destinations' and their block scales'; a
reduction where its partials cover each block once as nodes of the tree, a PERMUTE where its move list is valid.
10_training.md R289 and R290: a KEEP that fits leaves its tensor retained; a FETCH that hits ends with OK, and so does one that misses and
gathers. -/
def Obligations.CollectivesRunToEnd : Prop :=
  (
  ∀ (s : State) (mi : Nat) (f : Flight) (arr : List CollArrival) (k : Comm), PlainMi s mi f 0x20 →
    ∀ row ∈ [(Instr.allReduce mi arr, 0), (.reduceScatter mi arr, 1), (.allGather mi arr, 2), (.allToAll mi arr, 3), (.kvPass mi arr, 4),
        (.permute mi arr, 5)],
      CollReady s f k row.2 arr → (row.2 ≤ 1 → PartsFit f arr) →
      (row.2 = 5 → f.data = [] ∧ movesOk k f (readMoves (workOf s f)).2 = true) →
      RunsToEnd (exec row.1 s) (collEffect row.2 arr) mi s f (storedSpans f)) ∧
  (
  ∀ (s : State) (mi : Nat) (f : Flight) (arr : List CollArrival) (c : Nat × Nat) (d : Desc), PlainMi s mi f 0x21 →
    retPool s f.part (retPoolNo f) = some c → slotDesc f 3 = some d →
    (∀ k, commOf s f = some k → allArrived (otherRanks k) arr = true → gatherMatched f arr = true → refusedRank arr = none →
      (retMode f = 0 → keptBy s c mi = none → retFits s c [] (gatheredSize d) = true → let t := effectOf (keepEffect arr) mi (workOf s f)
        exec (.gatherRetainKeep mi arr) s = .next t ∧ EndsOk t mi ∧ OnlyStores s t f.part (storedSpans f) ∧
        ∃ r ∈ retEntries t c, r.key = retKey f ∧ r.step = miStep f.word ∧ r.size = gatheredSize d ∧ r.filling = none) ∧
      (retMode f = 1 → f.run = none → retHit s f c = none →
        RunsToEnd (exec (.gatherRetainFetch mi arr) s) (fetchEffect arr) mi s f (storedSpans f))) ∧
    (∀ r, retMode f = 1 → retHit s f c = some r → r.filling = none →
      (∀ x ∈ r.frames, (∃ p, regionOf (retFrameAddr s c x) = .sideboard p) ∧
        physRefusal s (areaReq f.part) (retFrameAddr s c x) 0x10000 false = none) →
      RunsToEnd (exec (.gatherRetainFetch mi arr) s) (fetchEffect arr) mi s f (storedSpans f)))

/-- An MI acts on memory, registers, its own flight, caches, free values and the fabric: no MI changes global time, a key, the clocks,
the power state, the ring, a media context, a pipe or a spare map, and every other MI stays as it is. -/
def Obligations.DataMiLeavesOtherUnitsAlone : Prop :=
  ∀ (s t : State) (mi : Nat), ∀ d ∈ dataMis, exec (d.1 mi) s = .next t →
    (∀ m, m ≠ mi → findFlight t m = findFlight s m) ∧ t.jig.nextMi = s.jig.nextMi ∧
    t = { s with regs := t.regs, mem := t.mem, poison := t.poison, jig := t.jig, cache := t.cache, dram := t.dram
                 mmu := { s.mmu with tlb := t.mmu.tlb }, fab := t.fab, hal := t.hal, retention := t.retention, sent := t.sent
                 freeCtr := t.freeCtr }

/-- R319: a MOVE on a bench that the partition does not own ends with DENIED, DETAIL 0x0100, and changes no byte.
R187: an MCAST with no target completes without any access.
R276, R280 and R285: damage under FAULT, or under SALVAGE with no table, ends the MI with DAMAGED; damage under SALVAGE with a valid
entry of its tensor parks it and starts the run. At the end of a run its consumers re-read, or end with DAMAGED when it failed. -/
def Obligations.RefusedAndDamagedMisEnd : Prop :=
  (
  ∀ (s : State) (mi : Nat) (f : Flight), Runs s mi f → f.phase = .issued → miOpcode f.word = 0x10 → moveDenied s f = true → f.puts = [] →
    Answers (exec (.move mi) s) fun t =>
      EndsWith t mi 2 0x0100 ∧ (∀ m, m ≠ mi → findFlight t m = findFlight s m) ∧
      t = { s with jig := { s.jig with flights := t.jig.flights } }) ∧
  (
  ∀ (s : State) (mi : Nat) (f : Flight), Runs s mi f → f.phase = .issued → miOpcode f.word = 0x11 → mcastNowhere f = true → f.puts = [] →
    Answers (exec (.mcast mi) s) fun t =>
      (∃ g, findFlight t mi = some g ∧ g.phase = .executed ∧ g.conds = f.conds ++ zeroedCond f ++ salvagedCond f) ∧
      (∀ m, m ≠ mi → findFlight t m = findFlight s m) ∧ t = { s with jig := { s.jig with flights := t.jig.flights } }) ∧
  (
  (∀ (s : State) (mi : Nat) (f : Flight) (d : Damage), Runs s mi f → f.phase = .damaged → f.puts = [] → f.tried = [] →
    decidingDamage f = some d → s.fab.asks = [] →
    (d.policy = 0 → Answers (exec (.damagePark mi) s) fun t => EndsWith t mi 3 d.detail ∧ t.mem = s.mem) ∧
    (d.policy = 2 → salvCtx s f.part = none → Answers (exec (.damagePark mi) s) fun t => EndsWith t mi 3 0x0403 ∧ t.mem = s.mem) ∧
    (∀ (c : Nat × Nat) (a : Nat) (u : State) (e : SalvEntry), d.policy = 2 → salvCtx s f.part = some c →
      salvAddr s c d.salvage = some a → salvGet s f.part c a = (u, e) → bit e.flags 0 = true →
      e.tensorId = ((slotDesc f d.slot).map (·.tensorId)).getD 0 → runOf s f.part d.salvage = none →
      (NoLease s ∨ (u.fab.asks = [] ∧ (parkFlight f s).fab.asks = [])) →
      Answers (exec (.damagePark mi) s) fun t =>
        (∃ g, findFlight t mi = some g ∧ g.phase = .parked ∧ g.tried = [(d.salvage, 0)]) ∧
        ∃ r, runOf t f.part d.salvage = some r ∧ r.addr = d.addr ∧ r.panel = f.panel ∧ r.q = f.q ∧ r.next = 0 ∧ r.left = e.count ∧
          r.prog.length = e.count ∧ r.failed = false)) ∧
  (∀ (s : State) (part id : Nat) (r : SalvageRun), runOf s part id = some r → runOver s r = true → s.fab.asks = [] →
    (NoLease s ∨ (endRun r s).fab.asks = []) → Answers (exec (.salvageRunEnd part id) s) fun t =>
      runOf t part id = none ∧ ∀ f ∈ parkedOn s part id,
        if r.failed then ∃ g, findFlight t f.mi = some g ∧ g.phase = .executed ∧ ∃ c ∈ g.conds, c.status = 3
        else ∃ g, findFlight t f.mi = some g ∧ g.phase = .issued))

/-- R388 to R393: a CHECK comes about once its bound MI has; the home panel's unit then holds the register and the byte count over the
image, and a mismatch ends both MIs with CHECK_MISMATCH.
R290: KEEP, and a FETCH that misses, gather once every shard has arrived, and a KEEP is FILLING from the first on; a FETCH that hits
needs none, and waits while its entry is FILLING; DROP removes the entry of its
KEY and STEP and DROP_ALL every entry of its pool, and neither changes a byte of memory. -/
def Obligations.ChecksAndRetainPools : Prop :=
  (
  ∀ (s : State) (mi : Nat) (c b : Flight), Runs s mi c → c.phase = .issued → miOpcode c.word = 0x30 → boundMi s c = some b → b.mi ≠ mi →
    c.puts = [] →
    (b.phase ≠ .executed → exec (.check mi) s = .next s) ∧
    (b.phase = .executed → awaits s b.mi = false → b.puts = [] → b.noEffect = false → chkSide c = false → chkResult c = 0 →
      Answers (exec (.check mi) s) fun t =>
        Executed t mi ∧ t.mem = s.mem ∧
        rget t (panelReg .chkState c.panel (chkUnit c)) = crcRun (chkPoly c) (chkStart s c).1 b.bytes % 2 ^ 64 ∧
        rget t (panelReg .chkCnt c.panel (chkUnit c)) = ((chkStart s c).2 + b.bytes.length) % 2 ^ 48 ∧
        (chkCompare c = true → (crcRun (chkPoly c) (chkStart s c).1 b.bytes ^^^ crcXorOut (chkPoly c)) ≠ chkExpect c →
          EndsWith t mi 0x0C 0x0810 ∧
          rfield t (panelReg .chkCtl c.panel (chkUnit c)) 47 32 = satAdd 16 (rfield s (panelReg .chkCtl c.panel (chkUnit c)) 47 32) 1))) ∧
  (
  ∀ (s : State) (mi : Nat) (f : Flight) (arr : List CollArrival) (c : Nat × Nat), findFlight s mi = some f → awake s = true →
    miOpcode f.word = 0x21 → retPool s f.part (retPoolNo f) = some c →
    (∀ k, ReadyMi f [0] → retMode f = 0 → commOf s f = some k →
      (allArrived (otherRanks k) arr = true → ComesAbout (keepEffect arr) (workOf s f) →
        HasEffect (exec (.gatherRetainKeep mi arr) s) (keepEffect arr) mi (workOf s f)) ∧
      (allArrived (otherRanks k) arr = false → arr ≠ [] → exec (.gatherRetainKeep mi arr) s = .next (keepBegin arr f s))) ∧
    (retMode f = 1 →
      (∀ r, retHit s f c = some r → r.filling ≠ none → exec (.gatherRetainFetch mi arr) s = .next s) ∧
      (ReadyMi f (if (retHit s f c).isSome then [] else [0]) → f.run = none → (∀ r, retHit s f c = some r → r.filling = none) →
        ((retHit s f c).isSome = true ∨ ∃ k, commOf s f = some k ∧ allArrived (otherRanks k) arr = true) →
        ComesAbout (fetchEffect arr) (workOf s f) →
        HasEffect (exec (.gatherRetainFetch mi arr) s) (fetchEffect arr) mi (workOf s f))) ∧
    (ReadyMi f [] → f.puts = [] → ∀ row ∈ [(Instr.gatherRetainDrop mi, 2, false), (.gatherRetainDropAll mi, 3, true)],
      retMode f = row.2.1 → Answers (exec row.1 s) fun t =>
        Executed t mi ∧ t.mem = s.mem ∧
        ∀ r, r ∈ retEntries t c ↔ r ∈ retEntries s c ∧ row.2.2 = false ∧ ¬(r.key = retKey f ∧ r.step = miStep f.word)))

/-- R436 to R438: an enabled Mitre context keeps the member table that it read when the device's own address stands at RANK and no address
twice, and its sequence counters are 0; else hardware clears ENABLE on every engine.
R481: a CLAIM takes up to COUNT ready samples once MIN are ready and waits before that; a RELEASE frees the oldest claimed slots; a
limit that passes claims nothing.
R172, R173 and R175: under SHARED a panel that asks takes the next panel tile, unless it holds H of them open; a bench of it takes the
next drawer tile that the panel holds, unless it holds O_b open, and waits where there is none. -/
def Obligations.ContextsFeedMis : Prop :=
  (
  ∀ (s u : State) (src : Src) (c v : Nat) (ms : Option (List Nat)), c < 64 → Reaches s src (edgeReg .mitCtx 0 c) → v < 2 ^ 64 →
    bit v 0 = true →
    (let s1 := mitAll (cancelEnable (noteAssigned s src (edgeReg .mitCtx 0 c) v) (edgeReg .mitCtx 0 c)) (edgeReg .mitCtx 0 c) fun s b =>
      plainWrite s b v
     readMembers { s1 with fab := { s1.fab with asks := [] } } c = (u, ms)) → (NoLease s ∨ u.fab.asks = []) →
    Answers (exec (.mitreContextEnable src c v) s) fun t =>
      (∀ l, ms = some l → membersOk u c l = true →
        (t.mit.members.find? fun e => e.1 == c) = some (c, l) ∧
        ∀ e, e < 4 → rget t (edgeReg .mitCtx e c) = rget u (edgeReg .mitCtx e c) ∧ rfield t (edgeReg .mitCtxb e c) 63 48 = 0) ∧
      ((ms = none ∨ ∃ l, ms = some l ∧ membersOk u c l = false) →
        (∀ e, e < 4 → rbit t (edgeReg .mitCtx e c) 0 = false) ∧ ∃ r ∈ t.hal.faults, r.cls = 8 ∧ r.detail = 1)) ∧
  (
  ∀ (s : State) (mi : Nat) (f : Flight) (p : IngPipe), Runs s mi f → ReadyMi f [] → miOpcode f.word = 0x48 → pullTarget s f = some p →
    f.puts = [] →
    (pullEarlier s f = false → pullOp f = 0 →
      (p.ready.length < pullMin f → exec (.ingestPullClaim mi) s = .next s) ∧
      (pullMin f ≤ p.ready.length → (NoLease s ∨ ComesAbout (claimEffect p) (workOf s f)) →
        Answers (exec (.ingestPullClaim mi) s) fun t => Executed t mi ∧
        findPipe t p.n = some { p with
          ready := p.ready.drop (pullCount f), claimed := p.claimed ++ (p.ready.take (pullCount f)).map (·.slot) })) ∧
    (pullEarlier s f = false → pullOp f = 1 → pullCount f ≤ p.claimed.length → Answers (exec (.ingestPullRelease mi) s) fun t =>
      Executed t mi ∧ findPipe t p.n = some { p with claimed := p.claimed.drop (pullCount f) } ∧ t.mem = s.mem) ∧
    (pullOp f = 0 → f.deadline ≠ 0 → p.ready.length < pullMin f → Answers (exec (.ingestClaimTimeout mi) s) fun t =>
      EndsWith t mi 7 0 ∧ findPipe t p.n = some p ∧ t.mem = s.mem ∧ t.time = max s.time f.deadline)) ∧
  (
  ∀ (s : State) (mi p : Nat) (f : Flight), Runs s mi f → f.phase = .issued → miShared f.word = true → p ∈ panelsOf f →
    (f.panelDeals.length < (tilePlan s f).length → heldPanelTiles s f p < (dealLimits s f p).2 → (∀ x ∈ f.waiters, x.1 ≠ p) →
      Answers (exec (.tileDealShared mi p { bench := none }) s) fun t =>
        findFlight t mi = some { f with panelDeals := f.panelDeals ++ [(f.panelDeals.length, p)] } ∧
        (∀ m, m ≠ mi → findFlight t m = findFlight s m) ∧ t = { s with jig := { s.jig with flights := t.jig.flights } }) ∧
    ((dealLimits s f p).2 ≤ heldPanelTiles s f p → Answers (exec (.tileDealShared mi p { bench := none }) s) fun t => findFlight t mi = some f) ∧
    (∀ b, b ∈ dealtBenches f p →
      ((dealLimits s f p).1 ≤ heldTiles f p b →
        Answers (exec (.tileDealShared mi p { bench := some b }) s) fun t => findFlight t mi = some f) ∧
      (heldTiles f p b < (dealLimits s f p).1 →
        (readyTiles s f p = [] → Answers (exec (.tileDealShared mi p { bench := some b }) s) fun t =>
          findFlight t mi = some { f with waiters := f.waiters.filter (· != (p, b)) ++ [(p, b)] }) ∧
        (∀ x, (readyTiles s f p).head? = some x → s.retention = [] → Answers (exec (.tileDealShared mi p { bench := some b }) s) fun t =>
          findFlight t mi = some { f with deals := f.deals ++ [(x.no, p, b)], waiters := f.waiters.filter (· != (p, b)) } ∧
          rfield t (panelReg .jigSqstat p 0) 31 16 = satAdd 16 (rfield s (panelReg .jigSqstat p 0) 31 16) 1 ∧
          SameRegsBut [panelReg .jigSqstat p 0] s t ∧ t = { s with regs := t.regs, jig := { s.jig with flights := t.jig.flights } }))))

/-- R438 to R440 and R447: a COLL waits for every rank that it needs; it then comes about with its effect; COLLs that disagree end with
DENIED, DETAIL 0x0A03, and write nothing. A PERMUTE carries out the entries that what has arrived allows. A COLL or a gather whose limit
passes ends with TIMEOUT.
R90, R93: a partial that reaches a block of an output twice, or one beyond n_b, ends its MMA with DETAIL 0x000E and no output; a partial
that leaves blocks uncovered is kept, unless it is the last, which ends the MMA so too; the partial that covers the last block ends the
MI with its result.
R78 and R81: the order of the products of a narrow block does not affect its value. -/
def Obligations.CollectivesAndCombiners : Prop :=
  (
  ∀ (s : State) (mi : Nat) (f : Flight) (arr : List CollArrival), findFlight s mi = some f → awake s = true →
    (∀ row ∈ [(Instr.allReduce mi arr, 0), (.reduceScatter mi arr, 1), (.allGather mi arr, 2), (.allToAll mi arr, 3), (.kvPass mi arr, 4),
        (.permute mi arr, 5)], ∀ k, ReadyMi f [0] → miOpcode f.word = 0x20 → collOp f = row.2 → commOf s f = some k →
      (allArrived (neededRanks s k f) arr = false →
        exec row.1 s = .next (if row.2 = 5 then permuteSome k arr f { s with fab := { s.fab with asks := [] } } else s)) ∧
      (allArrived (neededRanks s k f) arr = true → ComesAbout (collEffect row.2 arr) (workOf s f) →
        HasEffect (exec row.1 s) (collEffect row.2 arr) mi (workOf s f) ∧
        (matched f arr = false → f.puts = [] →
          EndsWith (effectOf (collEffect row.2 arr) mi (workOf s f)) mi 2 0x0A03 ∧
          (effectOf (collEffect row.2 arr) mi (workOf s f)).mem = s.mem))) ∧
    (waitsMembers f = true → f.puts = [] → Answers (exec (.collTimeout mi) s) fun t =>
      EndsWith t mi 7 0 ∧ t.mem = s.mem ∧ t.time = max s.time f.deadline ∧ (∀ m, m ≠ mi → findFlight t m = findFlight s m) ∧
      ∀ e, e < 4 → rfield t (edgeReg .mitStat e 0) 47 32 = satAdd 16 (rfield s (edgeReg .mitStat e 0) 47 32) 1)) ∧
  (
  ∀ (s : State) (mi : Nat) (p : Partial) (f : Flight) (c : Combiner) (a b d : Desc), findFlight s mi = some f → miOpcode f.word = 0x02 →
    (f.phase = .issued ∨ f.phase = .waiting) → c = (findComb s mi).getD { mi := mi, nb := combBlocks s f } →
    slotDesc f 0 = some a → slotDesc f 1 = some b → slotDesc f 3 = some d →
    ((p.count = 0 ∨ c.nb < p.first + p.count ∨ ∃ q ∈ c.partials, partialsOverlap p q = true) →
      Answers (exec (.combinerPartialArrival mi p) s) fun t =>
        EndsWith t mi 2 0x000E ∧ findComb t mi = none ∧ t.mem = s.mem ∧ t.regs = s.regs) ∧
    (p.count ≠ 0 → p.first + p.count ≤ c.nb → (∀ q ∈ c.partials, partialsOverlap p q = false) →
      (combComplete { c with partials := c.partials ++ [p] } (descExt a 1) (descExt b 1) = false →
        (p.last = false → Answers (exec (.combinerPartialArrival mi p) s) fun t =>
          (∃ k, findComb t mi = some k ∧ k.partials = c.partials ++ [p] ∧ k.nb = c.nb) ∧
          findFlight t mi = some { f with phase := .waiting } ∧ t.mem = s.mem ∧ t.regs = s.regs) ∧
        (p.last = true → Answers (exec (.combinerPartialArrival mi p) s) fun t =>
          EndsWith t mi 2 0x000E ∧ findComb t mi = none ∧ t.mem = s.mem ∧ t.regs = s.regs)) ∧
      (combComplete { c with partials := c.partials ++ [p] } (descExt a 1) (descExt b 1) = true →
        Answers (exec (.combinerPartialArrival mi p) s) fun t => Executed t mi ∧ findComb t mi = none))) ∧
  (
  ∀ (ps qs : List (Val × Val)) (xa xb : Val), ps.Perm qs → narrowBlock ps xa xb = narrowBlock qs xa xb)

/-! ## Sums that do not depend on their order (03_exact_sums.md) -/

/-- R85 to R88: the carry stack of a bench, fed its block values in ascending absolute index, returns the root of the canonical
tree. -/
def Obligations.CarryStackIsTheTree : Prop :=
  ∀ blocks : List Acc, carryRoot blocks = treeRoot blocks

/-- R89, R90 and R98: a combiner whose partials are nodes of the tree and cover every block once returns the root of the canonical tree,
in whatever order they arrive. -/
def Obligations.CombinerIsTheTree : Prop :=
  ∀ (blocks : List Acc) (es : List (Nat × Nat × Acc)), blocks ≠ [] →
    coverageOk blocks.length (es.map fun e => (e.1, e.2.1)) = true →
    (∀ e ∈ es, isNodeRange blocks.length e.1 e.2.1 (rangeAligned e.1 e.2.1) = true ∧
      e.2.2 = treeRoot ((blocks.drop e.1).take e.2.1)) →
    combineElem blocks.length es [] = treeRoot blocks

/-! ## Drawers, DRAM, retention and translations (06, 11, 12, 14 and 18) -/

/-- R296 and R297: when both ports write one word, port A's write takes effect and port B's beat is dropped whole and logged; the MI
behind it meets LOST, and a remote write is answered LOST. The ingest die and the Halyard repeat the beat, and report LOST when the
repeat is dropped too.
R191: a beat that fails parity leaves every code unit that it touches uncorrectable, counts, raises an ACCESS record, and its MI
meets POISON. -/
def Obligations.BeatsAreDroppedOrPoisoned : Prop :=
  (
  ∀ (s : State) (p b word master beat off : Nat) (aBytes bBytes : List Nat),
    sharedWord (8 * word) aBytes.length beat bBytes.length = some off → CanonicalMemory s →
    poisonFree s (drawerBase p b + 8 * word) aBytes.length = true →
    let log := benchReg .drwCollide p b 0
    (master ≠ 3 → master ≠ 5 →
      (∀ (m : Nat) (f : Flight), findFlight s m = some f →
        Answers (exec (.drawerPortCollision p b word master aBytes beat bBytes { mi := some m }) s) fun t =>
          Memory.read t.mem (drawerBase p b + 8 * word) aBytes.length = aBytes.map (· % 256) ∧
          SameBytesOutside (drawerBase p b + 8 * word) aBytes.length s t ∧
          findFlight t m = some { f with drops := f.drops ++ [(drawerBase p b + beat, bBytes.length)], conds := f.conds ++ [{ status := 1 }] } ∧
          (∀ k, k ≠ m → findFlight t k = findFlight s k) ∧
          rfield t log 47 32 = satAdd 16 (rfield s log 47 32) 1 ∧ rbit t log 63 = true ∧
          (rbit s log 63 = false → rfield t log 21 3 = off / 8 % 2 ^ 19 ∧ rfield t log 26 24 = master % 8) ∧
          SameRegsBut [log] s t ∧
          t = { s with mem := t.mem, regs := t.regs, dram := t.dram, jig := { s.jig with flights := t.jig.flights } }) ∧
      (∀ k : Packet, Answers (exec (.drawerPortCollision p b word master aBytes beat bBytes { remote := some k }) s) fun t =>
        (∃ a, t.fab.served.head? = some (k, a) ∧ a.op = 3 ∧ a.status = 1 ∧ a.dst = k.src ∧ a.tag = k.tag) ∧
        Memory.read t.mem (drawerBase p b + 8 * word) aBytes.length = aBytes.map (· % 256) ∧
        SameBytesOutside (drawerBase p b + 8 * word) aBytes.length s t)) ∧
    (master = 3 ∨ master = 5 →
      (poisonFree s (drawerBase p b + beat) bBytes.length = true →
        Answers (exec (.drawerPortCollision p b word master aBytes beat bBytes {}) s) fun t =>
          Memory.read t.mem (drawerBase p b + beat) bBytes.length = bBytes.map (· % 256) ∧ t.sent = s.sent ∧
          rfield t log 47 32 = satAdd 16 (rfield s log 47 32) 1) ∧
      (Answers (exec (.drawerPortCollision p b word master aBytes beat bBytes { again := true }) s) fun t =>
        t.sent = .status master 1 0 (drawerBase p b + beat) :: s.sent ∧
        Memory.read t.mem (drawerBase p b + 8 * word) aBytes.length = aBytes.map (· % 256) ∧
        SameBytesOutside (drawerBase p b + 8 * word) aBytes.length s t ∧
        rfield t log 47 32 = satAdd 16 (satAdd 16 (rfield s log 47 32) 1) 1))) ∧
  (
  ∀ (s : State) (p b beat len m : Nat) (f : Flight), findFlight s m = some f → QuietRecord s (some f.part) →
    Answers (exec (.buntingParityError p b beat len m) s) fun t =>
      (∀ u ∈ unitsOf (drawerBase p b + beat) len, isPoison t u = true) ∧ t.mem = s.mem ∧ NewestFault t 7 5 0 ∧
      rfield t (panelReg .bntPerr p 0) 23 8 = satAdd 16 (rfield s (panelReg .bntPerr p 0) 23 8) 1 ∧
      rbit t (panelReg .bntPerr p 0) 63 = true ∧ SameRegsBut [panelReg .bntPerr p 0] s t ∧
      findFlight t m = some { f with conds := f.conds ++ [{ status := 6 }] } ∧ (∀ k, k ≠ m → findFlight t k = findFlight s k))

/-- R300, R301 and R305: a request that no region or slice allows changes no byte, raises an ACCESS record with its address, master and
partition, and its MI meets DENIED with DETAIL 0x0100; a requester without an MI or a partition is answered so.
R352: an enabled monitor counts the activations of each bank; at the threshold, mem.hotbank.fraction / 256 of a window, it counts in
mem.hotbank.count and in the log of the edge die and raises a HOT_BANK record; it changes no byte. A disabled monitor does nothing. -/
def Obligations.RefusalsAndHotBanksAreReported : Prop :=
  (
  ∀ (s : State) (a n master cause : Nat) (part : Option Nat) (write : Bool),
    physRefusal s { part := part, master := master } a n write = some (cause, 0x0100) → QuietRecord s part →
    (∀ (m : Nat) (f : Flight), findFlight s m = some f → Answers (exec (.regionRefusal a n master part write (some m)) s) fun t =>
      t.mem = s.mem ∧ findFlight t m = some { f with conds := f.conds ++ [{ status := 2, detail := 0x0100, aux := a }] } ∧
      (∃ r, t.hal.faults.head? = some r ∧ r.cls = 7 ∧ r.detail = cause ∧ r.part = part ∧ r.addr = some a ∧ r.info.head? = some master) ∧
      ((∀ p b, regionOf a ≠ .drawer p b) → t.regs = s.regs)) ∧
    (part = none → Answers (exec (.regionRefusal a n master none write none) s) fun t =>
      t.mem = s.mem ∧ t.sent = .status master 2 0x0100 a :: s.sent ∧ t.jig = s.jig)) ∧
  (
  ∀ (s : State) (a part n : Nat),
    (gnum s .memHotbankEnable = 0 → exec (.hotBankAlarm a ⟨part, n⟩) s = .next s) ∧
    (∀ (ch : DramChan) (r : RegAddr) (place old : Nat), gnum s .memHotbankEnable ≠ 0 → dramChanOf s a = some ch →
      hotPlace s a = some (r, place) → (hotWindow s ch).1 + n ≤ 65536 →
      old = (((hotWindow s ch).2.find? (·.1 == bits place 11 6)).map (·.2)).getD 0 →
      (old < hotThreshold s → hotThreshold s ≤ old + n → NoFaultRing s → Answers (exec (.hotBankAlarm a ⟨part, n⟩) s) fun t =>
        gnum t .memHotbankCount = satAdd 32 (gnum s .memHotbankCount) 1 ∧ NewestFault t 0x0D 0 0 ∧ t.mem = s.mem ∧ t.time = s.time ∧
        rfield t r 47 32 = satAdd 16 (rfield s r 47 32) 1 ∧ rbit t r 63 = true ∧
        (rbit s r 63 = false → rfield t r 23 16 = part % 256 ∧ rfield t r 15 0 = place % 2 ^ 16) ∧ SameRegsBut [r] s t) ∧
      (hotThreshold s ≤ old ∨ old + n < hotThreshold s → Answers (exec (.hotBankAlarm a ⟨part, n⟩) s) fun t =>
        hotWindow t ch = (if 65536 ≤ (hotWindow s ch).1 + n then (0, [])
          else ((hotWindow s ch).1 + n, upsert (·.1 == bits place 11 6) (bits place 11 6, old + n) (hotWindow s ch).2)) ∧
        t = { s with dram := { s.dram with acts := t.dram.acts } })))

/-- R334, R335: a granule that the code of R332 or R333 cannot correct reads as POISON from then on, counts and raises a record, and an
MI with no container operand meets POISON; a corrected one counts, is held as a write of its channel and is queued for write-back.
Beyond the code's limits a correction may store other bytes, and only in its granule. The patrol scrub acts as a read that finds the
same.
R344, R345, R349: a drain leaves no held write and no write-back of its channel; a refresh counts; the refresh rate of a channel
doubles and returns. No byte of memory changes. -/
def Obligations.DramErrorsAndDrains : Prop :=
  (
  ∀ (s : State) (a : Nat) (ch : DramChan), dramChanOf s (granule a) = some ch → QuietRecord s ((frameOf (granule a)).bind (frameOwner s)) →
    (∀ (bad wrong : Nat) (mi : Option Nat), decodeOutcome (regionOf a) bad wrong ∈ [.uncorrectable, .beyond] →
      Answers (exec (.dramUncorrectableRead ⟨a, bad, wrong⟩ mi) s) fun t =>
        isPoison t (granule a) = true ∧ t.mem = s.mem ∧ (∃ det, NewestFault t 3 det 0) ∧
        rfield t (eccReg ch) 47 32 = satAdd 16 (rfield s (eccReg ch) 47 32) 1 ∧ rbit t (eccReg ch) 63 = true ∧
        (∀ m f, mi = some m → findFlight s m = some f → (∀ d ∈ f.descs, ∀ e, d = some e → e.comp = 0) →
          findFlight t m = some { f with conds := f.conds ++ [{ status := 6 }] })) ∧
    (∀ bad wrong : Nat, decodeOutcome (regionOf a) bad wrong = .corrected → Answers (exec (.dramCorrectedRead ⟨a, bad, wrong⟩) s) fun t =>
      t.dram.held = holdWrite s.time s.dram.held ch (granule a) ∧
      (if t.dram.held.any (·.1 == ch) then granule a ∈ t.dram.writeBack else ∀ u ∈ t.dram.writeBack, dramChanOf s u ≠ some ch) ∧
      rfield t (eccReg ch) 31 0 = satAdd 32 (rfield s (eccReg ch) 31 0) 1 ∧
      SameRegsBut [eccReg ch] s t ∧ t = { s with regs := t.regs, dram := t.dram }) ∧
    (∀ bad wrong : Nat, decodeOutcome (regionOf a) bad wrong = .beyond → CanonicalMemory s →
      Answers (exec (.dramCorrectedRead ⟨a, bad, wrong⟩) s) fun t => SameBytesOutside (granule a) 64 s t ∧ CanonicalMemory t) ∧
    (∀ bad wrong : Nat, decodeOutcome (regionOf a) bad wrong = .clean →
      exec (.dramCorrectedRead ⟨a, bad, wrong⟩) s = .next s ∧ ∀ mi, exec (.dramUncorrectableRead ⟨a, bad, wrong⟩ mi) s = .next s) ∧
    (isPoison s (granule a) = false →
      exec (.patrolScrub a .clean) s = .next s ∧ exec (.patrolScrub a .corrected) s = exec (.dramCorrectedRead ⟨a, 1, 0⟩) s ∧
      ∀ bad wrong : Nat, decodeOutcome (regionOf a) bad wrong = .uncorrectable →
        exec (.patrolScrub a .uncorrectable) s = exec (.dramUncorrectableRead ⟨a, bad, wrong⟩ none) s)) ∧
  (
  ∀ (s : State) (ch : DramChan),
    (Answers (exec (.writeDrain ch) s) fun t =>
      (∀ r ∈ t.dram.held, r.1 ≠ ch) ∧ (∀ u ∈ t.dram.writeBack, dramChanOf s u ≠ some ch) ∧
      t = { s with dram := { s.dram with held := t.dram.held, writeBack := t.dram.writeBack } }) ∧
    (Answers (exec (.dramRefresh ch) s) fun t =>
      ((t.dram.refreshes.find? (·.1 == ch)).map (·.2)).getD 0 = ((s.dram.refreshes.find? (·.1 == ch)).map (·.2)).getD 0 + 1 ∧
      t = { s with dram := { s.dram with refreshes := t.dram.refreshes } }) ∧
    (∀ hot : Bool, Answers (exec (.refreshRateDoubling ch hot) s) fun t =>
      (ch ∈ t.dram.hot ↔ hot = true) ∧ (∀ c, c ≠ ch → (c ∈ t.dram.hot ↔ c ∈ s.dram.hot)) ∧
      t = { s with dram := { s.dram with hot := t.dram.hot } }))

/-- R306 to R308: a requested idle unit begins to enter retention and is then held; a request to it, or a write that clears its bit,
wakes it, or ends its entry; a waking unit returns. No byte of memory changes.
R498 and R509: START begins an invalidation and is discarded while one is under way; at its end no cached translation that it
covers is left, nor one whose page its partition does not own.
R396: a write of a check unit that is not bound restores it; one of CHK_STATEu or CHK_CNTu while it is bound is discarded and
counted. -/
def Obligations.UnitsTranslationsAndChecks : Prop :=
  (
  ∀ (s : State) (p : Nat) (u : RetUnit), p < 16 → (∀ b, u = .bench b → b < 34) → (∀ k, u = .slice k → k < 16) →
    (rbit s (panelReg .pwrRet p 0) (retBit u) = true → (∀ ph, (p, u, ph) ∉ s.retention) → unitIdle s p u = true →
      exec (.retentionEntry p u) s = .next { s with retention := s.retention ++ [(p, u, .entering)] }) ∧
    (rbit s (panelReg .pwrRet p 0) (retBit u) = true → unitIdle s p u = true →
      (s.retention.find? fun e => e.1 == p && e.2.1 == u) = some (p, u, .entering) →
      Answers (exec (.retentionEntry p u) s) fun t => (p, u, .held) ∈ t.retention ∧ (p, u, .entering) ∉ t.retention ∧
        (∀ q v ph, (q, v) ≠ (p, u) → ((q, v, ph) ∈ t.retention ↔ (q, v, ph) ∈ s.retention)) ∧
        t = { s with retention := t.retention }) ∧
    (unitIdle s p u = false → exec (.retentionEntry p u) s = .next s) ∧
    ((s.retention.find? fun e => e.1 == p && e.2.1 == u) = some (p, u, .held) →
      Answers (exec (.retentionWake p u) s) fun t =>
        (p, u, .waking) ∈ t.retention ∧ (p, u, .held) ∉ t.retention ∧ rbit t (panelReg .pwrRet p 0) (retBit u) = false ∧
        rfield t (panelReg .pwrRetstat p 0) 63 52 = satAdd 12 (rfield s (panelReg .pwrRetstat p 0) 63 52) 1 ∧
        SameRegsBut [panelReg .pwrRet p 0, panelReg .pwrRetstat p 0] s t ∧ t = { s with regs := t.regs, retention := t.retention }) ∧
    ((s.retention.find? fun e => e.1 == p && e.2.1 == u) = some (p, u, .entering) →
      Answers (exec (.retentionWake p u) s) fun t =>
        (∀ ph, (p, u, ph) ∉ t.retention) ∧ rbit t (panelReg .pwrRet p 0) (retBit u) = false ∧
        rfield t (panelReg .pwrRetstat p 0) 63 52 = satAdd 12 (rfield s (panelReg .pwrRetstat p 0) 63 52) 1) ∧
    ((p, u, .waking) ∈ s.retention →
      Answers (exec (.retentionWakeDone p u true) s) fun t =>
        (∀ ph, (p, u, ph) ∉ t.retention) ∧ t = { s with retention := t.retention }) ∧
    (∀ src v, Reaches s src (panelReg .pwrRet p 0) → v < 2 ^ 64 → Answers (exec (.pwrRetWrite src p v) s) fun t =>
      rfield t (panelReg .pwrRet p 0) 33 0 = bits v 33 0 ∧ rfield t (panelReg .pwrRet p 0) 51 36 = bits v 51 36 ∧
      (∀ ph, (p, u, ph) ∈ s.retention → (if bit v (retBit u) then (p, u, ph) ∈ t.retention
        else if ph = .entering then (p, u, ph) ∉ t.retention else (p, u, .waking) ∈ t.retention)) ∧
      SameRegsBut [panelReg .pwrRet p 0] s t ∧ t = { s with regs := t.regs, retention := t.retention })) ∧
  (
  ∀ s : State,
    (∀ (src : Src) (v : Nat), Reaches s src (halReg .prtMmuinv) → v < 2 ^ 64 → bit v 0 = true →
      (s.mmu.inval = none → Answers (exec (.prtMmuinvStart src v) s) fun t =>
        t.mmu.inval = some { all := bit v 1, part := bits v 15 8, addr := bits v 47 16 * 0x10000 } ∧ t.mmu.tlb = s.mmu.tlb ∧
        SameRegsBut [halReg .prtMmuinv] s t ∧ t = { s with regs := t.regs, mmu := { s.mmu with inval := t.mmu.inval } }) ∧
      (s.mmu.inval ≠ none → exec (.prtMmuinvStart src v) s = .next s)) ∧
    (∀ i, s.mmu.inval = some i → Answers (exec .mmuInvalidationDone s) fun t =>
      t.mmu.inval = none ∧ (∀ e, e ∈ t.mmu.tlb ↔ e ∈ s.mmu.tlb ∧ invalCovers i e = false ∧ pageOwned s e.part e.pa e.size = true) ∧
      t = { s with mmu := { s.mmu with inval := none, tlb := t.mmu.tlb } })) ∧
  (
  ∀ (s : State) (src : Src) (p u v : Nat) (id : RegId), id ∈ [RegId.chkCtl, .chkState, .chkCnt] → v < 2 ^ 64 →
    Reaches s src (panelReg id p u) →
    (unitBound s p u = false → Answers (exec (.chkStateRestore src (regOffset (panelReg id p u)) v) s) fun t =>
      rget t (panelReg id p u) = writeFields (regFields id) (rget s (panelReg id p u)) v ∧ SameRegsBut [panelReg id p u] s t ∧
      t = { s with regs := t.regs, mmu := { s.mmu with assigned := t.mmu.assigned } }) ∧
    (unitBound s p u = true → id ≠ .chkCtl → Answers (exec (.chkStateRestore src (regOffset (panelReg id p u)) v) s) fun t =>
      rfield t (panelReg .chkCtl p u) 31 16 = satAdd 16 (rfield s (panelReg .chkCtl p u) 31 16) 1 ∧
      SameRegsBut [panelReg .chkCtl p u] s t ∧ t = { s with regs := t.regs }))

/-! ## Media dies and the ingest pipeline (17_media_ingest.md) -/

/-- R461 to R463, MED_CTXc and MED_CPTRc: ENABLE reads the context block and stands when the block, its areas and the die's sums are
good; else hardware clears it. Writing 0 discards the pending jobs. A write of the pointers moves JOB_TAIL and OUT_CONSUMER alone. -/
def Obligations.MediaContextsStartAndStop : Prop :=
  ∀ (s : State) (src : Src) (die c v : Nat), v < 2 ^ 64 →
    let a := medReg .medCtx die c
    let ptr := medReg .medCptr die c
    let g := partGet (enabling s src a v) (medReq (bits v 15 8)) (bits v 15 8) (bits v 57 16 * 64) 64
    let others := (s.med.ctxs.filter fun m => m.die == die && m.c != c).map (·.block)
    (Reaches s src a → bit v 0 = true → (NoLease s ∨ g.s.fab.asks = []) →
      (g.cond = none ∧ ctxBlockOk c g.bytes = true ∧ ctxAreasOk g.s (bits v 15 8) g.bytes = true ∧
          dieSumsOk (g.bytes :: others) = true → Answers (exec (.medContextEnable src die c v) s) fun t =>
        rbit t a 0 = true ∧ (∃ m, findMed t die c = some m ∧ m.block = g.bytes) ∧ t.mem = s.mem ∧
        (s.retention = [] → SameRegsBut [a] s t ∧ SameFabric s t ∧
          t = { s with regs := t.regs, mmu := t.mmu, med := t.med, fab := t.fab })) ∧
      (g.cond.isSome = true ∨ ctxBlockOk c g.bytes = false ∨ ctxAreasOk g.s (bits v 15 8) g.bytes = false ∨
          dieSumsOk (g.bytes :: others) = false → Answers (exec (.medContextEnable src die c v) s) fun t =>
        rbit t a 0 = false ∧ ∃ r ∈ t.hal.faults, r.cls = 8 ∧ r.detail = 1 ∧ r.sub = c)) ∧
    (Reaches s src a → bit v 0 = false → Answers (exec (.medContextDisable src die c v) s) fun t =>
      rbit t a 0 = false ∧ rfield t ptr 31 16 = rfield s ptr 15 0 ∧ rfield t ptr 15 0 = rfield s ptr 15 0 ∧
      SameRegsBut [a, ptr] s t ∧ SameFabric s t ∧
      t = { s with regs := t.regs, med := { s.med with ctxs := t.med.ctxs }, mmu := { s.mmu with assigned := t.mmu.assigned }
                   fab := t.fab }) ∧
    (Reaches s src ptr → Answers (exec (.medJobDoorbell src die c v) s) fun t =>
      rfield t ptr 15 0 = bits v 15 0 ∧ rfield t ptr 47 32 = bits v 47 32 ∧ rfield t ptr 31 16 = rfield s ptr 31 16 ∧
      rfield t ptr 63 48 = rfield s ptr 63 48 ∧ (∀ m, findMed s die c = some m → ∃ m', findMed t die c = some m' ∧ m'.irq = false) ∧
      SameRegsBut [ptr] s t ∧ t = { s with regs := t.regs, med := { s.med with ctxs := t.med.ctxs } })

/-- R466, R468 and R470: a syntax error counts in RESYNC; dropped pictures, a stream outside R458 and the end of a stream each write
one output record of their TYPE with the SAMPLE_ID of their job.
R464, R465 and R467: a decoded picture, concealed where nothing correct covered it, goes to its frame slot with a TYPE 0x01
record; it waits while the ring is full or the record of the slot's earlier picture is not consumed.
R463, R465, R469 and R470: an encoder takes the picture of its next job and writes it as a chunk into the bitstream ring with a
TYPE 0x03 record; a picture that it does not code gets a TYPE 0x05 record. -/
def Obligations.PicturesAreReported : Prop :=
  (
  ∀ (s : State) (m : MedCtx) (die c back flags id : Nat), findMed s die c = some m → cbEncode m.block = false → m.held = none →
    m.jobs[back]? = some (flags, id) →
    let stat := medReg .medStat die 0
    (m.refused = false → Answers (exec (.medDecodePicture die c 0 back .syntaxError) s) fun t =>
      rfield t stat 47 32 = min (rfield s stat 47 32 + 1) 0xFFFF ∧ SameRegsBut [stat] s t ∧ SameFabric s t ∧
      t = { s with regs := t.regs, med := { s.med with ctxs := t.med.ctxs }, fab := t.fab }) ∧
    ∀ (u : State) (pa : Nat), RecordHere s u m pa →
      (∀ n, m.refused = false → Answers (exec (.medDecodePicture die c 0 back (.dropped n)) s) fun t =>
        RecordStands s t m pa 2 0 0 n 0 id ∧ rfield t stat 63 48 = min (rfield s stat 63 48 + 1) 0xFFFF) ∧
      (Answers (exec (.medDecodePicture die c 0 back .refused) s) fun t =>
        RecordStands s t m pa 5 0 0x0B01 0 0 id ∧ ∃ m', findMed t die c = some m' ∧ m'.refused = true) ∧
      (bit flags 0 = true → Answers (exec (.medDecodePicture die c 0 back .endOfStream) s) fun t =>
        RecordStands s t m pa 4 0 0 0 0 id)) ∧
  (
  ∀ (s : State) (i : Instr) (m : MedCtx) (die c id : Nat) (p : Picture), findMed s die c = some m → cbEncode m.block = false →
    cbToIngest m.block = false →
    ((i = .medFrameSlotWait die c ∧ m.held = some (p, id)) ∨
      ∃ back flags, ∃ q : Picture, i = .medDecodePicture die c 0 back (.picture q) ∧ m.held = none ∧ m.refused = false ∧
        m.jobs[back]? = some (flags, id) ∧ q.width ≤ cbWidth m.block ∧ q.height ≤ cbHeight m.block ∧
        (m.last = none ∨ m.last = some (q.width, q.height, q.depth10, q.chroma)) ∧
        p = { concealed m.block q with ref := none, mvs := [] }) →
    let slot := m.outIndex % 2 ^ cbAreaLog2 m.block
    let w := writeFrame s m slot p
    (medRoom s m = 0 ∨ m.recs.contains (some slot) = true → Answers (exec i s) fun t =>
      (∃ m', findMed t die c = some m' ∧ m'.held = some (p, id)) ∧ SameFabric s t ∧
      t = { s with med := { s.med with ctxs := t.med.ctxs }, fab := t.fab }) ∧
    (∀ (u : State) (pa : Nat), medRoom s m ≠ 0 → m.recs.contains (some slot) = false → RecordHere w u m pa →
      Answers (exec i s) fun t =>
        RecordStands w t m pa 1 ((if m.concealed && !p.key then 1 else 0) + if p.key then 2 else 0) 0 p.missing.length slot id ∧
        ∃ m', findMed t die c = some m' ∧ m'.held = none ∧ m'.outIndex = (m.outIndex + 1) % 2 ^ 32)) ∧
  (
  ∀ (s u0 : State) (m : MedCtx) (die c : Nat) (b : List Nat), findMed s die c = some m → cbEncode m.block = true →
    s.fab.asks = [] → nextJob s m = some (u0, b) → (NoLease s ∨ u0.fab.asks = []) →
    (∀ (u : State) (pa : Nat) (chunks : List (List Nat)), medRoom s m ≠ 0 → RecordHere u0 u m pa →
      Answers (exec (.medEncodePicture die c chunks true) s) fun t => RecordStands u0 t m pa 5 0 0x0B01 0 0 (leAt b 16 8)) ∧
    (∀ (chunks : List (List Nat)), cbSubframe m.block = false → chunks ≠ [] → medRoom s m ≠ 0 →
      let g := partGet u0 (medReq (medPart s m)) (medPart s m) (leAt b 0 6) (slotPicBytes m.block)
      let w := writeChunk g.s m chunks.flatten
      (NoLease s ∨ g.s.fab.asks = []) → ∀ (u : State) (pa : Nat), RecordHere w u m pa → Answers (exec (.medEncodePicture die c chunks false) s) fun t =>
        RecordStands w t m pa 3 (if keyPicture m (leAt b 12 4) then 2 else 0) 0 chunks.flatten.length m.pos (leAt b 16 8) ∧
        ∃ m', findMed t die c = some m' ∧ m'.pos = (m.pos + chunks.flatten.length) % 2 ^ cbAreaLog2 m.block ∧
          m'.count = m.count + 1))

/-- R476 to R478 and R485: ENABLE of a pipe reads its blocks, and stands when they are good; a write of REQ_TAIL appends a request,
which the die reads at once while it works on fewer than 16; RESUME clears STOPPED.
R480 to R482: a sample whose inputs have arrived and that nothing skips takes its slot, is written to every target at the same
offset, and is ready behind those before it; nothing else is stored.
R483 to R486: a sample that is skipped for one of the reasons 1 to 3 is replaced by the next spare, or after three yields none; a
refused slot write stops the pipe. Each skip is counted and logged. -/
def Obligations.SamplesGoToTheirPipes : Prop :=
  (
  ∀ (s : State) (src : Src) (n v : Nat), v < 2 ^ 64 →
    let a := ingReg .ingPipe n
    let ptr := ingReg .ingRptr n
    let stat := ingReg .ingQstat n
    let part := bits v 15 8
    let g := partGet (enabling s src a v) (ingReq part) part (bits v 57 16 * 64) 128
    let h := partGet g.s (ingReq part) part (ppParams g.bytes) 12428
    (Reaches s src a → bit v 0 = true → (NoLease s ∨ g.s.fab.asks = []) →
      (g.cond = none ∧ pipeBlockOk g.bytes = true ∧ slotsGranted g.s part g.bytes = true ∧ h.cond = none ∧ (NoLease s ∨ h.s.fab.asks = []) ∧
          findPipe s n = none ∧ NoRequestWaits s { n := n, block := g.bytes } → Answers (exec (.ingPipeEnable src n v) s) fun t =>
        rbit t a 0 = true ∧ findPipe t n = some { n := n, block := g.bytes, params := h.bytes } ∧ t.mem = s.mem ∧
        (s.retention = [] → SameRegsBut [a] s t ∧ SameFabric s t ∧
          t = { s with regs := t.regs, mmu := t.mmu, med := t.med, fab := t.fab })) ∧
      (g.cond.isSome = true ∨ pipeBlockOk g.bytes = false ∨ slotsGranted g.s part g.bytes = false ∨
          ((NoLease s ∨ h.s.fab.asks = []) ∧ h.cond.isSome = true) →
        Answers (exec (.ingPipeEnable src n v) s) fun t =>
          rbit t a 0 = false ∧ ∃ r ∈ t.hal.faults, r.cls = 8 ∧ r.detail = 1 ∧ r.sub = n)) ∧
    (Reaches s src ptr → ∀ p : IngPipe, findPipe s n = some p → pipeStopped s n = false → p.reqs.length < 16 →
      ppReqs p.block ≤ 4096 → (rfield s ptr 31 16 + 1) % ppReqs p.block = bits v 15 0 % ppReqs p.block →
      rfield s ptr 31 16 % ppReqs p.block ≠ bits v 15 0 % ppReqs p.block →
      let w := plainWrite s ptr v
      let r := partGet { w with fab := { w.fab with asks := [] } } (ingReq (pipePart s n)) (pipePart s n)
        (ppReqRing p.block + 32 * (rfield s ptr 31 16 % ppReqs p.block)) 32
      r.cond = none → (NoLease s ∨ r.s.fab.asks = []) → Answers (exec (.ingReqDoorbell src n v) s) fun t =>
        rfield t ptr 15 0 = bits v 15 0 ∧ rfield t ptr 31 16 = bits v 15 0 % ppReqs p.block ∧ t.mem = s.mem ∧
        findPipe t n = some { p with
          nextIndex := (p.nextIndex + 1) % 2 ^ 16
          reqs := p.reqs ++ [{ index := p.nextIndex, id := leAt r.bytes 0 8, bytes := r.bytes }] }) ∧
    (Reaches s src stat → bit v 33 = true → (∀ p, findPipe s n = some p → NoRequestWaits s p) →
      Answers (exec (.ingQstatResume src n v) s) fun t =>
        rbit t stat 32 = false ∧ SameRegsBut [stat] s t ∧ SameFabric s t ∧ t = { s with regs := t.regs, fab := t.fab })) ∧
  (
  ∀ (s : State) (n req slot : Nat) (p : IngPipe) (r : IngReq), findPipe s n = some p → NoRequestWaits s p →
    p.reqs.find? (·.index == req) = some r → slotFor p r = some slot → pipeStopped s n = false → reqComplete p r = true →
    (skipReason s p r).1 = none → slotRefused s (pipePart s n) p.block slot = none → s.retention = [] → s.fab.asks = [] →
    (NoLease s ∨ (reqPictures s p r).s.fab.asks = []) →
    let image := sampleImage p.block p.params r.bytes (reqPictures s p r).pics
    (∀ x ∈ image, x.2 ≠ [] ∧ x.1 + x.2.length ≤ ppSlotBytes p.block) →
    Answers (exec (.ingSampleReady n req) s) fun t =>
      (∃ q, findPipe t n = some q ∧
        q.ready = p.ready ++ [{ slot := slot, flags := if r.tries == 0 then 0 else 1, id := leAt r.bytes 0 8 }] ∧
        (∀ x ∈ q.reqs, x.index ≠ req) ∧ q.claimed = p.claimed ∧
        (ppLowWater p.block + ppHyst p.block ≤ q.ready.length → rbit t (ingReg .ingQstat n) 34 = true)) ∧
      (∀ a, (∀ x ∈ slotTargets s p.block slot, ∀ base, x.2 = some base → ∀ y ∈ image,
          a < base + y.1 ∨ base + y.1 + y.2.length ≤ a) → Memory.byte t.mem a = Memory.byte s.mem a) ∧
      t.hal = s.hal ∧ t.jig = s.jig ∧ t.time = s.time ∧ t.sent = s.sent) ∧
  (
  ∀ (s : State) (n req : Nat) (p : IngPipe) (r : IngReq), findPipe s n = some p → NoRequestWaits s p →
    p.reqs.find? (·.index == req) = some r → pipeStopped s n = false → ringCtx s (pipePart s n) 0 = none → s.retention = [] →
    s.fab.asks = [] →
    let skip := ingReg .ingSkip n
    let ptr := ingReg .ingRptr n
    let logged (v : State) : Prop := ∀ bs : List Nat, bs.length = 32 → (partPut v (ingReq (pipePart s n)) (pipePart s n)
      (ppSkipLog p.block + 32 * (rfield s ptr 47 32 % ppSkips p.block)) bs).cond = none
    (∀ reason k, skipReason s p r = (some k, s) →
      (r.tries < 3 → ppSpares p.block ≠ 0 →
        let g := partGet s (ingReq (pipePart s n)) (pipePart s n) (ppSpareList p.block + 32 * (p.spare % ppSpares p.block)) 32
        g.cond = none → (NoLease s ∨ g.s.fab.asks = []) → logged g.s → Answers (exec (.ingSampleSkip n req reason) s) fun t =>
          rfield t skip 15 0 = min (rfield s skip 15 0 + 1) 0xFFFF ∧ rfield t ptr 47 32 = (rfield s ptr 47 32 + 1) % 65536 ∧
          SameRegsBut [skip, ptr] s t ∧
          ∃ q, findPipe t n = some q ∧ q.ready = p.ready ∧ q.spare = (p.spare + 1) % ppSpares p.block ∧
            ∃ x ∈ q.reqs, x.index = req ∧ x.bytes = g.bytes ∧ x.tries = r.tries + 1 ∧ x.pics = []) ∧
      (3 ≤ r.tries ∨ ppSpares p.block = 0 → logged s → Answers (exec (.ingSampleSkip n req reason) s) fun t =>
        rfield t skip 15 0 = min (rfield s skip 15 0 + 1) 0xFFFF ∧ rfield t skip 47 32 = min (rfield s skip 47 32 + 1) 0xFFFF ∧
        rfield t ptr 47 32 = (rfield s ptr 47 32 + 1) % 65536 ∧ SameRegsBut [skip, ptr] s t ∧
        ∃ q, findPipe t n = some q ∧ q.ready = p.ready ∧ ∀ x ∈ q.reqs, x.index ≠ req)) ∧
    (∀ slot a, slotFor p r = some slot → slotRefused s (pipePart s n) p.block slot = some a → reqComplete p r = true →
      (skipReason s p r).1 = none → NoFaultRing s →
      Answers (exec (.ingPipeStop n req) s) fun t =>
        rbit t (ingReg .ingQstat n) 32 = true ∧
        ∃ q, findPipe t n = some q ∧ q.ready = p.ready ∧ q.claimed = p.claimed ∧ ∀ x ∈ q.reqs, x.index ≠ req))

/-! ## The fabric (15_azoer.md) -/

/-- R406 to R408: a damaged flit is discarded and asked for again; a flit already received is discarded; the flit that is due is
taken once, with its credits, and acknowledged.
R407 and R409: a NAK replays the stored flits from the SEQ that it names, and counts; the eighth replay of one SEQ in a row
retrains the port. CREDIT_INIT sets the credits that it names, and VC 256 keeps 16 or more. -/
def Obligations.FlitsArriveOnceAndReplay : Prop :=
  (
  ∀ (s : State) (p : Nat) (bs : List Nat), Trained s p →
    let v := portAt s p
    let h := leAt bs 0 8
    (crc 1 (bs.take 252) ≠ leAt bs 252 4 → Answers (exec (.flitReceive p bs) s) fun t =>
      ControlSent s t p 1 (leBytes 2 v.rxSeq) ∧ (portAt t p).rxSeq = v.rxSeq ∧ (portAt t p).rxBad = true ∧ OnlyPort p s t) ∧
    (crc 1 (bs.take 252) = leAt bs 252 4 →
      (2048 ≤ seqAhead v.rxSeq (bits h 15 4) → exec (.flitReceive p bs) s = .next s) ∧
      (bits h 15 4 = v.rxSeq → bits h 3 0 ≠ 0 → bits h 28 28 = 0 → v.queue = [] → v.ctl = [] → Answers (exec (.flitReceive p bs) s) fun t =>
        (portAt t p).rxSeq = (v.rxSeq + 1) % 4096 ∧ (portAt t p).rxBad = false ∧ (portAt t p).replay = v.replay ∧
        (∀ vc, vcGet (portAt t p).credits vc = vcGet v.credits vc + if bits h 40 32 = vc then bits h 52 41 else 0) ∧
        (bits h 3 0 = 1 → ∀ vc, vc = leAt bs 12 2 % 512 → vcGet (portAt t p).held vc = vcGet v.held vc + 1) ∧
        (∃ cvc ccnt, t.sent = .flit p (flitBytes 0 v.txSeq v.rxSeq true cvc ccnt []) :: s.sent) ∧ OnlyPort p s t))) ∧
  (
  ∀ (s : State) (p : Nat), Trained s p →
    let v := portAt s p
    (∀ seq i : Nat, seq < 4096 → v.replay.findIdx? (fun e => e.seq == seq) = some i →
      (¬(v.replayed.1 = seq ∧ 7 ≤ v.replayed.2) → Answers (exec (.flitNak p seq) s) fun t =>
        portAt t p = { v with replayed := (portAt t p).replayed } ∧ t.sent.length = s.sent.length + (v.replay.length - i) ∧
        rfield t (portReg .azfPcnt p) 31 0 = min (rfield s (portReg .azfPcnt p) 31 0 + 1) 0xFFFFFFFF ∧ OnlyPort p s t) ∧
      (v.replayed.1 = seq → 7 ≤ v.replayed.2 → NoFaultRing s → Answers (exec (.flitNak p seq) s) fun t =>
        (portAt t p).state = 1 ∧ (portAt t p).replay = v.replay ∧ NewestFault t 4 0 0)) ∧
    (∀ cs : List (Nat × Nat), v.queue = [] → v.ctl = [] → (cs.map (·.1)).Nodup → Answers (exec (.creditInit p cs) s) fun t =>
      portAt t p = { v with credits := (portAt t p).credits } ∧ OnlyPort p s t ∧ 16 ≤ vcGet (portAt t p).credits 256 ∧
      (∀ c ∈ cs, c.1 ≠ 256 → vcGet (portAt t p).credits c.1 = c.2) ∧
      (∀ vc, vc ≠ 256 → (∀ c ∈ cs, c.1 ≠ vc) → vcGet (portAt t p).credits vc = vcGet v.credits vc)))

/-- R404, R405 and R551 of 20_faults.md: a port trains on 8 lanes (UP) or 7 (DEGRADED), and keeps its replay buffer over a
retraining; it loses one lane by retraining and a second by going DOWN; SLOW follows the delivered rate.
R416, R418 and R419: a HELLO records the partner, and the device adopts the lowest manager pair that it and its partners know; its
own address from another serial number raises ADDR_CONFLICT. Its own HELLO names them; without one for 4 ms the partner is gone. -/
def Obligations.PortsTrainAndElectAManager : Prop :=
  (
  ∀ (s : State) (p : Nat), p < s.fab.ports.length →
    let v := portAt s p
    (∀ (lanes : Nat) (fallback : Bool), lanes = 7 ∨ lanes = 8 → awake s = true → v.queue = [] → v.ctl = [] → NoLease s →
      Answers (exec (.portTrained p lanes fallback) s) fun t =>
        (portAt t p).state = (if lanes = 8 then 2 else 3) ∧ (portAt t p).lanes = lanes ∧ (portAt t p).fallback = fallback ∧
        (v.state ≠ 0 → (portAt t p).replay = v.replay ∧ (portAt t p).credits = v.credits) ∧
        (v.state = 0 → (portAt t p).credits = [(256, 16)] ∧ ∀ e ∈ (portAt t p).replay, e.kind = 3)) ∧
    (∀ lane, lane < 8 → v.state = 2 → NoFaultRing s → Answers (exec (.fabricLaneLoss p lane) s) fun t =>
      (portAt t p).state = 1 ∧ (portAt t p).lanes = 7 ∧ NewestFault t 4 0 0) ∧
    (∀ lane, lane < 8 → v.state = 3 → v.queue = [] → Answers (exec (.fabricLaneLoss p lane) s) fun t =>
      (portAt t p).state = 0 ∧ (portAt t p).nbrValid = false) ∧
    (∀ rate, 2 ≤ v.state → exec (.fabricPortSlow p rate) s =
      .next (setPort s p { v with slow := decide (rate < gnum s .fabSlowThreshold) }))) ∧
  (
  ∀ (s : State) (p : Nat), Trained s p → NoFaultRing s →
    let v := portAt s p
    (∀ serial nport addr prio mserial dist : Nat, Answers (exec (.hello p serial nport addr prio mserial dist) s) fun t =>
      portAt t p = { v with nbrValid := true, nbrPort := nport, nbrAddr := addr, nbrSerial := serial
                            mgr := some (prio, mserial, dist), helloAt := s.time } ∧
      (∀ q, q ≠ p → portAt t q = portAt s q) ∧
      (∀ m, managerPair t = some m → gnum t .fabManagerSerial = m.2.1 % 2 ^ 64 ∧
        ∀ w ∈ t.fab.ports, w.nbrValid = true → ∀ x, w.mgr = some x → x.2.1 ≠ 0 → m.1 < x.1 ∨ (m.1 = x.1 ∧ m.2.1 ≤ x.2.1)) ∧
      (addr = selfAddr s → addr ≠ 0xFFFF → serial ≠ Config.serial → NewestFault t 9 0 0) ∧
      (addr ≠ selfAddr s ∨ addr = 0xFFFF ∨ serial = Config.serial → t.hal.faults = s.hal.faults) ∧
      t.mem = s.mem ∧ t.regs = s.regs ∧ t.sent = s.sent ∧ t.time = s.time) ∧
    (let m := (managerPair s).getD (0xFF, 0, 0)
     Answers (exec (.helloSend p) s) fun t =>
      ControlSent s t p 0x20 (leBytes 8 Config.serial ++ [p] ++ leBytes 2 (selfAddr s) ++ [m.1] ++ leBytes 8 m.2.1 ++ [m.2.2]) ∧
      OnlyPort p s t) ∧
    (v.nbrValid = true → Answers (exec (.helloTimeout p) s) fun t =>
      portAt t p = { v with nbrValid := false, mgr := none } ∧ t.time = max s.time (v.helloAt + 4000000) ∧
      (∀ q, q ≠ p → portAt t q = portAt s q) ∧ (∀ k q, routeTo t k = .port q → q ≠ p) ∧ t.mem = s.mem ∧ t.regs = s.regs))

/-- R408, R410 to R412: a packet for this device leaves the receive buffer of its port, is served and answered; the answer takes the
next FSEQ of its flow. READ gives the data; WRITE and ATOMIC store, and are performed only once per TAG; an access that crosses 4 KiB is
refused with DETAIL 0x0903, one outside a lease with 0x0101; a damaged packet is counted and answered NAK. An access that reaches the
neighbour window waits for what it asks there (01_cabinet.md R33). -/
def Obligations.RequestsAreServedAndAnswered : Prop :=
  ∀ (s : State) (p : Nat) (k : Packet), ArrivesHere s p k → k.order = false →
    let b := bufferFreed s p k
    let k' := arrivedHop k
    let req : Req := { part := some k.vc }
    (k.op = 0 → crosses k.addr k.len = false → k.lease = 0 → k.vc < 256 →
      let g := wholeGet (noAsks b) req k.vc k.addr k.len
      (g.s.fab.asks = [] → ∃ a, AnswerTo g.s k a 1 (answerStatus g) (answerData g g.bytes) ∧
        exec (.fabricRead p k) s = .next (sendAnswer g.s a).1) ∧
      (g.s.fab.asks ≠ [] → Answers (exec (.fabricRead p k) s) fun t => ∃ j ∈ t.fab.jobs, j.who = .packet k' ∧ t.fab.served = s.fab.served)) ∧
    (k.op = 0 → crosses k.addr k.len = true →
      ∃ a, AnswerTo s k a 1 2 (leBytes 2 0x0903) ∧ exec (.fabricRead p k) s = .next (sendAnswer b a).1) ∧
    (k.op = 2 → servedBefore s k = none → (∀ j ∈ s.fab.jobs, j.who ≠ .packet k') → crosses k.addr k.payload.length = false →
      k.lease = 0 → k.vc < 256 →
      let g := wholePut b { req with job := some s.fab.nextJob } k.vc k.addr k.payload
      jobAwaits g.s s.fab.nextJob = false → ∃ a, AnswerTo g.s k a 3 (answerStatus g) (answerData g []) ∧
        exec (.fabricWrite p k) s = .next (keepAnswer g.s k' a)) ∧
    (k.op = 2 → servedBefore s k = none → (∀ j ∈ s.fab.jobs, j.who ≠ .packet k') → crosses k.addr k.payload.length = false →
      k.lease ≠ 0 → lentFor s k k.payload.length = false → jobAwaits s s.fab.nextJob = false → NoFaultRing s →
      ∃ u a, NewestFault u 7 3 0 ∧ u.mem = s.mem ∧ AnswerTo s k a 3 2 (leBytes 2 0x0101) ∧
        exec (.fabricWrite p k) s = .next (keepAnswer u k' a)) ∧
    (k.op = 4 → servedBefore s k = none → (∀ j ∈ s.fab.jobs, j.who ≠ .packet k') → k.aop < 4 →
      k.payload.length = [4, 8, 8, 16].getD k.aop 0 → k.lease = 0 → k.vc < 256 →
      let n := if k.aop = 0 then 4 else 8
      let g := wholeGet (noAsks b) req k.vc k.addr n
      let old := leVal g.bytes
      let new := if k.aop = 0 then (old + leAt k.payload 0 4) % 2 ^ 32 else if k.aop = 1 then (old + leAt k.payload 0 8) % 2 ^ 64
        else if k.aop = 2 then leAt k.payload 0 8 else if old = leAt k.payload 0 8 then leAt k.payload 8 8 else old
      let h := wholePut g.s req k.vc k.addr (leBytes n new)
      g.s.fab.asks = [] → g.cond = none → ∃ a, AnswerTo h.s k a 5 (answerStatus h) (answerData h g.bytes) ∧
        exec (.atomic p k) s = .next (keepAnswer h.s k' a)) ∧
    (k.op = 6 → ∃ a, AnswerTo s k a 7 0 [] ∧ exec (.message p k) s = .next (sendAnswer b a).1) ∧
    (∀ a, servedBefore s k = some a → (k.op = 2 → exec (.fabricWrite p k) s = .next (sendPacket b a).1) ∧
      (k.op = 4 → exec (.atomic p k) s = .next (sendPacket b a).1)) ∧
    (∀ c, c ≠ packetCrc k → k.op = 2 → NoFaultRing s → ∃ u a, AnswerTo s { k with crc := c } a 8 0 [] ∧
      exec (.fabricWrite p { k with crc := c }) s = .next (sendAnswer u a).1 ∧ u.mem = s.mem ∧ NewestFault u 4 0 0 ∧
      rfield u (portReg .azfPcnt p) 47 32 = min (rfield s (portReg .azfPcnt p) 47 32 + 1) 0xFFFF) ∧
    (∀ (u : State) (a : Packet), a.dst ≠ 0xFFFF →
      (sendAnswer u a).2 = { a with fseq := nextFseq u a, crc := packetCrc { a with fseq := nextFseq u a } } ∧
      nextFseq (sendAnswer u a).1 a = (nextFseq u a + 1) % 65536)

/-- R413: a packet with ORDER set that comes before an earlier one of its flow waits, and changes nothing else; the due one is served.
R408, R417 and R423 to R425: a packet for another device leaves by the port that its route gives, one hop less to go, under credits
or into the queue of its VC; one without a route or a hop left is counted, and a request answered UNREACHABLE. A source-routed message
names its own port.
R411, R412 and R425: an answer ends the request that its TAG names and gives the MI behind it the data or the condition; after a
NAK, or 100 µs without an answer, the request is sent again, three times at most. -/
def Obligations.PacketsGoOnAndAnswersEnd : Prop :=
  (
  ∀ (s : State) (p : Nat) (k : Packet), ArrivesHere s p k → k.order = true → k.op = 2 →
    let b := bufferFreed s p k
    let k' := arrivedHop k
    let d := (k.fseq + 65536 - dueFseq s k) % 65536
    (0 < d → d < 256 → Answers (exec (.fabricWrite p k) s) fun t =>
      k' ∈ t.fab.reseq ∧ t = { b with fab := { b.fab with reseq := t.fab.reseq } }) ∧
    (d = 0 → s.fab.reseq = [] → exec (.fabricWrite p k) s = .next (setDue (serve b k') k' ((k.fseq + 1) % 65536))) ∧
    (65280 ≤ d → exec (.fabricWrite p k) s = .next (serve b k')) ∧
    (256 ≤ d → d < 65280 → ∃ a, AnswerTo s k a 8 0 [] ∧ exec (.fabricWrite p k) s = .next (sendAnswer b a).1)) ∧
  (
  ∀ (s : State) (p : Nat) (k : Packet), Trained s p → addressed s k = true →
    let b := bufferFreed s p k
    let k' := nextHop k k.addr
    let die := edgeReg .azfRtctl (p / 3) 0
    (k.dst ≠ 0xFFFF → routeTo s k ≠ .here →
      (1 < k.hopsLeft → ∀ q, routeTo s k' = .port q →
        (canSend b q k' = true → (∀ x ∈ (portAt b q).queue, x.vc ≠ k.vc) → Answers (exec (.packetForward p k) s) fun t =>
          t.sent.length = b.sent.length + packetFlits k' ∧
          vcGet (portAt t q).credits k.vc = vcGet (portAt b q).credits k.vc - packetFlits k' ∧ OnlyPort q b t) ∧
        (canSend b q k' = false → exec (.packetForward p k) s =
          .next (setPort b q { portAt b q with queue := (portAt b q).queue ++ [k'] }))) ∧
      (k.hopsLeft ≤ 1 ∨ routeTo s k' = .nowhere →
        (k.op = 1 → Answers (exec (.packetForward p k) s) fun t =>
          rfield t die 63 48 = min (rfield s die 63 48 + 1) 0xFFFF ∧ t = { b with regs := t.regs } ∧ SameRegsBut [die] s t) ∧
        (k.op ∈ [0, 2, 4, 6] → k.src ≠ selfAddr s → ∃ u a, rfield u die 63 48 = min (rfield s die 63 48 + 1) 0xFFFF ∧
          u = { b with regs := u.regs } ∧ AnswerTo s k a 9 0 [] ∧ exec (.packetForward p k) s = .next (sendAnswer u a).1))) ∧
    (k.dst = 0xFFFF → k.vc = 256 → k.op = 6 → bits k.addr 39 32 ≠ 0 → bits k.addr 3 0 < 12 → 1 < k.hopsLeft →
      ∃ x, exec (.message p k) s = .next (transmit b (bits k.addr 3 0) x) ∧ x.hopsLeft = k.hopsLeft - 1 ∧
        bits x.addr 31 0 = bits k.addr 31 0 / 16 ∧ bits x.addr 39 32 = bits k.addr 39 32 - 1 ∧
        (x.crc = packetCrc x ↔ k.crc = packetCrc k))) ∧
  (
  ∀ (s : State) (p : Nat) (k : Packet) (r : Request) (f : Flight) (mi : Nat), ArrivesHere s p k →
    findRequest s k.tag = some r → r.pkt.dst = k.src → r.mi = some mi → findFlight s mi = some f → f.phase = .waiting →
    miOpcode f.word ≠ 0x40 → miOpcode f.word ≠ 0x42 → (∀ x ∈ s.fab.requests, x.mi = some mi → x.tag = k.tag) → s.fab.backlog = [] →
    let b := bufferFreed s p k
    let ended (w t : State) (g : Flight) : Prop := findFlight t mi = some g ∧
      t = { w with time := t.time
                   fab := { w.fab with requests := w.fab.requests.filter (·.tag != k.tag) }
                   jig := { w.jig with flights := t.jig.flights } }
    let failed (status detail : Nat) : Flight :=
      { f with phase := .issued, conds := f.conds ++ [{ status := status, detail := detail, aux := r.va }] }
    (∀ x ∈ [(Instr.readResp p k, 1, 0), (.writeAck p k, 3, 2), (.atomicResp p k, 5, 4), (.messageAck p k, 7, 6)],
      k.op = x.2.1 → r.pkt.op = x.2.2 →
      (k.status = 0 → Answers (exec x.1 s) fun t => t.time = s.time ∧
        ended b t { f with phase := .issued, remote := f.remote ++ if x.2.2 = 0 then [(r.va, k.payload)] else [] }) ∧
      (k.status = 6 → x.2.2 = 0 → Answers (exec x.1 s) fun t => t.time = s.time ∧
        ended b t { f with phase := .issued, remote := f.remote ++ [(r.va, List.replicate r.pkt.len 256)] }) ∧
      (k.status ≠ 0 → ¬(k.status = 6 ∧ x.2.2 = 0) → Answers (exec x.1 s) fun t => t.time = s.time ∧
        ended b t (failed k.status (leAt k.payload 0 2)))) ∧
    (k.op = 9 → r.pkt.op ∈ [0, 2, 4, 6] → Answers (exec (.unreachable p k) s) fun t =>
      t.time = s.time ∧ ended b t (failed 2 0x0901)) ∧
    (k.op = 8 → r.pkt.op ∈ [0, 2, 4, 6] → 3 ≤ r.resends → Answers (exec (.packetNak p k) s) fun t =>
      t.time = s.time ∧ ended b t (failed 2 0x0902)) ∧
    (3 ≤ r.resends → Answers (exec (.packetResendTimeout k.tag) s) fun t =>
      t.time = max s.time (r.sent + 100000) ∧ ended s t (failed 2 0x0902)) ∧
    (∀ q, r.resends < 3 → addressed s r.pkt = true → routeTo s r.pkt = .port q →
      let again (w : State) (now : Nat) : State := { w with time := now, fab := { w.fab with requests := w.fab.requests.map fun x =>
        if x.tag == k.tag then { r with resends := r.resends + 1, sent := now } else x } }
      (k.op = 8 → r.pkt.op ∈ [0, 2, 4, 6] → exec (.packetNak p k) s = .next (transmit (again b s.time) q r.pkt)) ∧
      exec (.packetResendTimeout k.tag) s = .next (transmit (again s (max s.time (r.sent + 100000))) q r.pkt)))

/-- R416, R423 and R425: a route never names a port that is DOWN or TRAINING, or whose partner has sent no HELLO for 4 ms; and one that
is SLOW only where the configuration of the primary port allows it. -/
def Obligations.RoutesNameEligiblePorts : Prop :=
  ∀ (s : State) (k : Packet) (q : Nat), routeTo s k = .port q →
    2 ≤ (portAt s q).state ∧ (portAt s q).nbrValid = true ∧ k.dst ≠ selfAddr s ∧
    ((∀ p, p < 12 → rbit s (portReg .azfPcfg p) 24 = true) → (portAt s q).slow = false)

/-- R426, R429 and R430 to R432: a schedule starts at a period start; each slot boundary opens the ports that the maps name; a time
error above G/2 leaves scheduled mode on every port; the return is announced for a period start at least 2L ahead.
R421: when the copy into the shadow table ends, the table writes that waited for it are staged. -/
def Obligations.ScheduledModeAndHeldRoutes : Prop :=
  (
  ∀ (s : State), (∀ v ∈ s.fab.ports, v.queue = [] ∧ v.ctl = [] ∧ v.replay.length < 2048) → s.fab.ports.length = 12 →
    let opened (t : State) (k : SchedPlan) : Prop := ∀ p, p < 12 →
      (portAt t p).slotOpen = bit ((k.maps.getD p []).getD (slotIndex k t.time / 8) 0) (slotIndex k t.time % 8)
    (s.fab.sched = 1 → 0 < (dictPlan s).len → 0 < (dictPlan s).period → Answers (exec .schedActivate s) fun t =>
      t.fab.sched = 2 ∧ t.fab.plan = some (dictPlan s) ∧ s.time ≤ t.time ∧ (dictPlan s).origin ≤ t.time ∧
      (t.time - (dictPlan s).origin) % ((dictPlan s).len * (dictPlan s).period) = 0 ∧ opened t (dictPlan s) ∧
      t = { s with time := t.time, fab := t.fab }) ∧
    (∀ k, s.fab.plan = some k → 0 < k.len →
      (Answers (exec .schedSlotBoundary s) fun t =>
        s.time ≤ t.time ∧ k.origin ≤ t.time ∧ (t.time - k.origin) % k.len = 0 ∧ t.fab.slotAt = some t.time ∧ opened t k ∧
        t = { s with time := t.time, fab := t.fab }) ∧
      (s.fab.sched = 2 → k.guard / 2 < timeError s → NoFaultRing s → Answers (exec .schedDriftExit s) fun t =>
        t.fab.sched = 3 ∧ NewestFault t 0x0A 0 0 ∧
        (∀ e, e < 4 → rbit t (edgeReg .azfSched e 0) 63 = true ∧
          rfield t (edgeReg .azfSched e 0) 47 32 = min (rfield s (edgeReg .azfSched e 0) 47 32 + 1) 0xFFFF) ∧
        (∀ p, p < 12 → 2 ≤ (portAt s p).state → ∃ e, (portAt t p).replay = (portAt s p).replay ++ [e] ∧ e.body = [0x10, 0])) ∧
      (s.fab.sched = 3 → s.fab.enterAt = none → timeError s ≤ k.guard / 4 → 0 < k.period →
        Answers (exec .schedReentry s) fun t => ∃ start, t.fab.enterAt = some start ∧ s.time + 2 * k.len ≤ start ∧
          k.origin ≤ start ∧ (start - k.origin) % (k.len * k.period) = 0 ∧ start < max k.origin (s.time + 2 * k.len) + k.len * k.period ∧
          (∀ p, p < 12 → 2 ≤ (portAt s p).state → ∃ e, (portAt t p).replay = (portAt s p).replay ++ [e] ∧
            e.body = [0x11, 0] ++ leBytes 8 start))) ∧
    (∀ p, Trained s p → (Answers (exec (.schedExit p) s) fun t =>
        portAt t p = { portAt s p with exited := true, enterAt := none } ∧ OnlyPort p s t) ∧
      ∀ start, (portAt s p).exited = true → Answers (exec (.schedEnter p start) s) fun t =>
        portAt t p = { portAt s p with exited := decide (s.time < start), enterAt := if start ≤ s.time then none else some start } ∧
        OnlyPort p s t)) ∧
  (
  ∀ (s : State), s.fab.copying = true → (∀ x ∈ s.fab.heldRoutes, ∀ y ∈ s.fab.heldRoutes, x.1 = y.1 → x = y) →
    Answers (exec .routeShadowCopyDone s) fun t =>
      t.fab.copying = false ∧ t.fab.heldRoutes = [] ∧
      (∀ e ∈ s.fab.heldRoutes, t.hal.mgmt.staged.find? (fun x => x.1 == e.1) = some e) ∧
      (∀ o, (∀ e ∈ s.fab.heldRoutes, e.1 ≠ o) →
        t.hal.mgmt.staged.find? (fun x => x.1 == o) = s.hal.mgmt.staged.find? (fun x => x.1 == o)) ∧
      t.hal.mgmt.dict = s.hal.mgmt.dict ∧ t.mem = s.mem ∧ t.regs = s.regs)

/-! ## The pennant line (21_clocks_power.md) -/

/-- R566: a frame whose CRC fails is discarded and counted, whatever its type.
R569 and R565: the time at the arrival of a TIME frame is BODY + CORR + L + pen.link_trim. A module that has just joined adopts
it with one step; after that the difference is slewed, and one above 1 µs raises a CLOCK record with DETAIL 0x0002. A module whose
bypass is closed ignores it (R573; the model's choice, log entry 41).
R566 to R568: the master's TIME and MEASURE frames.
R568: a MEASURE frame that returns gives L and the ring size, which LINK carries; elsewhere it goes on with the residence time and
one more hop; a LINK frame sets L and the ring size of the module that it reaches.
R573 to R575: the bypass opens in state READY with pen.bypass at AUTO, and the module is in the ring at its position with time to
adopt; it closes on each cause; the next module becomes master from its own time, or from 0 where it holds none (R565). -/
def Obligations.PennantFramesAndTheRing : Prop :=
  (
  ∀ (s : State) (f : PenFrame) (residence elapsed : Nat), f.crc ≠ crc 3 f.bytes →
    ∀ i ∈ [Instr.penTime f, .arrive f, .withdraw f, .penRelease f, .withdrawn f, .measure f residence elapsed, .link f],
      Answers (exec i s) fun t =>
        rfield t (halReg .clkPenstat) 55 40 = min (rfield s (halReg .clkPenstat) 55 40 + 1) 0xFFFF ∧
        t = { s with regs := t.regs } ∧ SameRegsBut [halReg .clkPenstat] s t) ∧
  (
  ∀ (s : State) (f : PenFrame), f.crc = crc 3 f.bytes → penType f = 1 → penOrigin f ≠ s.pen.position → NoFaultRing s →
    (s.pen.bypassOpen = false → exec (.penTime f) s = .next s) ∧ (s.pen.bypassOpen = true →
    let m : Int := (16 * (penBody f 0 8 : Int) + penCorr f + s.pen.delay + trim16 s) / 16
    (s.pen.adopted = false → Answers (exec (.penTime f) s) fun t =>
      t.time = m.toNat ∧ t.pen.adopted = true ∧ t.pen.master = false ∧ rbit t (halReg .clkPenstat) 63 = true ∧
      t = { s with time := t.time, regs := t.regs, pen := t.pen, sent := t.sent } ∧ SameRegsBut [halReg .clkPenstat] s t) ∧
    (s.pen.adopted = true → (m - s.time).natAbs ≤ 1000 → Answers (exec (.penTime f) s) fun t =>
      t.pen.slew = m - s.time ∧ t.pen.master = false ∧ t = { s with pen := t.pen, sent := t.sent }) ∧
    (s.pen.adopted = true → 1000 < (m - s.time).natAbs → Answers (exec (.penTime f) s) fun t =>
      t.pen.slew = m - s.time ∧ t.time = s.time ∧ NewestFault t 0x0F 2 0 ∧
      t = { s with pen := t.pen, sent := t.sent, hal := t.hal }))) ∧
  (
  ∀ s : State, s.pen.master = true → s.pen.bypassOpen = true →
    exec .penTimeSend s = .next { s with sent := .pennant (penFrame 1 s.pen.position 0 (leBytes 8 s.time)) :: s.sent } ∧
    exec .measureSend s = .next { s with sent := .pennant (penFrame 6 s.pen.position 0 [0]) :: s.sent }) ∧
  (
  ∀ (s : State) (f : PenFrame) (residence elapsed : Nat), f.crc = crc 3 f.bytes → s.pen.bypassOpen = true →
    let size := penBody f 0 1 + 1
    let delay := (elapsed - penCorr f) / size
    (penType f = 6 → penOrigin f = s.pen.position → s.pen.master = true →
      exec (.measure f residence elapsed) s = .next { s with
        pen := { s.pen with delay := delay, ringSize := size }
        sent := .pennant (penFrame 7 s.pen.position 0 (leBytes 4 delay ++ [size])) :: s.sent }) ∧
    (penType f = 6 → penOrigin f ≠ s.pen.position →
      exec (.measure f residence elapsed) s = .next { s with
        sent := .pennant (penBytes (f.bytes.take 2 ++ leBytes 4 ((penCorr f + residence) % 2 ^ 32) ++
          [(penBody f 0 1 + 1) % 256] ++ f.bytes.drop 7)) :: s.sent }) ∧
    (penType f = 7 → penOrigin f ≠ s.pen.position → Answers (exec (.link f) s) fun t =>
      t.pen.delay = penBody f 0 4 ∧ t.pen.ringSize = penBody f 4 1 ∧ t.sent.length = s.sent.length + 1 ∧
      t = { s with pen := { s.pen with delay := t.pen.delay, ringSize := t.pen.ringSize }, sent := t.sent })) ∧
  (
  ∀ (s : State) (position : Nat) (cause : BypassCause),
    (gnum s .penBypass = 0 → s.pen.bypassOpen = false → s.pwr.stage = 6 →
      exec (.bypassOpen position) s = .next { s with pen := { s.pen with
        locked := true, bypassOpen := true, position := position, adopted := false, lastTime := s.time } }) ∧
    (cause ≠ .write ∨ gnum s .penBypass = 1 → Answers (exec (.bypassClose cause) s) fun t =>
      t.pen.bypassOpen = false ∧ t.pen.position = 0xFF ∧ t.pen.master = false ∧ t = { s with pen := t.pen }) ∧
    (s.pen.bypassOpen = true → s.pen.master = false → gnum s .penMasterEnable = 1 →
      Answers (exec (.penMasterLoss true) s) fun t =>
        t.pen.master = true ∧ t.pen.timed = true ∧ t.time = (if s.pen.timed then s.time else 0) ∧
        t = { s with time := t.time, pen := t.pen }))

/-- R571 and R572: the master counts an arrival that does not complete its barrier, and lowers the count for a WITHDRAW; RELEASE
lets every waiting participant of its group and ID complete, and WITHDRAWN the one that has asked to withdraw. -/
def Obligations.BarrierFramesAcrossModules : Prop :=
  ∀ (s : State) (f : PenFrame), f.crc = crc 3 f.bytes → penOrigin f ≠ s.pen.position →
    let group := penBody f 0 2
    let id := penBody f 2 1
    (penType f = 2 → s.pen.master = true → (∀ c ∈ s.pen.counts, ¬(c.group = group ∧ c.id = id)) →
      penBody f 4 2 < penBody f 6 2 → Answers (exec (.arrive f) s) fun t =>
        t.pen.counts = s.pen.counts ++
          [{ group := group, id := id, need := penBody f 6 2, origins := List.replicate (penBody f 4 2) (penOrigin f) }] ∧
        t = { s with pen := { s.pen with counts := t.pen.counts }, sent := t.sent }) ∧
    (penType f = 3 → s.pen.master = true →
      (∃ c, s.pen.counts = [c] ∧ c.group = group ∧ c.id = id ∧ c.origins = [penOrigin f]) →
      Answers (exec (.withdraw f) s) fun t =>
        t.pen.counts = [] ∧ t = { s with pen := { s.pen with counts := [] }, sent := t.sent } ∧
        (s.pen.bypassOpen = true →
          t.sent.head? = some (.pennant (penFrame 5 s.pen.position 0 (barBody group id (penOrigin f) 1 0))))) ∧
    (penType f = 4 → Answers (exec (.penRelease f) s) fun t => ∀ g ∈ penWaiting s group id, Executed t g.mi) ∧
    (penType f = 5 → penBody f 3 1 = s.pen.position → penBody f 4 2 ≠ 0xFFFF → ∀ g : Flight,
      penWaiting s group id = [g] → g.data.length = 2 → Answers (exec (.withdrawn f) s) fun t =>
        ∃ h, findFlight t g.mi = some h ∧ h.phase = .executed ∧ ({ status := 7 } : Cond) ∈ h.conds)

/-! ## Clocks, power and the module's pins (21_clocks_power.md, 22_module.md) -/

/-- R562 to R564: a lost selected reference is replaced by the other input when that is good, else by the holdover oscillator; each
switch is counted and raises a CLOCK record, ABSORBED into holdover.
R562 and R563: an input that is good again ends holdover; the preferred input takes over again under clk.revert; a runt is
counted.
R561, R594 and R607: a panel's clock moves to its target, which a junction at 95 °C or 105 °C and an input power above
power.limit_w lower; each change is counted.
R576: a unit enters its idle state when it has no work, and leaves it. -/
def Obligations.ClocksFollowTheirSources : Prop :=
  (
  ∀ (s : State) (r : RefIn) (cause : LossCause), refGood s r = true → s.clk.source = refSource r → NoFaultRing s →
    (cause = .missingEdges ∨ cause = .runts ∨ ∃ d : Int, cause = .frequency d ∧ 30000 < d.natAbs) →
    Answers (exec (.refclkLoss r cause) s) fun t =>
      refGood t r = false ∧ t.clk.source = (if refGood s (otherRef r) then refSource (otherRef r) else 2) ∧
      rfield t (halReg .clkRefstat) 31 24 = min (rfield s (halReg .clkRefstat) 31 24 + 1) 0xFF ∧
      NewestFault t 0x0F 0 (if refGood s (otherRef r) then 0 else 2) ∧
      t = { s with clk := t.clk, pen := { s.pen with settle := 16 }, regs := t.regs, hal := t.hal } ∧
      SameRegsBut [halReg .clkRefstat] s t) ∧
  (
  ∀ (s : State) (r : RefIn), NoFaultRing s →
    (refGood s r = false → s.clk.source = 2 → Answers (exec (.refclkGood r) s) fun t =>
      refGood t r = true ∧ t.clk.source = refSource r ∧ NewestFault t 0x0F 0 0) ∧
    (refGood s r = false → s.clk.source ≠ 2 → Answers (exec (.refclkGood r) s) fun t =>
      refGood t r = true ∧ t.clk.source = s.clk.source ∧ t = { s with clk := t.clk }) ∧
    (gnum s .clkRevert = 1 → refGood s (prefRef s) = true → s.clk.source ≠ refSource (prefRef s) →
      Answers (exec .refclkRevert s) fun t => t.clk.source = refSource (prefRef s) ∧ NewestFault t 0x0F 0 0) ∧
    (Answers (exec (.runtPulse .a) s) fun t =>
      rfield t (halReg .clkRefstat) 15 8 = min (rfield s (halReg .clkRefstat) 15 8 + 1) 0xFF ∧ t = { s with regs := t.regs } ∧
      SameRegsBut [halReg .clkRefstat] s t) ∧
    (Answers (exec (.runtPulse .b) s) fun t =>
      rfield t (halReg .clkRefstat) 23 16 = min (rfield s (halReg .clkRefstat) 23 16 + 1) 0xFF ∧ t = { s with regs := t.regs } ∧
      SameRegsBut [halReg .clkRefstat] s t)) ∧
  (
  ∀ (s : State) (p mc limit watts mhz : Nat), p < 16 →
    (pclkNow s p ≠ pclkGoal s p → Answers (exec (.pclkChange p) s) fun t =>
      pclkNow t p = pclkGoal s p ∧ (∀ q, q ≠ p → pclkNow t q = pclkNow s q) ∧
      rfield t (panelReg .clkPclk p 0) 63 48 = min (rfield s (panelReg .clkPclk p 0) 63 48 + 1) 0xFFFF ∧
      t = { s with clk := { s.clk with pclk := t.clk.pclk }, regs := t.regs } ∧ SameRegsBut [panelReg .clkPclk p 0] s t) ∧
    (105000 ≤ mc → Answers (exec (.thermalThrottle p mc limit) s) fun t =>
      pclkTarget t p = min (dnum s .clkPclkMhzP p 0) 600 ∧
      t = { s with clk := { s.clk with thermal := t.clk.thermal }, pwr := { s.pwr with panelMc := t.pwr.panelMc } }) ∧
    (95000 ≤ mc → mc < 105000 → Answers (exec (.thermalThrottle p mc limit) s) fun t =>
      pclkTarget t p = min (dnum s .clkPclkMhzP p 0) (max 600 (min limit (pclkNow s p)))) ∧
    (mc < 95000 → Answers (exec (.thermalThrottle p mc limit) s) fun t => pclkTarget t p = dnum s .clkPclkMhzP p 0) ∧
    (gnum s .powerLimitW < watts → Answers (exec (.powerLimitThrottle watts mhz) s) fun t =>
      t.clk.power = some (max 600 mhz) ∧
      t = { s with clk := { s.clk with power := t.clk.power }, pwr := { s.pwr with inputW := some watts } }) ∧
    (watts ≤ gnum s .powerLimitW → Answers (exec (.powerLimitThrottle watts mhz) s) fun t => t.clk.power = none)) ∧
  (
  ∀ (s : State) (u : IdleUnit),
    ((∀ p, u = .panel p → s.jig.flights.any (dealtOn · p) = false) → Answers (exec (.idleEntry u) s) fun t =>
      u ∈ t.clk.idle ∧ t = { s with clk := { s.clk with idle := t.clk.idle } }) ∧
    (Answers (exec (.partitionIdleIdleExit u) s) fun t =>
      u ∉ t.clk.idle ∧ (∀ v, v ≠ u → (v ∈ t.clk.idle ↔ v ∈ s.clk.idle)) ∧
      t = { s with clk := { s.clk with idle := t.clk.idle } }))

/-- R592 and R593: each trip and the deassertion of PWR_EN turn the functional rails off and record their cause; every byte of memory
is lost; after a trip the module waits for PWR_EN.
R607: a panel junction at 115 °C, or an HBM4 stack at 105 °C, held for 1 ms turns every rail but the Halyard die's off;
dev.state reads TRIPPED and the cause THERMAL.
R591 and R592: the rails turn on when PWR_EN is asserted, VIN has lain in 40 to 60 V, the 100 ms after a power-down are over and
no trip holds them off; PWR_GOOD is released and the cold start begins.
R582: a cold start that finds nothing wrong reaches READY with the PCIe links trained whose PERST is deasserted. -/
def Obligations.PowerComesAndGoes : Prop :=
  (
  ∀ (s : State) (mv ma held : Nat), s.pwr.rails = .on →
    (∀ i cause, ((i = Instr.uvlo mv held ∧ mv < 37000 ∧ 200 ≤ held ∧ cause = 1) ∨
        (i = .ovp mv held ∧ 63000 < mv ∧ 100 ≤ held ∧ cause = 2) ∨ (i = .ocp ma held ∧ 90000 < ma ∧ 1000 ≤ held ∧ cause = 3)) →
      Answers (exec i s) fun t =>
        t.pwr.rails = .off ∧ t.pwr.powerGood = false ∧ t.pwr.tripped = true ∧ t.pen.bypassOpen = false ∧
        gnum t .powerLastOff = cause ∧ t.mem = [] ∧ t.jig.flights = [] ∧ t.time = s.time) ∧
    (Answers (exec .pwrEnDeassert s) fun t =>
      t.pwr.rails = .off ∧ t.pwr.powerGood = false ∧ t.pwr.tripped = false ∧ t.pen.bypassOpen = false ∧
      gnum t .powerLastOff = 0 ∧ t.mem = [] ∧ t.jig.flights = [] ∧ t.time = s.time)) ∧
  (
  ∀ (s : State) (site : ThermalSite) (mc held : Nat), s.pwr.rails = .on → 1000 ≤ held →
    ((∃ p, site = .panel p ∧ 115000 ≤ mc) ∨ (∃ k, site = .hbm k ∧ 105000 ≤ mc)) →
    Answers (exec (.thermalTrip site mc held) s) fun t =>
      t.pwr.rails = .halyard ∧ t.pwr.powerGood = false ∧ t.pwr.stage = 8 ∧ t.pwr.tripped = true ∧ t.pen.bypassOpen = false ∧
      gnum t .powerLastOff = 4) ∧
  (
  ∀ (s : State) (mv : Nat), s.pwr.rails = .off → s.pwr.tripped = false →
    ∀ i, ((i = Instr.pwrEnAssert ∧ s.pwr.vinStable = true ∧ s.pwr.offHold = false) ∨
        (i = .vinApplied mv ∧ 40000 ≤ mv ∧ mv ≤ 60000 ∧ s.pwr.pwrEn = true ∧ s.pwr.offHold = false) ∨
        (i = .powerOffHoldEnd ∧ s.pwr.pwrEn = true ∧ s.pwr.vinStable = true)) →
      Answers (exec i s) fun t =>
        t.pwr.rails = .on ∧ t.pwr.powerGood = true ∧ t.pwr.stage = 1 ∧ t.pwr.pwrEn = true ∧ t = { s with pwr := t.pwr }) ∧
  (
  ∀ (s : State) (b : BootReport), s.pwr.stage = 1 → s.pwr.rails = .on → s.pwr.forceRetain = false → s.hal.savedCal = [] →
    b.activeOk = true → b.failedBenches = [] → b.failedChannels = [] → b.failedStacks = [] → b.failedGroups = [] → b.badCal = [] →
    Answers (exec (.coldStart b) s) fun t =>
      t.pwr.stage = 6 ∧ (∀ l, l ∈ t.pwr.links ↔ (l = 0 ∨ l = 1) ∧ l ∉ s.pwr.perst) ∧ t.hal.mirror = s.hal.mgmt ∧
      t = { s with pwr := { s.pwr with stage := 6, links := t.pwr.links }, hal := { s.hal with mirror := s.hal.mgmt }
                   dram := { s.dram with lendDraw := t.dram.lendDraw }, freeCtr := t.freeCtr })

/-- R577 to R579 and R600: FORCE_RETAIN_N takes a running device into retain, with its fabric ports DOWN, and its deassertion out of
it.
R581: PERSTn_N resets only the link and the functions of that link.
21_clocks_power.md R577, R578, R580 and R415 of 15_azoer.md: what writes of power.state, dev.reset and partition.reset do; which registers
that partitions share a PARTITION reset resets is the model's choice (log entry 124). -/
def Obligations.ResetsRetainAndPerst : Prop :=
  (
  ∀ s : State,
    (awake s = true → Answers (exec .forceRetainAssert s) fun t =>
      t.pwr.state = 1 ∧ t.pwr.entering = true ∧ t.pwr.forceRetain = true ∧ t = { s with pwr := t.pwr }) ∧
    (s.pwr.state = 1 → s.pwr.entering = true → s.pwr.exitAfter = false → Answers (exec .retainEntryDone s) fun t =>
      t.pwr.state = 2 ∧ (∀ v ∈ t.fab.ports, v.state = 0) ∧ t.jig.flights = s.jig.flights) ∧
    (s.pwr.state = 2 → s.pwr.forceRetain = true → Answers (exec .forceRetainDeassert s) fun t =>
      t.pwr.state = 1 ∧ t.pwr.entering = false ∧ t.pwr.forceRetain = false ∧ t = { s with pwr := t.pwr }) ∧
    (s.pwr.state = 1 → s.pwr.entering = false → s.pwr.forceRetain = false → s.jig.flights = [] → s.fab.leases = [] →
      Answers (exec .retainExitDone s) fun t =>
        t.pwr.state = 0 ∧ (∀ l, l ∈ t.pwr.links ↔ (l = 0 ∨ l = 1) ∧ l ∉ s.pwr.perst) ∧ t = { s with pwr := t.pwr })) ∧
  (
  ∀ (s : State) (l : Nat), l < 2 →
    (Answers (exec (.perstAssert l) s) fun t =>
      l ∉ t.pwr.links ∧ l ∈ t.pwr.perst ∧ (∀ k, k ≠ l → (k ∈ t.pwr.links ↔ k ∈ s.pwr.links)) ∧
      t = { s with pwr := { s.pwr with perst := t.pwr.perst, links := t.pwr.links, flrs := t.pwr.flrs }
                   hal := { s.hal with mailbox := t.hal.mailbox } }) ∧
    (s.pwr.stage = 6 → s.pwr.state = 0 → Answers (exec (.perstDeassert l) s) fun t =>
      l ∈ t.pwr.links ∧ l ∉ t.pwr.perst ∧
      t = { s with pwr := { s.pwr with perst := t.pwr.perst, links := t.pwr.links } })) ∧
  (
  ∀ (s u : State) (r : MgmtReq) (part : Nat) (row : ObjRow) (o : ObjAddr), Written s u r part row o →
    (o.id = .powerState → leVal r.body = 2 →
      ((∀ q, pnum s .partitionState q < 2) → (∀ k, k < 64 → leaseOn (lentState s k) = false) → awake s = true →
        exec (.powerStateRetain r) s = .next (finishRequest 2 r {}
          { u with pwr := { u.pwr with state := 1, entering := true, exitAfter := false } })) ∧
      ((∃ q, 2 ≤ pnum s .partitionState q) ∨ (∃ k, k < 64 ∧ leaseOn (lentState s k) = true) →
        exec (.powerStateRetain r) s = .next (finishRequest 2 r { status := 2, detail := 0x0F01 } u))) ∧
    (o.id = .powerState → leVal r.body = 0 → s.pwr.state = 2 →
      exec (.powerStateRun r) s = .next (finishRequest 2 r {}
        { u with pwr := { u.pwr with state := 1, entering := false, exitAfter := false } })) ∧
    (o.id = .devReset → leVal r.body = 1 → (∃ iid, r.path = .port iid) → Answers (exec (.devResetCold r) s) fun t =>
      t.pwr.stage = 1 ∧ t.mem = [] ∧ t.regs = [] ∧ t.jig.flights = [] ∧ gnum t .fabAddress = 0xFFFF ∧ t.time = s.time ∧
      t.sent = .mgmt r.path (replyBytes 2 r { cold := true }) :: s.sent) ∧
    (o.id = .devReset → leVal r.body = 2 → ∃ v, exec (.devResetWarm r) s = .next (finishRequest 2 r {} v) ∧
      (∀ a, (∀ k, k < 64 → leaseOn (lentState s k) = true →
          a < dnum s .lentBase k 0 ∨ dnum s .lentBase k 0 + dnum s .lentSize k 0 ≤ a) →
        Memory.byte v.mem a = Memory.byte s.mem a) ∧
      (∀ k, k < 64 → leaseOn (lentState s k) = true → lentState v k = 8) ∧
      v.time = s.time ∧ v.jig.flights = [] ∧ v.fab.requests = [] ∧ v.mmu.keys = s.mmu.keys ∧
      gnum v .fabAddress = gnum s .fabAddress ∧
      (∀ q, pnum s .partitionState q ≠ 0 → pnum v .partitionState q = 1) ∧
      (∀ a : RegAddr, regOf (regOffset a) = some a → a.id ≠ .sbdSlice → ∀ f ∈ regFields a.id,
        rfield v a f.hi f.lo = if f.kind = .cold then rfield s a f.hi f.lo else bits (regReset a) f.hi f.lo)) ∧
    (o.id = .partitionReset → leVal r.body = 1 → ∃ v, exec (.partitionReset r) s = .next (finishRequest 2 r {} v) ∧
      (∀ f ∈ v.jig.flights, f.part ≠ o.part) ∧ v.mmu.keys = s.mmu.keys ∧ pnum v .computeAuditTiles o.part = 0 ∧
      (∀ a : RegAddr, regOf (regOffset a) = some a → regBelongs s o.part a = true → ∀ f ∈ regFields a.id, f.kind = .part →
        rfield v a f.hi f.lo = bits (regReset a) f.hi f.lo)))

/-! ## Management (19_dictionary.md, 00_scope.md R15) -/

/-- 00_scope.md R15: a role without access is refused with DENIED, and the object is unchanged. -/
def Obligations.RolesWithoutAccessAreDenied : Prop :=
  ∀ (s u : State) (r : MgmtReq) (part : Nat) (row : ObjRow) (o : ObjAddr), findObject r.index r.sub part = some (row, o) →
    let denied (i : Instr) (op : Nat) : Prop :=
      exec i s = .next (finishRequest op r { status := 2 } u) ∧ (replyBytes op r { status := 2 }).getD 12 0 = 2 ∧
      ∀ q, objectValue (finishRequest op r { status := 2 } u) q o = objectValue s q o ∧
        stagedValue (finishRequest op r { status := 2 } u) q o = stagedValue s q o
    (Served s u r (stageAnswers s (pathRole r.path) r.index r.sub false) part → pathRole r.path ∉ row.read →
      denied (.mgmtRead r) 1 ∧ denied (.readStaged r) 3 ∧
      (r.body.length = 4 → leAt r.body 0 2 = r.index → r.body.getD 2 0 = r.sub →
        (pathRole r.path = .tenant ∨ r.body.getD 3 0 = part) →
        exec (.readBatch r) s = .next (finishRequest 4 r { body := [2, 0, 0, 0] } u))) ∧
    (Served s u r (stageAnswers s (pathRole r.path) r.index r.sub true) part → pathRole r.path ∉ row.write →
      denied (.mgmtWrite r) 2)

/-- R518: a read answers the active value, a READ_STAGED the staged one, or the active one where none is staged. -/
def Obligations.ReadsGiveActiveAndStagedValues : Prop :=
  ∀ (s u : State) (r : MgmtReq) (part : Nat) (row : ObjRow) (o : ObjAddr) (v : List Nat),
    Served s u r (stageAnswers s (pathRole r.path) r.index r.sub false) part → findObject r.index r.sub part = some (row, o) →
    pathRole r.path ∈ row.read →
    (objectValue s (cutOf r part) o = some v →
      exec (.mgmtRead r) s = .next (finishRequest 1 r { body := v } u) ∧
      (s.hal.mgmt.staged.find? (·.1 == o) = none → exec (.readStaged r) s = .next (finishRequest 3 r { body := v } u)) ∧
      (r.body.length = 4 → leAt r.body 0 2 = r.index → r.body.getD 2 0 = r.sub →
        (pathRole r.path = .tenant ∨ r.body.getD 3 0 = part) → roundUp v.length 4 ≤ 1028 → exec (.readBatch r) s = .next
          (finishRequest 4 r { body := [0, 0] ++ leBytes 2 v.length ++ v ++ List.replicate (roundUp v.length 4 - v.length) 0 } u))) ∧
    (∀ e, s.hal.mgmt.staged.find? (·.1 == o) = some e → exec (.readStaged r) s = .next (finishRequest 3 r { body := e.2 } u))

/-- R510, R512, R527, R529 and R532: what is refused before any effect: an object that no table defines, a value of the wrong type or
out of range, another version; a repeated REQ_ID gets its kept response, and a TENANT without a token waits.
00_scope.md R16, R517 and R522: a staged write changes only the staged value of its object, and opens or keeps its source's session;
another source, or a commit that is PENDING, makes it wait. Other objects without a rule of their own take the value at once. -/
def Obligations.WritesAreCheckedAndStaged : Prop :=
  (
  ∀ (s u : State) (r : MgmtReq) (part : Nat),
    let role := pathRole r.path
    let reads := stageAnswers s role r.index r.sub false
    let writes := stageAnswers s role r.index r.sub true
    (findObject r.index r.sub part = none →
      (Served s u r reads part → exec (.mgmtRead r) s = .next (finishRequest 1 r { status := 9, detail := 0x0D01 } u) ∧
        exec (.readStaged r) s = .next (finishRequest 3 r { status := 9, detail := 0x0D01 } u)) ∧
      (Served s u r writes part → exec (.mgmtWrite r) s = .next (finishRequest 2 r { status := 9, detail := 0x0D01 } u))) ∧
    (∀ row o, findObject r.index r.sub part = some (row, o) → role ∈ row.write → Served s u r writes part →
      (typeOk row r.body = false → exec (.mgmtWrite r) s = .next (finishRequest 2 r { status := 2, detail := 0x0D02 } u)) ∧
      (typeOk row r.body = true → rangeOk u row o r.body = false →
        exec (.mgmtWrite r) s = .next (finishRequest 2 r { status := 2, detail := 0x0D03 } u))) ∧
    (requestPart s r = some part → pathOpen s r.path = true →
      (∀ k, s.hal.mgmt.kept.find? (fun k => k.path == r.path && k.reqId == r.reqId) = some k →
        (writes = true → exec (.mgmtWrite r) s = .next (respond s r.path k.bytes)) ∧
        (reads = true → exec (.mgmtRead r) s = .next (respond s r.path k.bytes))) ∧
      ((∀ k ∈ s.hal.mgmt.kept, ¬(k.path = r.path ∧ k.reqId = r.reqId)) →
        (r.version ≠ 1 → writes = true → exec (.mgmtWrite r) s = .next (finishRequest 2 r { status := 2, detail := 0x0D08 } s)) ∧
        (r.version = 1 → role = .tenant → (bucketNow s part).1 = 0 → reads = true →
          exec (.mgmtRead r) s = .next (finishRequest 1 r
            { status := 8, detail := 0x0D0B, retry := ceilDiv ((bucketNow s part).2 + 500000 - s.time) 1000 }
            (rbump s (halReg .halLoad) 55 40 1)))))) ∧
  (
  ∀ (s u : State) (r : MgmtReq) (part : Nat) (row : ObjRow) (o : ObjAddr),
    Served s u r (stageAnswers s (pathRole r.path) r.index r.sub true) part → findObject r.index r.sub part = some (row, o) →
    pathRole r.path ∈ row.write → typeOk row r.body = true → rangeOk u row o r.body = true →
    (row.staged = true →
      (∀ c, s.hal.mgmt.commit = some c → c.pending = true →
        ∃ us, exec (.mgmtWrite r) s = .next (finishRequest 2 r { status := 8, detail := 0x0D07, retry := us } u)) ∧
      ((∀ c, s.hal.mgmt.commit = some c → c.pending = false) →
        (∀ x, s.hal.mgmt.session = some x → x.src ≠ r.path → exec (.mgmtWrite r) s = .next (finishRequest 2 r
          { status := 8, detail := 0x0D05, retry := ceilDiv (x.last + 10000000000 - s.time) 1000 } u)) ∧
        ((∀ x, s.hal.mgmt.session = some x → x.src = r.path) → ¬(o.id = .fabRouteBlockB ∧ s.fab.copying = true) →
          ∃ v, exec (.mgmtWrite r) s = .next (finishRequest 2 r {} v) ∧
            v.hal.mgmt.staged.find? (·.1 == o) = some (o, r.body) ∧
            (∀ o', o' ≠ o → v.hal.mgmt.staged.find? (·.1 == o') = s.hal.mgmt.staged.find? (·.1 == o')) ∧
            (∃ x, v.hal.mgmt.session = some x ∧ x.src = r.path ∧ x.last = s.time) ∧
            v = { u with hal := { u.hal with mgmt := { u.hal.mgmt with
              staged := v.hal.mgmt.staged, session := v.hal.mgmt.session } } }))) ∧
    (row.staged = false → o.id ∈ [.fabAdaptiveEnable, .fabAdaptiveThreshold, .fabSlowThreshold, .faultSelect, .lendMinNotice,
        .lendLiveness, .partitionAperture, .telemRing, .telemRingLog2, .telemPeriod, .telemObjects] →
      ∃ v, exec (.mgmtWrite r) s = .next (finishRequest 2 r {} v) ∧ dget v o = r.body ∧ SameObjectsBut [o] s v ∧
        v = { u with hal := { u.hal with mgmt := { u.hal.mgmt with dict := v.hal.mgmt.dict } } }))

/-- R517 and R519 to R521: commit N + 1 of the session's holder starts the check, any other number is refused; the check makes the
commit PENDING, or REFUSED with the staged values kept; an abort and 10 s of idleness discard them.
R521 and 18_partitions.md R489: a set in which two partitions claim one bench pair outside a time-slice group, or that takes a pair
from a partition that is RUNNING or DRAINING, or that has a tick too early, is refused.
R522: at the tick of an armed commit every staged object takes effect at once, commit.seq becomes N, and the session ends. The
values that hardware sets beside them are named: states, sync homes, audit counts and hash re-keys of partitions. -/
def Obligations.CommitsAreCheckedAndApplied : Prop :=
  (
  ∀ (s u : State) (r : MgmtReq) (part : Nat) (row : ObjRow) (o : ObjAddr),
    (Written s u r part row o → o.id = .commitSeq → s.hal.mgmt.commit = none →
      (leVal r.body = (gnum s .commitSeq + 1) % 2 ^ 32 → (∃ x, s.hal.mgmt.session = some x ∧ x.src = r.path) →
        ∃ v, exec (.commitRequest r) s = .next (finishRequest 2 r {} v) ∧ gnum v .commitOutcome = 1 ∧
          v.hal.mgmt.commit = some { n := leVal r.body, tick := gnum s .commitTick } ∧ v.hal.mgmt.staged = s.hal.mgmt.staged ∧
          SameObjectsBut [{ id := .commitOutcome }] s v ∧ v = { u with hal := { u.hal with mgmt := v.hal.mgmt } }) ∧
      (leVal r.body ≠ (gnum s .commitSeq + 1) % 2 ^ 32 →
        exec (.commitRequest r) s = .next (finishRequest 2 r { status := 2, detail := 0x0D06 } u))) ∧
    (Written s u r part row o → o.id = .commitAbort → leVal r.body = 1 →
      ∃ v, exec (.commitAbort r) s = .next (finishRequest 2 r {} v) ∧ v.hal.mgmt.staged = [] ∧ v.hal.mgmt.session = none ∧
        v.hal.mgmt.commit = none ∧ SameObjectsBut [{ id := .commitOutcome }] s v ∧
        v = { u with hal := { u.hal with mgmt := v.hal.mgmt }, fab := { u.fab with heldRoutes := [] } }) ∧
    (∀ x, s.hal.mgmt.session = some x → s.hal.mgmt.commit = none → Answers (exec .sessionIdleExpiry s) fun t =>
      t.hal.mgmt.staged = [] ∧ t.hal.mgmt.session = none ∧ t.hal.mgmt.dict = s.hal.mgmt.dict ∧
      t.time = max s.time (x.last + 10000000000) ∧
      t = { s with time := t.time, hal := { s.hal with mgmt := t.hal.mgmt, mirror := t.hal.mirror }
                   fab := { s.fab with heldRoutes := [] } }) ∧
    (∀ c, s.hal.mgmt.commit = some c → c.pending = false →
      (∀ d, checkResult s c = some d → Answers (exec .commitCheckDone s) fun t =>
        gnum t .commitOutcome = 4 ∧ gnum t .commitDetail = d % 2 ^ 32 ∧ t.hal.mgmt.staged = s.hal.mgmt.staged ∧
        t.hal.mgmt.session = s.hal.mgmt.session ∧ t.hal.mgmt.commit = none ∧
        SameObjectsBut [{ id := .commitOutcome }, { id := .commitDetail }] s t) ∧
      (checkResult s c = none → Answers (exec .commitCheckDone s) fun t => ∃ k, t.hal.mgmt.commit = some k ∧ k.n = c.n ∧
        k.pending = true ∧ (k.at' = if c.tick = 0 then s.time + 100000 else c.tick) ∧ gnum t .commitOutcome = 2 ∧
        SameObjectsBut [{ id := .commitOutcome }] s t ∧ t.mem = s.mem ∧ t.regs = s.regs))) ∧
  (
  ∀ (s : State) (c : CommitReq), s.hal.mgmt.commit = some c → c.pending = false →
    ((∃ q q' k, q ≠ q' ∧ k < 256 ∧ (∃ e ∈ s.hal.mgmt.staged, e.1 = { id := .partitionBenches, part := q }) ∧
        bit (pnum (merged s) .partitionBenches q) k = true ∧ bit (pnum (merged s) .partitionBenches q') k = true ∧
        pnum (merged s) .partitionTsliceGroup q = 0) →
      Answers (exec .commitCheckDone s) fun t => gnum t .commitOutcome = 4 ∧
        ∃ e ∈ s.hal.mgmt.staged, gnum t .commitDetail = commitDetail e.1 1 % 2 ^ 32) ∧
    ((∃ q k, k < 256 ∧ (∃ e ∈ s.hal.mgmt.staged, e.1 = { id := .partitionBenches, part := q }) ∧
        2 ≤ pnum s .partitionState q ∧ bit (pnum s .partitionBenches q) k = true ∧
        bit (pnum (merged s) .partitionBenches q) k = false) →
      Answers (exec .commitCheckDone s) fun t => gnum t .commitOutcome = 4) ∧
    (c.tick ≠ 0 → c.tick < s.time + 100000 → Answers (exec .commitCheckDone s) fun t => gnum t .commitOutcome = 4)) ∧
  (
  ∀ (s : State) (c : CommitReq), s.hal.mgmt.commit = some c → c.pending = true → c.armed = true →
    s.hal.mgmt.staged.Pairwise (fun a b => a.1 ≠ b.1) →
    Answers (exec .commitTick s) fun t =>
      gnum t .commitSeq = c.n % 2 ^ 32 ∧ gnum t .commitOutcome = 3 ∧ gnum t .commitAppliedAt = c.at' % 2 ^ 64 ∧
      t.hal.mgmt.staged = [] ∧ t.hal.mgmt.session = none ∧ t.hal.mgmt.commit = none ∧ t.time = max s.time c.at' ∧
      ∀ o : ObjAddr, o.id ∉ [.commitSeq, .commitOutcome, .commitAppliedAt, .partitionState, .partitionSyncHome, .computeAuditTiles,
          .partitionHashRekey] →
        dget t o = match s.hal.mgmt.staged.find? (·.1 == o) with | some e => e.2 | none => dget s o)

/-- 18_partitions.md R499, R500 and 13_inlay.md R373: a key written or drawn is in its slot, whose counter is 1, and no other key
changes. R534: a stream whose objects its role reads starts or stops, and a period writes one record over the oldest. -/
def Obligations.KeysAndStreams : Prop :=
  ∀ (s u : State) (r : MgmtReq) (part : Nat) (row : ObjRow) (o : ObjAddr),
    let key (v : State) (slot : Nat) (tag : Bool) : Option KeyPart :=
      v.mmu.keys.find? fun x => x.part == o.part && x.slot == slot && x.tag == tag
    (∀ x ∈ [(ObjId.keySlot0Xts, 0, false), (.keySlot0Tag, 0, true), (.keySlot1Xts, 1, false), (.keySlot1Tag, 1, true)],
      Written s u r part row o → o.id = x.1 →
      ∃ v k, exec (.keyWrite r) s = .next (finishRequest 2 r {} v) ∧ key v x.2.1 x.2.2 = some k ∧ k.bytes = r.body ∧
        pnum v (if x.2.1 = 0 then .partitionSealVersion0 else .partitionSealVersion1) o.part = 1 ∧
        (∀ slot tag, (slot, tag) ≠ (x.2.1, x.2.2) → key v slot tag = key s slot tag) ∧
        v = { u with mmu := { u.mmu with keys := v.mmu.keys }
                     hal := { u.hal with mgmt := { u.hal.mgmt with dict := v.hal.mgmt.dict } } }) ∧
    (Written s u r part row o → o.id = .keyGenerate →
      ∃ v k g, exec (.keyGenerate r) s = .next (finishRequest 2 r {} v) ∧ key v (leVal r.body - 1) false = some k ∧
        k.bytes.length = 64 ∧ key v (leVal r.body - 1) true = some g ∧ g.bytes.length = 32 ∧
        (∀ slot tag, slot ≠ leVal r.body - 1 → key v slot tag = key s slot tag)) ∧
    (Written s u r part row o → o.id = .telemEnable →
      (leVal r.body = 0 → ∃ v, exec (.telemetryEnable r) s = .next (finishRequest 2 r {} v) ∧
        (∀ t ∈ v.hal.telem, ¬(t.1 = o.part ∧ t.2.1 = o.i)) ∧ dget v o = [0]) ∧
      (leVal r.body = 1 →
        (dget s { o with id := .telemObjects } = [] → ∃ v seq, exec (.telemetryEnable r) s = .next (finishRequest 2 r {} v) ∧
          (o.part, o.i, seq, pathRole r.path) ∈ v.hal.telem ∧ dget v o = [1]) ∧
        (∀ e ∈ objectList (dget s { o with id := .telemObjects }),
          (∀ row' o', findObject e.1 e.2.1 (entryPart (pathRole r.path) o.part e.2.2) = some (row', o') →
            pathRole r.path ∉ row'.read) →
          exec (.telemetryEnable r) s = .next (finishRequest 2 r { status := 2 } u)))) ∧
    (∀ (q k seq pa : Nat) (role : Role) (w : State), awake s = true → s.retention = [] →
      s.hal.telem.find? (fun t => t.1 == q && t.2.1 == k) = some (q, k, seq, role) →
      dget s { id := .telemObjects, i := k, part := q } = [] →
      let va := leVal (dget s { id := .telemRing, i := k, part := q }) +
        seq % 2 ^ leVal (dget s { id := .telemRingLog2, i := k, part := q }) * 16
      va % 0x10000 ≤ 0xFFF0 → Maps s w q va true pa → regionOf pa ≠ .neighbor →
      physRefusal w { part := some q } pa 16 true = none → poisonFree w pa 16 = true →
      Answers (exec (.telemetrySample q k) s) fun t =>
        Memory.read t.mem pa 16 = leBytes 8 s.time ++ leBytes 4 seq ++ [0, 0, 0, 0] ∧ SameBytesOutside pa 16 s t ∧
        t.hal.telem.find? (fun x => x.1 == q && x.2.1 == k) = some (q, k, (seq + 1) % 2 ^ 32, role) ∧ t.regs = s.regs)

/-- 20_faults.md R556 to R558, 22_module.md R601 and 21_clocks_power.md R574: image chunks, the start of an update, the acknowledgement
of MOD_ALERT_N, and the closing of the pennant bypass.
R526 and R530 and 22_module.md R602: a doorbell is taken when the last request is answered, else RETRY; Neighbor Discovery is
answered for the own address alone; the test access port loads, captures and shifts. -/
def Obligations.ControlsAndTestAccess : Prop :=
  (
  ∀ (s u : State) (r : MgmtReq) (part : Nat) (row : ObjRow) (o : ObjAddr), Written s u r part row o →
    (o.id = .updateChunk → ∃ v, exec (.updateChunk r) s = .next (finishRequest 2 r {} v) ∧
      v.hal.flash.image.find? (·.1 == gnum s .updateOffset) = some (gnum s .updateOffset, r.body) ∧
      gnum v .updateOffset = (gnum s .updateOffset + 1024) % 2 ^ 32 ∧ v.hal.flash.otherValid = false ∧
      SameObjectsBut [{ id := .updateOffset }] s v) ∧
    (o.id = .updateStart → verifiedImage s = none → ∀ i ∈ (if leVal r.body = 1 then [Instr.updateStartFirmware r]
        else [.updateStartMicrocode r]),
      ∃ v, exec i s = .next (finishRequest 2 r {} v) ∧ gnum v .updateState = 4 ∧ v.hal.flash = s.hal.flash ∧
        v.hal.active = s.hal.active) ∧
    (∀ image, o.id = .updateStart → verifiedImage s = some image →
      (leVal r.body = 1 → standbyOk s = true → NoFaultRing s → gnum s .updateState ≠ 3 →
        ∃ v, exec (.updateStartFirmware r) s = .next (finishRequest 2 r {} v) ∧ v.hal.flash.bank = 1 - s.hal.flash.bank ∧
          gnum v .updateState = 3 ∧ v.hal.active = 1 - s.hal.active ∧ v.hal.flash.image = [] ∧ NewestFault v 0x11 0 0) ∧
      (leVal r.body = 1 → standbyOk s = false → ∃ v, exec (.updateStartFirmware r) s = .next (finishRequest 2 r {} v) ∧
        gnum v .updateState = 2 ∧ v.hal.flash = s.hal.flash) ∧
      (leVal r.body = 2 → NoFaultRing s → ∃ v, exec (.updateStartMicrocode r) s = .next (finishRequest 2 r {} v) ∧
        v.hal.flash.microcode = setPositions 16 (gnum s .updatePanels) ∧ gnum v .updateState = 3 ∧ NewestFault v 0x11 0 0 ∧
        v.mem = s.mem ∧ v.jig = s.jig)) ∧
    (o.id = .moduleAlertAck → leVal r.body = 1 → ∃ v, exec (.moduleAlertAck r) s = .next (finishRequest 2 r {} v) ∧
      v = { u with hal := { u.hal with ackSeq := u.hal.serviceSeq } } ∧
      (s.pwr.stage = 6 → s.hal.outA = false → modAlert v = false)) ∧
    (o.id = .penBypass → leVal r.body = 1 → ∃ v, exec (.penBypassWrite r) s = .next (finishRequest 2 r {} v) ∧
      v.pen.bypassOpen = false ∧ v.pen.position = 0xFF ∧ v.pen.master = false ∧ gnum v .penBypass = 1 ∧
      SameObjectsBut [{ id := .penBypass }] s v)) ∧
  (
  ∀ s : State,
    (∀ l v, s.pwr.stage = 6 → linkUp s (.pf l) = true →
      ((mailboxOf s (.pf l)).1 = (mailboxOf s (.pf l)).2 → Answers (exec (.mailboxDoorbell (.pf l) v) s) fun t =>
        mailboxOf t (.pf l) = (v % 2 ^ 32, (mailboxOf s (.pf l)).2) ∧
        t = { s with hal := { s.hal with mailbox := t.hal.mailbox } }) ∧
      ((mailboxOf s (.pf l)).1 ≠ (mailboxOf s (.pf l)).2 → Answers (exec (.mailboxDoorbell (.pf l) v) s) fun t =>
        ∃ bytes, t = { s with sent := .mgmt (.mailbox (.pf l)) bytes :: s.sent } ∧ bytes.getD 12 0 = 8 ∧
          leAt bytes 14 2 = 0x0D09 ∧ leAt bytes 4 4 = v % 2 ^ 32)) ∧
    (∀ target, (target = ownIid → pathOpen s (.port target) = true →
        exec (.neighborDiscovery target) s = .next { s with sent := .neighbor ownIid :: s.sent }) ∧
      (target ≠ ownIid → exec (.neighborDiscovery target) s = .next s)) ∧
    (s.pwr.rails ≠ .off →
      exec (.testAccessPort .reset) s = .next { s with tap := {} } ∧
      exec (.testAccessPort (.load "IDCODE")) s = .next { s with tap := { ir := 1, shift := [] } } ∧
      (gnum s .debugJtag ≠ 1 → exec (.testAccessPort (.load "EXTEST")) s = .next { s with tap := { ir := 0, shift := [] } }) ∧
      (s.tap.ir = 1 → Answers (exec (.testAccessPort .capture) s) fun t =>
        t.tap.shift.length = 32 ∧ t.tap.shift.head? = some true ∧ t = { s with tap := t.tap }) ∧
      (∀ b rest tdi, s.tap.shift = b :: rest → exec (.testAccessPort (.shift tdi)) s =
        .next { s with tap := { s.tap with shift := rest ++ [tdi] }, sent := .tdo b :: s.sent })))

/-! ## Leases of neighbour memory (11_drawers_tiers.md R320 to R328) -/

/-- R322: a slot that holds no lease sends REQUEST when it is written, and one that waits takes GRANT or REFUSE; the lender grants what
it can lend, with a notice period no shorter than lend.min_notice (R323). The tier and the notice that REQUEST asks for are open
(log entry 11). -/
def Obligations.LeasesAreGranted : Prop :=
  (∀ (s u : State) (r : MgmtReq) (part : Nat) (row : ObjRow) (o : ObjAddr), Written s u r part row o → o.id = .leaseState →
    leVal r.body = 1 →
    (borrowState s o.i ∈ [0, 5, 6] → ∃ v tier notice, exec (.leaseRequest r) s = .next (finishRequest 2 r {} v) ∧
      tier ∈ [2, 3] ∧ borrowState v o.i = 2 ∧ SameObjectsBut [{ id := .leaseState, i := o.i }] s v ∧
      v.sent = .lease (dnum s .leaseLender o.i 0) 1 [dnum s .leaseSize o.i 0, tier, notice, Config.serial] :: s.sent ∧
      v.mem = s.mem ∧ v.regs = s.regs) ∧
    (borrowState s o.i ∉ [0, 5, 6] → exec (.leaseRequest r) s = .next (finishRequest 2 r { status := 2 } u))) ∧
  (∀ (s : State) (slot peer id base size tier notice serial : Nat),
    let part := dnum s .leasePartition slot 0
    (borrowState s slot = 2 → dnum s .leaseLender slot 0 = peer → id < 2 ^ 32 →
      ∃ u, exec (.leaseGrant .borrower slot peer id base size tier notice serial) s = .next (postEvent u
          { ring := 0, type := 4, part := part, detail := 0, aux := id }) ∧
        borrowState u slot = 3 ∧ dnum u .leaseId slot 0 = id ∧ findLease u .borrower slot = some
          { side := .borrower, slot := slot, peer := peer, remoteBase := base, notice := notice, alive := s.time } ∧
        (slot < 256 → ∀ a n, 0x800000000000 + dnum s .leaseWindow slot 0 ≤ a →
          a + n ≤ 0x800000000000 + dnum s .leaseWindow slot 0 + dnum s .leaseSize slot 0 → (leaseFor u part a n).isSome = true) ∧
        u = { s with hal := { s.hal with mgmt := { s.hal.mgmt with dict := u.hal.mgmt.dict } }
                     fab := { s.fab with leases := u.fab.leases } }) ∧
    (borrowState s slot ≠ 2 → exec (.leaseGrant .borrower slot peer id base size tier notice serial) s = .next s) ∧
    (lendable s slot id base size tier = true → serial < 2 ^ 64 → id < 2 ^ 32 → peer < 2 ^ 16 → base < 2 ^ 64 → size < 2 ^ 64 →
      Answers (exec (.leaseGrant .lender slot peer id base size tier notice serial) s) fun t =>
        let n := max notice (gnum s .lendMinNotice)
        lentState t slot = 3 ∧ dnum t .lentBorrower slot 0 = peer ∧ dnum t .lentBase slot 0 = base ∧
        dnum t .lentSize slot 0 = size ∧ dnum t .lentNotice slot 0 = n % 2 ^ 64 ∧ dnum t .lentId slot 0 = id ∧
        findLease t .lender slot = some
          { side := .lender, slot := slot, peer := peer, remoteBase := base, notice := n, alive := s.time } ∧
        id ∈ t.fab.leaseIds ∧ inLentRange t base size = true ∧ t.sent = .lease peer 2 [id, base, n] :: s.sent ∧
        t.mem = s.mem ∧ t.regs = s.regs ∧ ∀ o : ObjAddr, o.i ≠ slot → dget t o = dget s o) ∧
    (lendable s slot id base size tier = false →
      exec (.leaseGrant .lender slot peer id base size tier notice serial) s = .next s) ∧
    (borrowState s slot = 2 → dnum s .leaseLender slot 0 = peer → ∀ reason,
      ∃ u, exec (.leaseRefuse .borrower slot peer reason) s = .next (postEvent u { ring := 0, type := 4, part := part, detail := 3 }) ∧
        borrowState u slot = 6 ∧ SameObjectsBut [{ id := .leaseState, i := slot }, { id := .leaseId, i := slot }] s u ∧
        u = { s with hal := { s.hal with mgmt := { s.hal.mgmt with dict := u.hal.mgmt.dict } } }) ∧
    (∀ reason, exec (.leaseRefuse .lender slot peer reason) s = .next { s with sent := .lease peer 3 [reason] :: s.sent }))

/-- R322 and R323: KEEPALIVE is sent and noted while a lease is in force; a revocation sends NOTICE with a deadline at the end of the
notice period, and the borrower's lease stays usable under NOTICE.
R323 to R326 and R328: a lease ends by RELEASE, at its deadline, or by silence; it then serves no access of the borrower, and the
lender's range is zero, and cannot be lent again before its scrub is done. -/
def Obligations.LeasesLiveAndEnd : Prop :=
  (
  (∀ (s : State) (side : LeaseSide) (slot : Nat) (l : Lease), awake s = true → findLease s side slot = some l →
    sideOn s side slot = true →
    (Answers (exec (.leaseKeepalive side slot true) s) fun t => findLease t side slot = some { l with alive := s.time } ∧
      t = { s with fab := { s.fab with leases := t.fab.leases } }) ∧
    exec (.leaseKeepalive side slot false) s = .next { s with sent := .lease l.peer 4 [leaseIdOf s side slot] :: s.sent }) ∧
  (∀ (s u : State) (r : MgmtReq) (part : Nat) (row : ObjRow) (o : ObjAddr), Written s u r part row o → o.id = .lentState →
    (∀ l, lentState s o.i = 3 → findLease s .lender o.i = some l →
      ∃ v, exec (.leaseRevoke r) s = .next (finishRequest 2 r {} v) ∧ lentState v o.i = 4 ∧
        findLease v .lender o.i = some { l with deadline := s.time + l.notice } ∧
        v.sent = .lease l.peer 5 [dnum s .lentId o.i 0, s.time + l.notice] :: s.sent ∧
        SameObjectsBut [{ id := .lentState, i := o.i }] s v ∧ v.mem = s.mem) ∧
    (lentState s o.i ≠ 3 → exec (.leaseRevoke r) s = .next (finishRequest 2 r { status := 2 } u))) ∧
  ∀ (s : State) (slot id deadline : Nat), deadline < 2 ^ 64 → borrowState s slot = 3 → dnum s .leaseId slot 0 = id →
    let left := min 0xFFFFFFFF ((deadline - s.time) / 1000)
    ∃ u, exec (.leaseNotice slot id deadline) s = .next (postEvent u
        { ring := 0, type := 4, part := dnum s .leasePartition slot 0, detail := 1, aux := id + left * 2 ^ 32 }) ∧
      borrowState u slot = 4 ∧ dnum u .leaseDeadline slot 0 = deadline ∧ (∀ q a n, leaseFor u q a n = leaseFor s q a n) ∧
      u = { s with hal := { s.hal with mgmt := { s.hal.mgmt with dict := u.hal.mgmt.dict } } }) ∧
  (
  ∀ (s : State) (slot : Nat),
    let part := dnum s .leasePartition slot 0
    let id := dnum s .leaseId slot 0
    let gone (u : State) (st : Nat) : Prop :=
      borrowState u slot = st ∧ findLease u .borrower slot = none ∧ (∀ q a n, leaseFor u q a n ≠ some slot) ∧
      SameObjectsBut [{ id := .leaseState, i := slot }, { id := .leaseDeadline, i := slot }] s u ∧ u.mem = s.mem
    let scrubbing (t : State) : Prop :=
      lentState t slot = 8 ∧ findLease t .lender slot = none ∧ t.sent = s.sent ∧
      t.mmu.scrubs = s.mmu.scrubs ++ [{ id := s.mmu.nextScrub, kind := .lent, first := slot, count := 1 }] ∧
      SameBytesOutside (dnum s .lentBase slot 0) (dnum s .lentSize slot 0) s t ∧
      (∀ a, dnum s .lentBase slot 0 ≤ a → a < dnum s .lentBase slot 0 + dnum s .lentSize slot 0 → Memory.byte t.mem a = 0) ∧
      (∀ k id tier, lendable t k id (dnum s .lentBase slot 0) (dnum s .lentSize slot 0) tier = false) ∧
      SameObjectsBut [{ id := .lentState, i := slot }] s t
    (sideOn s .borrower slot = true → Answers (exec (.leaseRelease .borrower slot) s) fun t => gone t 5 ∧ t.time = s.time ∧
      t.sent = .lease (dnum s .leaseLender slot 0) 6 [id] :: s.sent) ∧
    (sideOn s .lender slot = true → slot < 64 → Answers (exec (.leaseRelease .lender slot) s) fun t =>
      scrubbing t ∧ t.time = s.time) ∧
    (borrowState s slot = 4 → ∃ u, exec (.leaseDeadline .borrower slot) s = .next (postEvent u
        { ring := 0, type := 4, part := part, detail := 2, aux := id }) ∧
      gone u 5 ∧ u.time = max s.time (dnum s .leaseDeadline slot 0) ∧ u.sent = s.sent) ∧
    (∀ l, slot < 64 → lentState s slot = 4 → findLease s .lender slot = some l →
      Answers (exec (.leaseDeadline .lender slot) s) fun t => scrubbing t ∧ t.time = max s.time l.deadline) ∧
    (∀ l, awake s = true → findLease s .borrower slot = some l → sideOn s .borrower slot = true →
      ∃ u, exec (.leaseLivenessExpiry .borrower slot) s = .next (postEvent u
          { ring := 0, type := 4, part := part, detail := 3, aux := id }) ∧
        gone u 6 ∧ u.time = max s.time (l.alive + gnum s .lendLiveness) ∧ u.sent = s.sent) ∧
    (∀ l, slot < 64 → awake s = true → findLease s .lender slot = some l → sideOn s .lender slot = true →
      Answers (exec (.leaseLivenessExpiry .lender slot) s) fun t => scrubbing t ∧
        t.time = max s.time (l.alive + 2 * gnum s .lendLiveness)) ∧
    (∀ x, awake s = true → s.mmu.scrubs.find? (·.id == x.id) = some x → Answers (exec (.scrubDone x.id) s) fun t =>
      (∀ y ∈ t.mmu.scrubs, y.id ≠ x.id) ∧ t.mem = s.mem ∧
      (x.kind = .lent → lentState t x.first = 5 ∧ SameObjectsBut [{ id := .lentState, i := x.first }] s t) ∧
      (x.kind ≠ .lent → t = { s with mmu := { s.mmu with scrubs := t.mmu.scrubs } })))

/-! ## Recovery in service (20_faults.md, 01_cabinet.md R39) -/

/-- 20_faults.md R540 to R545: a bench that fails is replaced by the lowest spare, whose takeover carries drawer and registers over; with
no spare left its logical bench is gone and its partition stops. The OWNER retires a bench by writing it. -/
def Obligations.BenchesFailAndAreReplaced : Prop :=
  ∀ (s : State) (p b : Nat), p < 16 → b < 34 →
    let failed (detail : Nat) (t : State) : Prop :=
      ∀ l, servedBy s p b = some l →
        (∀ x, spareOf s p = some x → NoFaultRing s → (∀ q, ringCtx s q 0 = none) →
          (p, x, l) ∈ t.takingOver ∧ t.spareMap = s.spareMap ∧ t.mem = s.mem ∧
          (∃ r ∈ t.hal.faults, r.cls = 1 ∧ r.sev = 2 ∧ r.detail = detail ∧ r.unit = p ∧ r.sub = b ∧ r.part = none) ∧
          rfield t (panelReg .fltPanel p 0) 13 8 = b ∧ rbit t (panelReg .fltPanel p 0) 63 = true ∧
          (∀ e, t.retention.find? (fun e => e.1 == p && e.2.1 == .bench x) = some e →
            e.2.2 = .waking) ∧
          SameRegsBut [panelReg .fltPanel p 0, panelReg .pwrRet p 0, panelReg .pwrRetstat p 0] s t) ∧
        (spareOf s p = none → physOf t p l = none ∧ (p, b) ∈ t.retiredBench ∧
          (∀ q, benchOwner s p l = some q → pnum t .partitionState q = 1) ∧
          (NoFaultRing s → s.jig.flights = [] → (∀ q, ringCtx s q 0 = none) →
            ∃ r ∈ t.hal.faults, r.cls = 1 ∧ r.sev = 3 ∧ r.detail = detail ∧ r.unit = p ∧ r.sub = b ∧ r.part = benchOwner s p l))
    (∀ detail, 1 ≤ detail → detail ≤ 4 → benchState s p b ≠ 1 → benchState s p b ≠ 3 →
      Answers (exec (.benchFailure p b detail) s) (failed detail)) ∧
    (benchState s p b = 1 ∨ benchState s p b = 3 → ∀ detail, exec (.benchFailure p b detail) s = .next s) ∧
    (∀ (u : State) (r : MgmtReq) (part : Nat) (row : ObjRow) (o : ObjAddr), Written s u r part row o → o.id = .computeRetireBench →
      leVal r.body = 256 * p + b →
      (benchState s p b = 3 → exec (.retireBench r) s = .next (finishRequest 2 r { status := 2 } u)) ∧
      (benchState s p b = 1 → ∃ v, exec (.retireBench r) s = .next (finishRequest 2 r {} v) ∧
        v.retiredBench = s.retiredBench ++ [(p, b)] ∧ v.spareMap = s.spareMap ∧ v.takingOver = s.takingOver) ∧
      (benchState s p b ≠ 1 → benchState s p b ≠ 3 → ∃ v, exec (.retireBench r) s = .next (finishRequest 2 r {} v) ∧ failed 5 v)) ∧
    (∀ x l, x < 34 → s.takingOver.find? (fun e => e.1 == p && e.2.1 == x) = some (p, x, l) → physOf s p l = some b →
      Answers (exec (.spareTakeover p x) s) fun t =>
        physOf t p l = some x ∧ (p, b) ∈ t.retiredBench ∧ (∀ e ∈ t.takingOver, ¬(e.1 = p ∧ e.2.1 = x)) ∧
        (∀ off, off < 0x10000 → regStored t (locBase (.bench p x) + off) = regStored s (locBase (.bench p b) + off)) ∧
        (s.dram.retired = [] → s.dram.fenced = [] → ∀ i, i < 0x400000 →
          Memory.byte t.mem (drawerBase p x + i) = Memory.byte s.mem (drawerBase p b + i)))

/-- 20_faults.md R546 to R550 and 01_cabinet.md R39: a channel of HBM4 retires into the spare pool while it has room, else it is fenced;
a soft retirement ends with its copy. A spine port counts its CRC errors and retries, and a lane that is replaced, or a retry that fails,
is recorded. 14_integrity.md R398: the parity of an Inlay encoder's input ends its MI with POISON, and a word that its code cannot correct
reads as POISON. -/
def Obligations.ChannelsAndLanesAreRetired : Prop :=
  ∀ (s : State) (st c : Nat),
    let room : Prop := s.dram.retired.length < 8 ∧ 800 * (s.dram.retired.length + 1) ≤ gnum s .memHbmSpareFrames
    let out (hard : Bool) (t : State) : Prop :=
      (room → t.dram.retired = s.dram.retired ++ [(st, c, hard, hard)] ∧ t.dram.fenced = s.dram.fenced) ∧
      (¬room → t.dram.fenced = s.dram.fenced ++ [(st, c)] ∧ t.dram.retired = s.dram.retired) ∧
      (NoFaultRing s → (∀ q, ringCtx s q 0 = none) →
        t.mem = s.mem ∧ t.regs = s.regs ∧ ∃ r ∈ t.hal.faults, r.cls = 2 ∧ (¬room → r.sev = 4))
    (∀ hard, st < 8 → c < 32 → hbmOut s st c = false → (hard = true ∨ 4096 < corrections s st c) →
      Answers (exec (.hbmChannelRetirement st c hard) s) (out hard)) ∧
    (corrections s st c ≤ 4096 → exec (.hbmChannelRetirement st c false) s = .next s) ∧
    (∀ (u : State) (r : MgmtReq) (part : Nat) (row : ObjRow) (o : ObjAddr), Written s u r part row o → o.id = .memHbmRetire →
      leVal r.body = 256 * st + c → c < 256 →
      (hbmOut s st c = false → ∃ v, exec (.hbmRetire r) s = .next (finishRequest 2 r {} v) ∧ out false v) ∧
      (hbmOut s st c = true → exec (.hbmRetire r) s = .next (finishRequest 2 r {} u))) ∧
    (Answers (exec (.hbmRetireCopyDone st c) s) fun t =>
      (∀ r ∈ t.dram.retired, r.1 = st → r.2.1 = c → r.2.2.2 = true) ∧ t.dram.retired.length = s.dram.retired.length ∧
      t = { s with dram := { s.dram with retired := t.dram.retired } }) ∧
    (∀ p port errs retries outcome, p < 16 → port < 4 → NoFaultRing s → outcome ∈ [LaneOutcome.delivered, .repaired, .failed] →
      Answers (exec (.spineLaneRepair p port ⟨errs, retries, outcome⟩) s) fun t =>
        let a := panelReg .fltSpinePort p port
        rfield t a 47 32 = satAdd 16 (rfield s a 47 32) errs ∧ rfield t a 31 16 = satAdd 16 (rfield s a 31 16) retries ∧
        (outcome = .repaired → rbit t a 63 = true) ∧ (outcome ≠ .delivered → NewestFault t 5 0 0) ∧
        (outcome = .delivered → t.hal = s.hal) ∧ SameRegsBut [a] s t ∧ t.mem = s.mem) ∧
    (∀ p port mi f, p < 16 → port < 4 → QuietRecord s (some f.part) → findFlight s mi = some f →
      Answers (exec (.spineLaneRepair p port ⟨0, 0, .encoderParity mi⟩) s) fun t =>
        findFlight t mi = some { f with conds := f.conds ++ [{ status := 6 }] } ∧ t.regs = s.regs ∧ t.mem = s.mem ∧
        ∃ r ∈ t.hal.faults, r.cls = 7 ∧ r.detail = 6 ∧ r.unit = p ∧ r.part = some f.part) ∧
    (∀ p port a, p < 16 → port < 4 → (∃ q b, regionOf a = .drawer q b ∨ regionOf a = .sideboard q) →
      Answers (exec (.spineLaneRepair p port ⟨0, 0, .wordError a⟩) s) fun t =>
        readsPoison t a 1 = true ∧ (∀ u, isPoison s u = true → isPoison t u = true) ∧ t = { s with poison := t.poison })

/-- 20_faults.md R553 and R554: epochs copy the state of the active core to the standby, and hold back responses until they are
acknowledged; when the active core falls silent the standby resumes from the last acknowledged epoch. -/
def Obligations.HalyardCoresStandIn : Prop :=
  ∀ s : State,
    (standbyOk s = true → s.hal.copying = none → exec .halyardEpochClose s = .next { s with hal := { s.hal with
      copying := some s.hal.mgmt, epoch := s.hal.epoch + 1 } }) ∧
    (∀ m, s.hal.copying = some m → Answers (exec .halyardEpochAck s) fun t =>
      t.hal.mirror = m ∧ t.hal.copying = none ∧ t.hal.acked = s.hal.epoch ∧ t.hal.held = s.hal.held.filter (s.hal.epoch < ·.1) ∧
      (∀ h ∈ s.hal.held, h.1 ≤ s.hal.epoch → (∀ fn, h.2.1 = .mailbox fn → linkUp s fn = true) → .mgmt h.2.1 h.2.2 ∈ t.sent) ∧
      (∀ c d, s.hal.mgmt.commit = some c → m.commit = some d → c.pending = true → d.pending = true → c.n = d.n →
        t.hal.mgmt.commit = some { c with armed := true })) ∧
    (s.pwr.rails ≠ .off → standbyOk s = true → Answers (exec .halyardSwitchover s) fun t =>
      t.hal.active = 1 - s.hal.active ∧ standbyOk t = false ∧ (t.hal.outA && t.hal.outB) = false ∧ t.hal.held = [] ∧
      t.hal.mgmt = restored s ∧ t.hal.mirror = restored s ∧ (NoFaultRing t → NewestFault t 6 0 0) ∧
      (s.hal.mirror.commit = none → ∀ o, hardwareOwned o = false → o.id ≠ .commitOutcome →
        dget t o = objIn s.hal.mirror.dict o)) ∧
    (s.pwr.rails ≠ .off → (s.hal.outA != s.hal.outB) = true → Answers (exec .halyardSwitchover s) fun t =>
      t.hal.outA = true ∧ t.hal.outB = true ∧ t.hal.held = [] ∧ (∀ q, pnum s .partitionState q ≠ 0 → pnum t .partitionState q = 1) ∧
      NewestFault t 6 0 3) ∧
    ((s.hal.outA != s.hal.outB) = true →
      (gnum s .updateState ≠ 2 → exec (.halyardStandbyReturn true) s = .next { s with hal := { s.hal with
        outA := false, outB := false, mirror := s.hal.mgmt, acked := s.hal.epoch } }) ∧
      Answers (exec (.halyardStandbyReturn false) s) fun t => NewestFault t 6 0 4 ∧ standbyOk t = false) ∧
    (∀ edge, edge = 0 ∨ edge = 2 →
      (edge ∉ s.hal.linksDown → Answers (exec (.halyardLinkFailure edge) s) fun t =>
        t.hal.linksDown = s.hal.linksDown ++ [edge] ∧ NewestFault t 5 0 0) ∧
      (edge ∈ s.hal.linksDown → exec (.halyardLinkFailure edge) s = .next s))

/-- 18_partitions.md R501: at a multiple of the quantum a time-slice group goes on with its next member, the lowest after the last; the
bench registers and the check units of the member that leaves are kept (R502). R492 and R493: a Function Level Reset, and accesses
through BAR2. -/
def Obligations.SlicesAndFunctions : Prop :=
  ∀ s : State,
    (∀ g m m' ms, awake s = true → groupMembers s g = m :: m' :: ms → Answers (exec (.tsliceSwitch g) s) fun t =>
      let cur : TSlice := (s.mmu.tslice.find? (·.group == g)).getD { group := g, running := m }
      let next := (((m :: m' :: ms).filter (cur.running < ·)).head?).getD m
      let at' := switchTime s cur (pnum s .partitionTsliceQuantum m)
      t.mmu.tslice.find? (·.group == g) = some { group := g, running := next, last := at' } ∧ t.time = max s.time at' ∧
      (next ≠ cur.running → ∃ regs, t.mmu.saved.find? (·.1 == cur.running) = some (cur.running, regs) ∧
        (∀ x ∈ sharedBenches s cur.running, ∀ b, physOf s x.1 x.2.1 = some b → ∀ e ∈ benchRegs s x.1 b,
          (x.1, x.2.1, e.1, e.2) ∈ regs) ∧ ∀ e ∈ unitRegs s cur.running, e ∈ regs) ∧
      (∀ g', g' ≠ g → t.mmu.tslice.find? (·.group == g') = s.mmu.tslice.find? (·.group == g'))) ∧
    (∀ g, (groupMembers s g).length ≤ 1 → exec (.tsliceSwitch g) s = .next s) ∧
    (∀ l n, l ∈ s.pwr.links → (l, n) ∉ s.pwr.flrs →
      exec (.vfFlr l n) s = .next { s with pwr := { s.pwr with flrs := s.pwr.flrs ++ [(l, n)] } }) ∧
    (∀ l off n bs, linkUp s (.pf l) = true → s.retention = [] →
      let pa := (Config.pfBar2Base l + off) % 2 ^ 48
      regionOf pa ≠ .neighbor → jobAwaits s s.fab.nextJob = false →
      (physRefusal s {} pa n false = none → readsPoison s pa n = false → exec (.bar2Access (.pf l) off (.read n)) s =
        .next { noAsks s with sent := .barData (.pf l) 0 0 (Memory.read s.mem pa n) :: s.sent }) ∧
      (physRefusal s {} pa bs.length true = none → Answers (exec (.bar2Access (.pf l) off (.write bs)) s) fun t =>
        t = { physWrite (noAsks s) pa bs with sent := .barData (.pf l) 0 0 [] :: s.sent })) ∧
    (∀ l f off n, linkUp s (.vf l f) = true →
      (vfPart s (.vf l f) = none → exec (.bar2Access (.vf l f) off (.read n)) s =
        .next { s with sent := .barData (.vf l f) 0 0 (List.replicate n 0) :: s.sent }) ∧
      (∀ q, vfPart s (.vf l f) = some q → 0 < n →
        let va := (pnum s .partitionAperture q + off) % 2 ^ 48
        va % 0x10000 + n ≤ 0x10000 →
        (∀ pa w, Maps (noAsks s) w q va false pa → regionOf pa ≠ .neighbor → physRefusal w { part := some q } pa n false = none →
          s.retention = [] → jobAwaits s s.fab.nextJob = false → readsPoison w pa n = false → exec (.bar2Access (.vf l f) off (.read n)) s =
            .next { w with sent := .barData (.vf l f) 0 0 (Memory.read w.mem pa n) :: w.sent }) ∧
        (∀ d w, translate (noAsks s) q va false = (.error d, w) → w.fab.asks = [] → jobAwaits w w.fab.nextJob = false → exec (.bar2Access (.vf l f) off (.read n)) s =
          .next { w with sent := .barData (.vf l f) 2 d (List.replicate n 0) :: w.sent })))
end

