-- ==== Sys2Proof/Laws/Memory.lean ====
section
/-!
SUPPORT. The memory: its canonical form as an order on the list, what keeps it, and what a write leaves to be read (01_cabinet.md R31;
log entry 3).
-/
namespace Sys2Proof.Laws

open Sys2Proof.Machine

/-- The canonical form: strictly rising addresses, and no zero byte listed. -/
theorem wf_iff (m : List Host.Cell) :
    Memory.wf m = true ↔ m.Pairwise (fun c d => c.1 < d.1) ∧ ∀ c ∈ m, c.2 ≠ 0 := by
  induction m with
  | nil => simp [Memory.wf]
  | cons c l ih =>
    cases l with
    | nil => simp [Memory.wf]
    | cons d l =>
      rw [Memory.wf, Bool.and_eq_true, Bool.and_eq_true, ih]
      simp only [List.pairwise_cons, List.mem_cons, decide_eq_true_eq, bne_iff_ne, ne_eq]
      constructor
      · rintro ⟨⟨hc, hcd⟩, ⟨hd, hl⟩, hz⟩
        refine ⟨⟨?_, hd, hl⟩, ?_⟩
        · rintro e (rfl | he)
          · exact hcd
          · exact Nat.lt_trans hcd (hd e he)
        · rintro e (rfl | he)
          · exact hc
          · exact hz e he
      · rintro ⟨⟨hc, hd, hl⟩, hz⟩
        exact ⟨⟨hz c (Or.inl rfl), hc d (Or.inl rfl)⟩, ⟨hd, hl⟩, fun e he => hz e (Or.inr he)⟩

/-- Taking cells away keeps the canonical form. -/
theorem filter_wf (m : List Host.Cell) (p : Host.Cell → Bool) (h : Memory.wf m = true) : Memory.wf (m.filter p) = true := by
  rw [wf_iff] at h ⊢
  exact ⟨h.1.sublist List.filter_sublist, fun c hc => h.2 c ((List.mem_filter.1 hc).1)⟩

/-- The cells of a byte string lie in its range, in order, and none of them is zero. -/
theorem cells_spec (bs : List Nat) : ∀ a, (Memory.cells a bs).Pairwise (fun c d => c.1 < d.1) ∧
    ∀ c ∈ Memory.cells a bs, a ≤ c.1 ∧ c.1 < a + bs.length ∧ c.2 ≠ 0 := by
  induction bs with
  | nil => simp [Memory.cells]
  | cons b bs ih =>
    intro a
    obtain ⟨hp, hm⟩ := ih (a + 1)
    have later : ∀ c ∈ Memory.cells (a + 1) bs, a ≤ c.1 ∧ c.1 < a + (b :: bs).length ∧ c.2 ≠ 0 := fun c hc => by
      obtain ⟨h1, h2, h3⟩ := hm c hc
      exact ⟨by omega, by simp only [List.length_cons]; omega, h3⟩
    rw [Memory.cells]
    split
    · exact ⟨hp, later⟩
    · rename_i hb
      refine ⟨List.pairwise_cons.2 ⟨fun d hd => (hm d hd).1, hp⟩, ?_⟩
      intro c hc
      rcases List.mem_cons.1 hc with rfl | hc
      · refine ⟨Nat.le_refl a, by simp, fun h => hb ?_⟩
        have := congrArg BitVec.toNat h
        simpa using this
      · exact later c hc

/-- A write keeps the canonical form. -/
theorem write_wf (m : List Host.Cell) (a : Nat) (bs : List Nat) (h : Memory.wf m = true) :
    Memory.wf (Memory.write m a bs) = true := by
  rw [wf_iff] at h ⊢
  obtain ⟨hp, hz⟩ := h
  obtain ⟨cp, cm⟩ := cells_spec bs a
  unfold Memory.write
  refine ⟨?_, ?_⟩
  · refine List.pairwise_append.2 ⟨hp.sublist List.filter_sublist, List.pairwise_append.2
      ⟨cp, hp.sublist List.filter_sublist, ?_⟩, ?_⟩
    · intro c hc d hd
      have h1 := cm c hc
      have h2 := (List.mem_filter.1 hd).2
      simp only [decide_eq_true_eq] at h2
      omega
    · intro c hc d hd
      have h1 := (List.mem_filter.1 hc).2
      simp only [decide_eq_true_eq] at h1
      rcases List.mem_append.1 hd with hd | hd
      · have := cm d hd
        omega
      · have h2 := (List.mem_filter.1 hd).2
        simp only [decide_eq_true_eq] at h2
        omega
  · intro c hc
    rcases List.mem_append.1 hc with hc | hc
    · exact hz c ((List.mem_filter.1 hc).1)
    · rcases List.mem_append.1 hc with hc | hc
      · exact (cm c hc).2.2
      · exact hz c ((List.mem_filter.1 hc).1)

/-- A byte outside a write reads as before. -/
theorem byte_write_outside (m : List Host.Cell) (a b : Nat) (bs : List Nat) (h : b < a ∨ a + bs.length ≤ b) :
    Memory.byte (Memory.write m a bs) b = Memory.byte m b := by
  have none_in : (Memory.cells a bs).find? (fun c => c.1 == b) = none := by
    rw [List.find?_eq_none]
    intro c hc hb
    have := (cells_spec bs a).2 c hc
    simp only [beq_iff_eq] at hb
    omega
  have part (p : Host.Cell → Bool) (yes : ∀ c : Host.Cell, c.1 = b → p c = true) :
      (m.filter p).find? (fun c => c.1 == b) = m.find? (fun c => c.1 == b) := by
    induction m with
    | nil => rfl
    | cons c l ih =>
      by_cases hc : c.1 = b
      · rw [List.filter_cons, if_pos (yes c hc), List.find?_cons, List.find?_cons]
        simp [hc]
      · have hb : (c.1 == b) = false := beq_eq_false_iff_ne.2 hc
        rw [List.filter_cons]
        split <;> simp only [List.find?_cons, hb, ih]
  have gone (p : Host.Cell → Bool) (no : ∀ c : Host.Cell, c.1 = b → p c = false) :
      (m.filter p).find? (fun c => c.1 == b) = none := by
    rw [List.find?_eq_none]
    intro c hc hb
    have h1 := (List.mem_filter.1 hc).2
    rw [no c (by simpa using hb)] at h1
    exact Bool.noConfusion h1
  unfold Memory.byte Memory.write
  rw [List.find?_append, List.find?_append, none_in]
  rcases h with h | h
  · rw [part _ fun c hc => by simp [hc, h], gone _ fun c hc => by simp [hc]; omega]
    simp
  · rw [gone _ fun c hc => by simp [hc]; omega, part _ fun c hc => by simp [hc, h]]
    simp

/-- The memory of the state after reset has its canonical form. -/
theorem reset_wf : Memory.wf State.reset.mem = true := rfl

/-- What a write below every check does to the memory keeps its canonical form. -/
theorem physWrite_wf (s : State) (a : Nat) (bs : List Nat) (h : Memory.wf s.mem = true) :
    Memory.wf (physWrite s a bs).mem = true := by
  have note : ∀ s : State, Memory.wf s.mem = true → Memory.wf (noteWrite s a bs.length).mem = true := by
    intro s h
    unfold noteWrite
    split <;> exact h
  have fold (step : State → Nat → State) (keep : ∀ s u, Memory.wf s.mem = true → Memory.wf (step s u).mem = true) :
      ∀ (us : List Nat) (s : State), Memory.wf s.mem = true → Memory.wf (us.foldl step s).mem = true := by
    intro us
    induction us with
    | nil => exact fun _ h => h
    | cons u us ih => exact fun s h => ih _ (keep s u h)
  unfold physWrite
  simp only []
  split
  · exact write_wf _ _ _ (note s h)
  · refine fold _ ?_ _ _ (note s h)
    intro s u h
    split
    · exact h
    · split
      · exact write_wf _ _ _ h
      · split
        · exact h
        · exact write_wf _ _ _ h

/-- A scrub keeps the canonical form. -/
theorem scrubRange_wf (s : State) (a n : Nat) (h : Memory.wf s.mem = true) : Memory.wf (scrubRange s a n).mem = true :=
  filter_wf _ _ h

/-- A scrubbed range reads as zero. -/
theorem byte_scrubRange (s : State) (a n b : Nat) (h : a ≤ b) (h' : b < a + n) : Memory.byte (scrubRange s a n).mem b = 0 := by
  have : (scrubRange s a n).mem.find? (fun c => c.1 == b) = none := by
    rw [List.find?_eq_none]
    intro c hc hb
    have h1 := (List.mem_filter.1 hc).2
    simp only [Bool.or_eq_true, decide_eq_true_eq] at h1
    simp only [beq_iff_eq] at hb
    omega
  unfold Memory.byte
  rw [this]

/-- Marking code units changes no byte. -/
@[simp] theorem markPoison_mem (s : State) (a n : Nat) : (markPoison s a n).mem = s.mem := by
  unfold markPoison
  generalize unitsOf a n = us
  induction us generalizing s with
  | nil => rfl
  | cons u us ih => exact ih _

/-- Marking many units changes no byte. -/
theorem markPoison_foldl_mem (us : List Nat) (at' : Nat → Nat) (n : Nat → Nat) (s : State) :
    (us.foldl (fun t u => markPoison t (at' u) (n u)) s).mem = s.mem := by
  induction us generalizing s with
  | nil => rfl
  | cons u us ih => rw [List.foldl_cons, ih, markPoison_mem]

/-- A copy keeps the canonical form. -/
theorem copyCells_wf (s : State) (src dst n : Nat) (bad : List Nat) (h : Memory.wf s.mem = true) :
    Memory.wf (copyCells s src dst n bad).mem = true := by
  unfold copyCells
  rw [markPoison_foldl_mem]
  exact physWrite_wf s dst _ h

/-- A range copied whole keeps the canonical form. -/
theorem moveRange_wf (s : State) (src dst n : Nat) (h : Memory.wf s.mem = true) : Memory.wf (moveRange s src dst n).mem = true := by
  have note : (noteWrite s dst n).mem = s.mem := by
    unfold noteWrite
    split <;> rfl
  unfold moveRange
  split
  · exact copyCells_wf s src dst n _ h
  · simp only []
    have marks : ∀ (us : List Nat) (s : State), (us.foldl (fun s u => markPoison s u 1) s).mem = s.mem :=
      fun us s => markPoison_foldl_mem us (fun u => u) (fun _ => 1) s
    rw [marks]
    simp only [note]
    rw [wf_iff] at h ⊢
    obtain ⟨hp, hz⟩ := h
    have cell : ∀ c ∈ (s.mem.filter fun c => decide (src ≤ c.1 ∧ c.1 < src + n)).map fun c => (c.1 - src + dst, c.2),
        dst ≤ c.1 ∧ c.1 < dst + n ∧ c.2 ≠ 0 := by
      intro c hc
      obtain ⟨d, hd, rfl⟩ := List.mem_map.1 hc
      obtain ⟨h1, h2⟩ := List.mem_filter.1 hd
      simp only [decide_eq_true_eq] at h2
      exact ⟨by simp only []; omega, by simp only []; omega, hz d h1⟩
    have rise : ((s.mem.filter fun c => decide (src ≤ c.1 ∧ c.1 < src + n)).map
        fun c => (c.1 - src + dst, c.2)).Pairwise (fun c d => c.1 < d.1) := by
      refine List.pairwise_map.2 ((hp.sublist List.filter_sublist).imp_of_mem ?_)
      intro c d hc hd hcd
      have h1 := (List.mem_filter.1 hc).2
      have h2 := (List.mem_filter.1 hd).2
      simp only [decide_eq_true_eq] at h1 h2
      omega
    refine ⟨List.pairwise_append.2 ⟨hp.sublist List.filter_sublist, List.pairwise_append.2
      ⟨rise, hp.sublist List.filter_sublist, ?_⟩, ?_⟩, ?_⟩
    · intro c hc d hd
      have h1 := cell c hc
      have h2 := (List.mem_filter.1 hd).2
      simp only [decide_eq_true_eq] at h2
      omega
    · intro c hc d hd
      have h1 := (List.mem_filter.1 hc).2
      simp only [decide_eq_true_eq] at h1
      rcases List.mem_append.1 hd with hd | hd
      · have := cell d hd
        omega
      · have h2 := (List.mem_filter.1 hd).2
        simp only [decide_eq_true_eq] at h2
        omega
    · intro c hc
      rcases List.mem_append.1 hc with hc | hc
      · exact hz c (List.mem_filter.1 hc).1
      · rcases List.mem_append.1 hc with hc | hc
        · exact (cell c hc).2.2
        · exact hz c (List.mem_filter.1 hc).1

/-- A spare pool that grows keeps the canonical form. -/
theorem growPool_wf (s0 s : State) (h : Memory.wf s.mem = true) : Memory.wf (growPool s0 s).mem = true := by
  unfold growPool
  simp only []
  split
  · exact h
  · exact filter_wf _ _ h

end Sys2Proof.Laws
end

