-- ==== Sys2Proof/Laws/State.lean ====
section
/-!
SUPPORT. What the named updates of the state leave as it was: one lemma for each update and field, true by unfolding, so that no proof
unfolds a record update.
-/
namespace Sys2Proof.Laws

open Sys2Proof.Machine

/-! `emit`. -/

@[simp] theorem emit_pending (s : State) (o : Out) : (emit s o).pending = s.pending := rfl
@[simp] theorem emit_time (s : State) (o : Out) : (emit s o).time = s.time := rfl
@[simp] theorem emit_regs (s : State) (o : Out) : (emit s o).regs = s.regs := rfl
@[simp] theorem emit_mem (s : State) (o : Out) : (emit s o).mem = s.mem := rfl
@[simp] theorem emit_poison (s : State) (o : Out) : (emit s o).poison = s.poison := rfl
@[simp] theorem emit_jig (s : State) (o : Out) : (emit s o).jig = s.jig := rfl
@[simp] theorem emit_cache (s : State) (o : Out) : (emit s o).cache = s.cache := rfl
@[simp] theorem emit_dram (s : State) (o : Out) : (emit s o).dram = s.dram := rfl
@[simp] theorem emit_kv (s : State) (o : Out) : (emit s o).kv = s.kv := rfl
@[simp] theorem emit_mmu (s : State) (o : Out) : (emit s o).mmu = s.mmu := rfl
@[simp] theorem emit_mit (s : State) (o : Out) : (emit s o).mit = s.mit := rfl
@[simp] theorem emit_fab (s : State) (o : Out) : (emit s o).fab = s.fab := rfl
@[simp] theorem emit_pen (s : State) (o : Out) : (emit s o).pen = s.pen := rfl
@[simp] theorem emit_clk (s : State) (o : Out) : (emit s o).clk = s.clk := rfl
@[simp] theorem emit_med (s : State) (o : Out) : (emit s o).med = s.med := rfl
@[simp] theorem emit_hal (s : State) (o : Out) : (emit s o).hal = s.hal := rfl
@[simp] theorem emit_pwr (s : State) (o : Out) : (emit s o).pwr = s.pwr := rfl
@[simp] theorem emit_tap (s : State) (o : Out) : (emit s o).tap = s.tap := rfl
@[simp] theorem emit_retention (s : State) (o : Out) : (emit s o).retention = s.retention := rfl
@[simp] theorem emit_spareMap (s : State) (o : Out) : (emit s o).spareMap = s.spareMap := rfl
@[simp] theorem emit_retiredBench (s : State) (o : Out) : (emit s o).retiredBench = s.retiredBench := rfl
@[simp] theorem emit_takingOver (s : State) (o : Out) : (emit s o).takingOver = s.takingOver := rfl
@[simp] theorem emit_takeovers (s : State) (o : Out) : (emit s o).takeovers = s.takeovers := rfl
@[simp] theorem emit_freeCtr (s : State) (o : Out) : (emit s o).freeCtr = s.freeCtr := rfl

/-! `regStore`. -/

@[simp] theorem regStore_pending (s : State) (off v : Nat) : (regStore s off v).pending = s.pending := rfl
@[simp] theorem regStore_time (s : State) (off v : Nat) : (regStore s off v).time = s.time := rfl
@[simp] theorem regStore_mem (s : State) (off v : Nat) : (regStore s off v).mem = s.mem := rfl
@[simp] theorem regStore_poison (s : State) (off v : Nat) : (regStore s off v).poison = s.poison := rfl
@[simp] theorem regStore_jig (s : State) (off v : Nat) : (regStore s off v).jig = s.jig := rfl
@[simp] theorem regStore_cache (s : State) (off v : Nat) : (regStore s off v).cache = s.cache := rfl
@[simp] theorem regStore_dram (s : State) (off v : Nat) : (regStore s off v).dram = s.dram := rfl
@[simp] theorem regStore_kv (s : State) (off v : Nat) : (regStore s off v).kv = s.kv := rfl
@[simp] theorem regStore_mmu (s : State) (off v : Nat) : (regStore s off v).mmu = s.mmu := rfl
@[simp] theorem regStore_mit (s : State) (off v : Nat) : (regStore s off v).mit = s.mit := rfl
@[simp] theorem regStore_fab (s : State) (off v : Nat) : (regStore s off v).fab = s.fab := rfl
@[simp] theorem regStore_pen (s : State) (off v : Nat) : (regStore s off v).pen = s.pen := rfl
@[simp] theorem regStore_clk (s : State) (off v : Nat) : (regStore s off v).clk = s.clk := rfl
@[simp] theorem regStore_med (s : State) (off v : Nat) : (regStore s off v).med = s.med := rfl
@[simp] theorem regStore_hal (s : State) (off v : Nat) : (regStore s off v).hal = s.hal := rfl
@[simp] theorem regStore_pwr (s : State) (off v : Nat) : (regStore s off v).pwr = s.pwr := rfl
@[simp] theorem regStore_tap (s : State) (off v : Nat) : (regStore s off v).tap = s.tap := rfl
@[simp] theorem regStore_retention (s : State) (off v : Nat) : (regStore s off v).retention = s.retention := rfl
@[simp] theorem regStore_spareMap (s : State) (off v : Nat) : (regStore s off v).spareMap = s.spareMap := rfl
@[simp] theorem regStore_retiredBench (s : State) (off v : Nat) : (regStore s off v).retiredBench = s.retiredBench := rfl
@[simp] theorem regStore_takingOver (s : State) (off v : Nat) : (regStore s off v).takingOver = s.takingOver := rfl
@[simp] theorem regStore_takeovers (s : State) (off v : Nat) : (regStore s off v).takeovers = s.takeovers := rfl
@[simp] theorem regStore_sent (s : State) (off v : Nat) : (regStore s off v).sent = s.sent := rfl
@[simp] theorem regStore_freeCtr (s : State) (off v : Nat) : (regStore s off v).freeCtr = s.freeCtr := rfl

/-! `rset`. -/

@[simp] theorem rset_pending (s : State) (a : RegAddr) (v : Nat) : (rset s a v).pending = s.pending := rfl
@[simp] theorem rset_time (s : State) (a : RegAddr) (v : Nat) : (rset s a v).time = s.time := rfl
@[simp] theorem rset_mem (s : State) (a : RegAddr) (v : Nat) : (rset s a v).mem = s.mem := rfl
@[simp] theorem rset_poison (s : State) (a : RegAddr) (v : Nat) : (rset s a v).poison = s.poison := rfl
@[simp] theorem rset_jig (s : State) (a : RegAddr) (v : Nat) : (rset s a v).jig = s.jig := rfl
@[simp] theorem rset_cache (s : State) (a : RegAddr) (v : Nat) : (rset s a v).cache = s.cache := rfl
@[simp] theorem rset_dram (s : State) (a : RegAddr) (v : Nat) : (rset s a v).dram = s.dram := rfl
@[simp] theorem rset_kv (s : State) (a : RegAddr) (v : Nat) : (rset s a v).kv = s.kv := rfl
@[simp] theorem rset_mmu (s : State) (a : RegAddr) (v : Nat) : (rset s a v).mmu = s.mmu := rfl
@[simp] theorem rset_mit (s : State) (a : RegAddr) (v : Nat) : (rset s a v).mit = s.mit := rfl
@[simp] theorem rset_fab (s : State) (a : RegAddr) (v : Nat) : (rset s a v).fab = s.fab := rfl
@[simp] theorem rset_pen (s : State) (a : RegAddr) (v : Nat) : (rset s a v).pen = s.pen := rfl
@[simp] theorem rset_clk (s : State) (a : RegAddr) (v : Nat) : (rset s a v).clk = s.clk := rfl
@[simp] theorem rset_med (s : State) (a : RegAddr) (v : Nat) : (rset s a v).med = s.med := rfl
@[simp] theorem rset_hal (s : State) (a : RegAddr) (v : Nat) : (rset s a v).hal = s.hal := rfl
@[simp] theorem rset_pwr (s : State) (a : RegAddr) (v : Nat) : (rset s a v).pwr = s.pwr := rfl
@[simp] theorem rset_tap (s : State) (a : RegAddr) (v : Nat) : (rset s a v).tap = s.tap := rfl
@[simp] theorem rset_retention (s : State) (a : RegAddr) (v : Nat) : (rset s a v).retention = s.retention := rfl
@[simp] theorem rset_spareMap (s : State) (a : RegAddr) (v : Nat) : (rset s a v).spareMap = s.spareMap := rfl
@[simp] theorem rset_retiredBench (s : State) (a : RegAddr) (v : Nat) : (rset s a v).retiredBench = s.retiredBench := rfl
@[simp] theorem rset_takingOver (s : State) (a : RegAddr) (v : Nat) : (rset s a v).takingOver = s.takingOver := rfl
@[simp] theorem rset_takeovers (s : State) (a : RegAddr) (v : Nat) : (rset s a v).takeovers = s.takeovers := rfl
@[simp] theorem rset_sent (s : State) (a : RegAddr) (v : Nat) : (rset s a v).sent = s.sent := rfl
@[simp] theorem rset_freeCtr (s : State) (a : RegAddr) (v : Nat) : (rset s a v).freeCtr = s.freeCtr := rfl

/-! `rsetField`. -/

@[simp] theorem rsetField_pending (s : State) (a : RegAddr) (hi lo v : Nat) : (rsetField s a hi lo v).pending = s.pending := rfl
@[simp] theorem rsetField_time (s : State) (a : RegAddr) (hi lo v : Nat) : (rsetField s a hi lo v).time = s.time := rfl
@[simp] theorem rsetField_mem (s : State) (a : RegAddr) (hi lo v : Nat) : (rsetField s a hi lo v).mem = s.mem := rfl
@[simp] theorem rsetField_poison (s : State) (a : RegAddr) (hi lo v : Nat) : (rsetField s a hi lo v).poison = s.poison := rfl
@[simp] theorem rsetField_jig (s : State) (a : RegAddr) (hi lo v : Nat) : (rsetField s a hi lo v).jig = s.jig := rfl
@[simp] theorem rsetField_cache (s : State) (a : RegAddr) (hi lo v : Nat) : (rsetField s a hi lo v).cache = s.cache := rfl
@[simp] theorem rsetField_dram (s : State) (a : RegAddr) (hi lo v : Nat) : (rsetField s a hi lo v).dram = s.dram := rfl
@[simp] theorem rsetField_kv (s : State) (a : RegAddr) (hi lo v : Nat) : (rsetField s a hi lo v).kv = s.kv := rfl
@[simp] theorem rsetField_mmu (s : State) (a : RegAddr) (hi lo v : Nat) : (rsetField s a hi lo v).mmu = s.mmu := rfl
@[simp] theorem rsetField_mit (s : State) (a : RegAddr) (hi lo v : Nat) : (rsetField s a hi lo v).mit = s.mit := rfl
@[simp] theorem rsetField_fab (s : State) (a : RegAddr) (hi lo v : Nat) : (rsetField s a hi lo v).fab = s.fab := rfl
@[simp] theorem rsetField_pen (s : State) (a : RegAddr) (hi lo v : Nat) : (rsetField s a hi lo v).pen = s.pen := rfl
@[simp] theorem rsetField_clk (s : State) (a : RegAddr) (hi lo v : Nat) : (rsetField s a hi lo v).clk = s.clk := rfl
@[simp] theorem rsetField_med (s : State) (a : RegAddr) (hi lo v : Nat) : (rsetField s a hi lo v).med = s.med := rfl
@[simp] theorem rsetField_hal (s : State) (a : RegAddr) (hi lo v : Nat) : (rsetField s a hi lo v).hal = s.hal := rfl
@[simp] theorem rsetField_pwr (s : State) (a : RegAddr) (hi lo v : Nat) : (rsetField s a hi lo v).pwr = s.pwr := rfl
@[simp] theorem rsetField_tap (s : State) (a : RegAddr) (hi lo v : Nat) : (rsetField s a hi lo v).tap = s.tap := rfl
@[simp] theorem rsetField_retention (s : State) (a : RegAddr) (hi lo v : Nat) : (rsetField s a hi lo v).retention = s.retention := rfl
@[simp] theorem rsetField_spareMap (s : State) (a : RegAddr) (hi lo v : Nat) : (rsetField s a hi lo v).spareMap = s.spareMap := rfl
@[simp] theorem rsetField_retiredBench (s : State) (a : RegAddr) (hi lo v : Nat) :
    (rsetField s a hi lo v).retiredBench = s.retiredBench := rfl
@[simp] theorem rsetField_takingOver (s : State) (a : RegAddr) (hi lo v : Nat) :
    (rsetField s a hi lo v).takingOver = s.takingOver := rfl
@[simp] theorem rsetField_takeovers (s : State) (a : RegAddr) (hi lo v : Nat) : (rsetField s a hi lo v).takeovers = s.takeovers := rfl
@[simp] theorem rsetField_sent (s : State) (a : RegAddr) (hi lo v : Nat) : (rsetField s a hi lo v).sent = s.sent := rfl
@[simp] theorem rsetField_freeCtr (s : State) (a : RegAddr) (hi lo v : Nat) : (rsetField s a hi lo v).freeCtr = s.freeCtr := rfl

/-! `rbump`. -/

@[simp] theorem rbump_pending (s : State) (a : RegAddr) (hi lo n : Nat) : (rbump s a hi lo n).pending = s.pending := rfl
@[simp] theorem rbump_time (s : State) (a : RegAddr) (hi lo n : Nat) : (rbump s a hi lo n).time = s.time := rfl
@[simp] theorem rbump_mem (s : State) (a : RegAddr) (hi lo n : Nat) : (rbump s a hi lo n).mem = s.mem := rfl
@[simp] theorem rbump_poison (s : State) (a : RegAddr) (hi lo n : Nat) : (rbump s a hi lo n).poison = s.poison := rfl
@[simp] theorem rbump_jig (s : State) (a : RegAddr) (hi lo n : Nat) : (rbump s a hi lo n).jig = s.jig := rfl
@[simp] theorem rbump_cache (s : State) (a : RegAddr) (hi lo n : Nat) : (rbump s a hi lo n).cache = s.cache := rfl
@[simp] theorem rbump_dram (s : State) (a : RegAddr) (hi lo n : Nat) : (rbump s a hi lo n).dram = s.dram := rfl
@[simp] theorem rbump_kv (s : State) (a : RegAddr) (hi lo n : Nat) : (rbump s a hi lo n).kv = s.kv := rfl
@[simp] theorem rbump_mmu (s : State) (a : RegAddr) (hi lo n : Nat) : (rbump s a hi lo n).mmu = s.mmu := rfl
@[simp] theorem rbump_mit (s : State) (a : RegAddr) (hi lo n : Nat) : (rbump s a hi lo n).mit = s.mit := rfl
@[simp] theorem rbump_fab (s : State) (a : RegAddr) (hi lo n : Nat) : (rbump s a hi lo n).fab = s.fab := rfl
@[simp] theorem rbump_pen (s : State) (a : RegAddr) (hi lo n : Nat) : (rbump s a hi lo n).pen = s.pen := rfl
@[simp] theorem rbump_clk (s : State) (a : RegAddr) (hi lo n : Nat) : (rbump s a hi lo n).clk = s.clk := rfl
@[simp] theorem rbump_med (s : State) (a : RegAddr) (hi lo n : Nat) : (rbump s a hi lo n).med = s.med := rfl
@[simp] theorem rbump_hal (s : State) (a : RegAddr) (hi lo n : Nat) : (rbump s a hi lo n).hal = s.hal := rfl
@[simp] theorem rbump_pwr (s : State) (a : RegAddr) (hi lo n : Nat) : (rbump s a hi lo n).pwr = s.pwr := rfl
@[simp] theorem rbump_tap (s : State) (a : RegAddr) (hi lo n : Nat) : (rbump s a hi lo n).tap = s.tap := rfl
@[simp] theorem rbump_retention (s : State) (a : RegAddr) (hi lo n : Nat) : (rbump s a hi lo n).retention = s.retention := rfl
@[simp] theorem rbump_spareMap (s : State) (a : RegAddr) (hi lo n : Nat) : (rbump s a hi lo n).spareMap = s.spareMap := rfl
@[simp] theorem rbump_retiredBench (s : State) (a : RegAddr) (hi lo n : Nat) : (rbump s a hi lo n).retiredBench = s.retiredBench := rfl
@[simp] theorem rbump_takingOver (s : State) (a : RegAddr) (hi lo n : Nat) : (rbump s a hi lo n).takingOver = s.takingOver := rfl
@[simp] theorem rbump_takeovers (s : State) (a : RegAddr) (hi lo n : Nat) : (rbump s a hi lo n).takeovers = s.takeovers := rfl
@[simp] theorem rbump_sent (s : State) (a : RegAddr) (hi lo n : Nat) : (rbump s a hi lo n).sent = s.sent := rfl
@[simp] theorem rbump_freeCtr (s : State) (a : RegAddr) (hi lo n : Nat) : (rbump s a hi lo n).freeCtr = s.freeCtr := rfl

/-! `rwrap`. -/

@[simp] theorem rwrap_pending (s : State) (a : RegAddr) (hi lo n : Nat) : (rwrap s a hi lo n).pending = s.pending := rfl
@[simp] theorem rwrap_time (s : State) (a : RegAddr) (hi lo n : Nat) : (rwrap s a hi lo n).time = s.time := rfl
@[simp] theorem rwrap_mem (s : State) (a : RegAddr) (hi lo n : Nat) : (rwrap s a hi lo n).mem = s.mem := rfl
@[simp] theorem rwrap_poison (s : State) (a : RegAddr) (hi lo n : Nat) : (rwrap s a hi lo n).poison = s.poison := rfl
@[simp] theorem rwrap_jig (s : State) (a : RegAddr) (hi lo n : Nat) : (rwrap s a hi lo n).jig = s.jig := rfl
@[simp] theorem rwrap_cache (s : State) (a : RegAddr) (hi lo n : Nat) : (rwrap s a hi lo n).cache = s.cache := rfl
@[simp] theorem rwrap_dram (s : State) (a : RegAddr) (hi lo n : Nat) : (rwrap s a hi lo n).dram = s.dram := rfl
@[simp] theorem rwrap_kv (s : State) (a : RegAddr) (hi lo n : Nat) : (rwrap s a hi lo n).kv = s.kv := rfl
@[simp] theorem rwrap_mmu (s : State) (a : RegAddr) (hi lo n : Nat) : (rwrap s a hi lo n).mmu = s.mmu := rfl
@[simp] theorem rwrap_mit (s : State) (a : RegAddr) (hi lo n : Nat) : (rwrap s a hi lo n).mit = s.mit := rfl
@[simp] theorem rwrap_fab (s : State) (a : RegAddr) (hi lo n : Nat) : (rwrap s a hi lo n).fab = s.fab := rfl
@[simp] theorem rwrap_pen (s : State) (a : RegAddr) (hi lo n : Nat) : (rwrap s a hi lo n).pen = s.pen := rfl
@[simp] theorem rwrap_clk (s : State) (a : RegAddr) (hi lo n : Nat) : (rwrap s a hi lo n).clk = s.clk := rfl
@[simp] theorem rwrap_med (s : State) (a : RegAddr) (hi lo n : Nat) : (rwrap s a hi lo n).med = s.med := rfl
@[simp] theorem rwrap_hal (s : State) (a : RegAddr) (hi lo n : Nat) : (rwrap s a hi lo n).hal = s.hal := rfl
@[simp] theorem rwrap_pwr (s : State) (a : RegAddr) (hi lo n : Nat) : (rwrap s a hi lo n).pwr = s.pwr := rfl
@[simp] theorem rwrap_tap (s : State) (a : RegAddr) (hi lo n : Nat) : (rwrap s a hi lo n).tap = s.tap := rfl
@[simp] theorem rwrap_retention (s : State) (a : RegAddr) (hi lo n : Nat) : (rwrap s a hi lo n).retention = s.retention := rfl
@[simp] theorem rwrap_spareMap (s : State) (a : RegAddr) (hi lo n : Nat) : (rwrap s a hi lo n).spareMap = s.spareMap := rfl
@[simp] theorem rwrap_retiredBench (s : State) (a : RegAddr) (hi lo n : Nat) : (rwrap s a hi lo n).retiredBench = s.retiredBench := rfl
@[simp] theorem rwrap_takingOver (s : State) (a : RegAddr) (hi lo n : Nat) : (rwrap s a hi lo n).takingOver = s.takingOver := rfl
@[simp] theorem rwrap_takeovers (s : State) (a : RegAddr) (hi lo n : Nat) : (rwrap s a hi lo n).takeovers = s.takeovers := rfl
@[simp] theorem rwrap_sent (s : State) (a : RegAddr) (hi lo n : Nat) : (rwrap s a hi lo n).sent = s.sent := rfl
@[simp] theorem rwrap_freeCtr (s : State) (a : RegAddr) (hi lo n : Nat) : (rwrap s a hi lo n).freeCtr = s.freeCtr := rfl

/-! `setStopped`. -/

@[simp] theorem setStopped_pending (s : State) (p q : Nat) (b : Bool) : (setStopped s p q b).pending = s.pending := rfl
@[simp] theorem setStopped_time (s : State) (p q : Nat) (b : Bool) : (setStopped s p q b).time = s.time := rfl
@[simp] theorem setStopped_mem (s : State) (p q : Nat) (b : Bool) : (setStopped s p q b).mem = s.mem := rfl
@[simp] theorem setStopped_poison (s : State) (p q : Nat) (b : Bool) : (setStopped s p q b).poison = s.poison := rfl
@[simp] theorem setStopped_jig (s : State) (p q : Nat) (b : Bool) : (setStopped s p q b).jig = s.jig := rfl
@[simp] theorem setStopped_cache (s : State) (p q : Nat) (b : Bool) : (setStopped s p q b).cache = s.cache := rfl
@[simp] theorem setStopped_dram (s : State) (p q : Nat) (b : Bool) : (setStopped s p q b).dram = s.dram := rfl
@[simp] theorem setStopped_kv (s : State) (p q : Nat) (b : Bool) : (setStopped s p q b).kv = s.kv := rfl
@[simp] theorem setStopped_mmu (s : State) (p q : Nat) (b : Bool) : (setStopped s p q b).mmu = s.mmu := rfl
@[simp] theorem setStopped_mit (s : State) (p q : Nat) (b : Bool) : (setStopped s p q b).mit = s.mit := rfl
@[simp] theorem setStopped_fab (s : State) (p q : Nat) (b : Bool) : (setStopped s p q b).fab = s.fab := rfl
@[simp] theorem setStopped_pen (s : State) (p q : Nat) (b : Bool) : (setStopped s p q b).pen = s.pen := rfl
@[simp] theorem setStopped_clk (s : State) (p q : Nat) (b : Bool) : (setStopped s p q b).clk = s.clk := rfl
@[simp] theorem setStopped_med (s : State) (p q : Nat) (b : Bool) : (setStopped s p q b).med = s.med := rfl
@[simp] theorem setStopped_hal (s : State) (p q : Nat) (b : Bool) : (setStopped s p q b).hal = s.hal := rfl
@[simp] theorem setStopped_pwr (s : State) (p q : Nat) (b : Bool) : (setStopped s p q b).pwr = s.pwr := rfl
@[simp] theorem setStopped_tap (s : State) (p q : Nat) (b : Bool) : (setStopped s p q b).tap = s.tap := rfl
@[simp] theorem setStopped_retention (s : State) (p q : Nat) (b : Bool) : (setStopped s p q b).retention = s.retention := rfl
@[simp] theorem setStopped_spareMap (s : State) (p q : Nat) (b : Bool) : (setStopped s p q b).spareMap = s.spareMap := rfl
@[simp] theorem setStopped_retiredBench (s : State) (p q : Nat) (b : Bool) : (setStopped s p q b).retiredBench = s.retiredBench := rfl
@[simp] theorem setStopped_takingOver (s : State) (p q : Nat) (b : Bool) : (setStopped s p q b).takingOver = s.takingOver := rfl
@[simp] theorem setStopped_takeovers (s : State) (p q : Nat) (b : Bool) : (setStopped s p q b).takeovers = s.takeovers := rfl
@[simp] theorem setStopped_sent (s : State) (p q : Nat) (b : Bool) : (setStopped s p q b).sent = s.sent := rfl
@[simp] theorem setStopped_freeCtr (s : State) (p q : Nat) (b : Bool) : (setStopped s p q b).freeCtr = s.freeCtr := rfl

/-! `dset`. -/

@[simp] theorem dset_pending (s : State) (o : ObjAddr) (v : List Nat) : (dset s o v).pending = s.pending := rfl
@[simp] theorem dset_time (s : State) (o : ObjAddr) (v : List Nat) : (dset s o v).time = s.time := rfl
@[simp] theorem dset_regs (s : State) (o : ObjAddr) (v : List Nat) : (dset s o v).regs = s.regs := rfl
@[simp] theorem dset_mem (s : State) (o : ObjAddr) (v : List Nat) : (dset s o v).mem = s.mem := rfl
@[simp] theorem dset_poison (s : State) (o : ObjAddr) (v : List Nat) : (dset s o v).poison = s.poison := rfl
@[simp] theorem dset_jig (s : State) (o : ObjAddr) (v : List Nat) : (dset s o v).jig = s.jig := rfl
@[simp] theorem dset_cache (s : State) (o : ObjAddr) (v : List Nat) : (dset s o v).cache = s.cache := rfl
@[simp] theorem dset_dram (s : State) (o : ObjAddr) (v : List Nat) : (dset s o v).dram = s.dram := rfl
@[simp] theorem dset_kv (s : State) (o : ObjAddr) (v : List Nat) : (dset s o v).kv = s.kv := rfl
@[simp] theorem dset_mmu (s : State) (o : ObjAddr) (v : List Nat) : (dset s o v).mmu = s.mmu := rfl
@[simp] theorem dset_mit (s : State) (o : ObjAddr) (v : List Nat) : (dset s o v).mit = s.mit := rfl
@[simp] theorem dset_fab (s : State) (o : ObjAddr) (v : List Nat) : (dset s o v).fab = s.fab := rfl
@[simp] theorem dset_pen (s : State) (o : ObjAddr) (v : List Nat) : (dset s o v).pen = s.pen := rfl
@[simp] theorem dset_clk (s : State) (o : ObjAddr) (v : List Nat) : (dset s o v).clk = s.clk := rfl
@[simp] theorem dset_med (s : State) (o : ObjAddr) (v : List Nat) : (dset s o v).med = s.med := rfl
@[simp] theorem dset_pwr (s : State) (o : ObjAddr) (v : List Nat) : (dset s o v).pwr = s.pwr := rfl
@[simp] theorem dset_tap (s : State) (o : ObjAddr) (v : List Nat) : (dset s o v).tap = s.tap := rfl
@[simp] theorem dset_retention (s : State) (o : ObjAddr) (v : List Nat) : (dset s o v).retention = s.retention := rfl
@[simp] theorem dset_spareMap (s : State) (o : ObjAddr) (v : List Nat) : (dset s o v).spareMap = s.spareMap := rfl
@[simp] theorem dset_retiredBench (s : State) (o : ObjAddr) (v : List Nat) : (dset s o v).retiredBench = s.retiredBench := rfl
@[simp] theorem dset_takingOver (s : State) (o : ObjAddr) (v : List Nat) : (dset s o v).takingOver = s.takingOver := rfl
@[simp] theorem dset_takeovers (s : State) (o : ObjAddr) (v : List Nat) : (dset s o v).takeovers = s.takeovers := rfl
@[simp] theorem dset_sent (s : State) (o : ObjAddr) (v : List Nat) : (dset s o v).sent = s.sent := rfl
@[simp] theorem dset_freeCtr (s : State) (o : ObjAddr) (v : List Nat) : (dset s o v).freeCtr = s.freeCtr := rfl
@[simp] theorem dset_hal_mirror (s : State) (o : ObjAddr) (v : List Nat) : (dset s o v).hal.mirror = s.hal.mirror := rfl
@[simp] theorem dset_hal_copying (s : State) (o : ObjAddr) (v : List Nat) : (dset s o v).hal.copying = s.hal.copying := rfl
@[simp] theorem dset_hal_epoch (s : State) (o : ObjAddr) (v : List Nat) : (dset s o v).hal.epoch = s.hal.epoch := rfl
@[simp] theorem dset_hal_acked (s : State) (o : ObjAddr) (v : List Nat) : (dset s o v).hal.acked = s.hal.acked := rfl
@[simp] theorem dset_hal_held (s : State) (o : ObjAddr) (v : List Nat) : (dset s o v).hal.held = s.hal.held := rfl
@[simp] theorem dset_hal_active (s : State) (o : ObjAddr) (v : List Nat) : (dset s o v).hal.active = s.hal.active := rfl
@[simp] theorem dset_hal_outA (s : State) (o : ObjAddr) (v : List Nat) : (dset s o v).hal.outA = s.hal.outA := rfl
@[simp] theorem dset_hal_outB (s : State) (o : ObjAddr) (v : List Nat) : (dset s o v).hal.outB = s.hal.outB := rfl
@[simp] theorem dset_hal_faults (s : State) (o : ObjAddr) (v : List Nat) : (dset s o v).hal.faults = s.hal.faults := rfl
@[simp] theorem dset_hal_faultSeq (s : State) (o : ObjAddr) (v : List Nat) : (dset s o v).hal.faultSeq = s.hal.faultSeq := rfl
@[simp] theorem dset_hal_serviceSeq (s : State) (o : ObjAddr) (v : List Nat) : (dset s o v).hal.serviceSeq = s.hal.serviceSeq := rfl
@[simp] theorem dset_hal_ackSeq (s : State) (o : ObjAddr) (v : List Nat) : (dset s o v).hal.ackSeq = s.hal.ackSeq := rfl
@[simp] theorem dset_hal_mailbox (s : State) (o : ObjAddr) (v : List Nat) : (dset s o v).hal.mailbox = s.hal.mailbox := rfl
@[simp] theorem dset_hal_telem (s : State) (o : ObjAddr) (v : List Nat) : (dset s o v).hal.telem = s.hal.telem := rfl
@[simp] theorem dset_hal_buckets (s : State) (o : ObjAddr) (v : List Nat) : (dset s o v).hal.buckets = s.hal.buckets := rfl
@[simp] theorem dset_hal_flash (s : State) (o : ObjAddr) (v : List Nat) : (dset s o v).hal.flash = s.hal.flash := rfl
@[simp] theorem dset_hal_savedCal (s : State) (o : ObjAddr) (v : List Nat) : (dset s o v).hal.savedCal = s.hal.savedCal := rfl
@[simp] theorem dset_hal_linksDown (s : State) (o : ObjAddr) (v : List Nat) : (dset s o v).hal.linksDown = s.hal.linksDown := rfl
@[simp] theorem dset_hal_mgmt_staged (s : State) (o : ObjAddr) (v : List Nat) : (dset s o v).hal.mgmt.staged = s.hal.mgmt.staged := rfl
@[simp] theorem dset_hal_mgmt_session (s : State) (o : ObjAddr) (v : List Nat) :
    (dset s o v).hal.mgmt.session = s.hal.mgmt.session := rfl
@[simp] theorem dset_hal_mgmt_commit (s : State) (o : ObjAddr) (v : List Nat) : (dset s o v).hal.mgmt.commit = s.hal.mgmt.commit := rfl
@[simp] theorem dset_hal_mgmt_kept (s : State) (o : ObjAddr) (v : List Nat) : (dset s o v).hal.mgmt.kept = s.hal.mgmt.kept := rfl

/-! `dsetNum`. -/

@[simp] theorem dsetNum_pending (s : State) (id : ObjId) (i part n v : Nat) : (dsetNum s id i part n v).pending = s.pending := rfl
@[simp] theorem dsetNum_time (s : State) (id : ObjId) (i part n v : Nat) : (dsetNum s id i part n v).time = s.time := rfl
@[simp] theorem dsetNum_regs (s : State) (id : ObjId) (i part n v : Nat) : (dsetNum s id i part n v).regs = s.regs := rfl
@[simp] theorem dsetNum_mem (s : State) (id : ObjId) (i part n v : Nat) : (dsetNum s id i part n v).mem = s.mem := rfl
@[simp] theorem dsetNum_poison (s : State) (id : ObjId) (i part n v : Nat) : (dsetNum s id i part n v).poison = s.poison := rfl
@[simp] theorem dsetNum_jig (s : State) (id : ObjId) (i part n v : Nat) : (dsetNum s id i part n v).jig = s.jig := rfl
@[simp] theorem dsetNum_cache (s : State) (id : ObjId) (i part n v : Nat) : (dsetNum s id i part n v).cache = s.cache := rfl
@[simp] theorem dsetNum_dram (s : State) (id : ObjId) (i part n v : Nat) : (dsetNum s id i part n v).dram = s.dram := rfl
@[simp] theorem dsetNum_kv (s : State) (id : ObjId) (i part n v : Nat) : (dsetNum s id i part n v).kv = s.kv := rfl
@[simp] theorem dsetNum_mmu (s : State) (id : ObjId) (i part n v : Nat) : (dsetNum s id i part n v).mmu = s.mmu := rfl
@[simp] theorem dsetNum_mit (s : State) (id : ObjId) (i part n v : Nat) : (dsetNum s id i part n v).mit = s.mit := rfl
@[simp] theorem dsetNum_fab (s : State) (id : ObjId) (i part n v : Nat) : (dsetNum s id i part n v).fab = s.fab := rfl
@[simp] theorem dsetNum_pen (s : State) (id : ObjId) (i part n v : Nat) : (dsetNum s id i part n v).pen = s.pen := rfl
@[simp] theorem dsetNum_clk (s : State) (id : ObjId) (i part n v : Nat) : (dsetNum s id i part n v).clk = s.clk := rfl
@[simp] theorem dsetNum_med (s : State) (id : ObjId) (i part n v : Nat) : (dsetNum s id i part n v).med = s.med := rfl
@[simp] theorem dsetNum_pwr (s : State) (id : ObjId) (i part n v : Nat) : (dsetNum s id i part n v).pwr = s.pwr := rfl
@[simp] theorem dsetNum_tap (s : State) (id : ObjId) (i part n v : Nat) : (dsetNum s id i part n v).tap = s.tap := rfl
@[simp] theorem dsetNum_retention (s : State) (id : ObjId) (i part n v : Nat) : (dsetNum s id i part n v).retention = s.retention := rfl
@[simp] theorem dsetNum_spareMap (s : State) (id : ObjId) (i part n v : Nat) : (dsetNum s id i part n v).spareMap = s.spareMap := rfl
@[simp] theorem dsetNum_retiredBench (s : State) (id : ObjId) (i part n v : Nat) :
    (dsetNum s id i part n v).retiredBench = s.retiredBench := rfl
@[simp] theorem dsetNum_takingOver (s : State) (id : ObjId) (i part n v : Nat) :
    (dsetNum s id i part n v).takingOver = s.takingOver := rfl
@[simp] theorem dsetNum_takeovers (s : State) (id : ObjId) (i part n v : Nat) : (dsetNum s id i part n v).takeovers = s.takeovers := rfl
@[simp] theorem dsetNum_sent (s : State) (id : ObjId) (i part n v : Nat) : (dsetNum s id i part n v).sent = s.sent := rfl
@[simp] theorem dsetNum_freeCtr (s : State) (id : ObjId) (i part n v : Nat) : (dsetNum s id i part n v).freeCtr = s.freeCtr := rfl
@[simp] theorem dsetNum_hal_mirror (s : State) (id : ObjId) (i part n v : Nat) :
    (dsetNum s id i part n v).hal.mirror = s.hal.mirror := rfl
@[simp] theorem dsetNum_hal_copying (s : State) (id : ObjId) (i part n v : Nat) :
    (dsetNum s id i part n v).hal.copying = s.hal.copying := rfl
@[simp] theorem dsetNum_hal_epoch (s : State) (id : ObjId) (i part n v : Nat) : (dsetNum s id i part n v).hal.epoch = s.hal.epoch := rfl
@[simp] theorem dsetNum_hal_acked (s : State) (id : ObjId) (i part n v : Nat) : (dsetNum s id i part n v).hal.acked = s.hal.acked := rfl
@[simp] theorem dsetNum_hal_held (s : State) (id : ObjId) (i part n v : Nat) : (dsetNum s id i part n v).hal.held = s.hal.held := rfl
@[simp] theorem dsetNum_hal_active (s : State) (id : ObjId) (i part n v : Nat) :
    (dsetNum s id i part n v).hal.active = s.hal.active := rfl
@[simp] theorem dsetNum_hal_outA (s : State) (id : ObjId) (i part n v : Nat) : (dsetNum s id i part n v).hal.outA = s.hal.outA := rfl
@[simp] theorem dsetNum_hal_outB (s : State) (id : ObjId) (i part n v : Nat) : (dsetNum s id i part n v).hal.outB = s.hal.outB := rfl
@[simp] theorem dsetNum_hal_faults (s : State) (id : ObjId) (i part n v : Nat) :
    (dsetNum s id i part n v).hal.faults = s.hal.faults := rfl
@[simp] theorem dsetNum_hal_faultSeq (s : State) (id : ObjId) (i part n v : Nat) :
    (dsetNum s id i part n v).hal.faultSeq = s.hal.faultSeq := rfl
@[simp] theorem dsetNum_hal_serviceSeq (s : State) (id : ObjId) (i part n v : Nat) :
    (dsetNum s id i part n v).hal.serviceSeq = s.hal.serviceSeq := rfl
@[simp] theorem dsetNum_hal_ackSeq (s : State) (id : ObjId) (i part n v : Nat) :
    (dsetNum s id i part n v).hal.ackSeq = s.hal.ackSeq := rfl
@[simp] theorem dsetNum_hal_mailbox (s : State) (id : ObjId) (i part n v : Nat) :
    (dsetNum s id i part n v).hal.mailbox = s.hal.mailbox := rfl
@[simp] theorem dsetNum_hal_telem (s : State) (id : ObjId) (i part n v : Nat) : (dsetNum s id i part n v).hal.telem = s.hal.telem := rfl
@[simp] theorem dsetNum_hal_buckets (s : State) (id : ObjId) (i part n v : Nat) :
    (dsetNum s id i part n v).hal.buckets = s.hal.buckets := rfl
@[simp] theorem dsetNum_hal_flash (s : State) (id : ObjId) (i part n v : Nat) : (dsetNum s id i part n v).hal.flash = s.hal.flash := rfl
@[simp] theorem dsetNum_hal_savedCal (s : State) (id : ObjId) (i part n v : Nat) :
    (dsetNum s id i part n v).hal.savedCal = s.hal.savedCal := rfl
@[simp] theorem dsetNum_hal_linksDown (s : State) (id : ObjId) (i part n v : Nat) :
    (dsetNum s id i part n v).hal.linksDown = s.hal.linksDown := rfl
@[simp] theorem dsetNum_hal_mgmt_staged (s : State) (id : ObjId) (i part n v : Nat) :
    (dsetNum s id i part n v).hal.mgmt.staged = s.hal.mgmt.staged := rfl
@[simp] theorem dsetNum_hal_mgmt_session (s : State) (id : ObjId) (i part n v : Nat) :
    (dsetNum s id i part n v).hal.mgmt.session = s.hal.mgmt.session := rfl
@[simp] theorem dsetNum_hal_mgmt_commit (s : State) (id : ObjId) (i part n v : Nat) :
    (dsetNum s id i part n v).hal.mgmt.commit = s.hal.mgmt.commit := rfl
@[simp] theorem dsetNum_hal_mgmt_kept (s : State) (id : ObjId) (i part n v : Nat) :
    (dsetNum s id i part n v).hal.mgmt.kept = s.hal.mgmt.kept := rfl

/-! `setCommit`. -/

@[simp] theorem setCommit_pending (s : State) (c : Option CommitReq) : (setCommit s c).pending = s.pending := rfl
@[simp] theorem setCommit_time (s : State) (c : Option CommitReq) : (setCommit s c).time = s.time := rfl
@[simp] theorem setCommit_regs (s : State) (c : Option CommitReq) : (setCommit s c).regs = s.regs := rfl
@[simp] theorem setCommit_mem (s : State) (c : Option CommitReq) : (setCommit s c).mem = s.mem := rfl
@[simp] theorem setCommit_poison (s : State) (c : Option CommitReq) : (setCommit s c).poison = s.poison := rfl
@[simp] theorem setCommit_jig (s : State) (c : Option CommitReq) : (setCommit s c).jig = s.jig := rfl
@[simp] theorem setCommit_cache (s : State) (c : Option CommitReq) : (setCommit s c).cache = s.cache := rfl
@[simp] theorem setCommit_dram (s : State) (c : Option CommitReq) : (setCommit s c).dram = s.dram := rfl
@[simp] theorem setCommit_kv (s : State) (c : Option CommitReq) : (setCommit s c).kv = s.kv := rfl
@[simp] theorem setCommit_mmu (s : State) (c : Option CommitReq) : (setCommit s c).mmu = s.mmu := rfl
@[simp] theorem setCommit_mit (s : State) (c : Option CommitReq) : (setCommit s c).mit = s.mit := rfl
@[simp] theorem setCommit_fab (s : State) (c : Option CommitReq) : (setCommit s c).fab = s.fab := rfl
@[simp] theorem setCommit_pen (s : State) (c : Option CommitReq) : (setCommit s c).pen = s.pen := rfl
@[simp] theorem setCommit_clk (s : State) (c : Option CommitReq) : (setCommit s c).clk = s.clk := rfl
@[simp] theorem setCommit_med (s : State) (c : Option CommitReq) : (setCommit s c).med = s.med := rfl
@[simp] theorem setCommit_pwr (s : State) (c : Option CommitReq) : (setCommit s c).pwr = s.pwr := rfl
@[simp] theorem setCommit_tap (s : State) (c : Option CommitReq) : (setCommit s c).tap = s.tap := rfl
@[simp] theorem setCommit_retention (s : State) (c : Option CommitReq) : (setCommit s c).retention = s.retention := rfl
@[simp] theorem setCommit_spareMap (s : State) (c : Option CommitReq) : (setCommit s c).spareMap = s.spareMap := rfl
@[simp] theorem setCommit_retiredBench (s : State) (c : Option CommitReq) : (setCommit s c).retiredBench = s.retiredBench := rfl
@[simp] theorem setCommit_takingOver (s : State) (c : Option CommitReq) : (setCommit s c).takingOver = s.takingOver := rfl
@[simp] theorem setCommit_takeovers (s : State) (c : Option CommitReq) : (setCommit s c).takeovers = s.takeovers := rfl
@[simp] theorem setCommit_sent (s : State) (c : Option CommitReq) : (setCommit s c).sent = s.sent := rfl
@[simp] theorem setCommit_freeCtr (s : State) (c : Option CommitReq) : (setCommit s c).freeCtr = s.freeCtr := rfl
@[simp] theorem setCommit_hal_mirror (s : State) (c : Option CommitReq) : (setCommit s c).hal.mirror = s.hal.mirror := rfl
@[simp] theorem setCommit_hal_copying (s : State) (c : Option CommitReq) : (setCommit s c).hal.copying = s.hal.copying := rfl
@[simp] theorem setCommit_hal_epoch (s : State) (c : Option CommitReq) : (setCommit s c).hal.epoch = s.hal.epoch := rfl
@[simp] theorem setCommit_hal_acked (s : State) (c : Option CommitReq) : (setCommit s c).hal.acked = s.hal.acked := rfl
@[simp] theorem setCommit_hal_held (s : State) (c : Option CommitReq) : (setCommit s c).hal.held = s.hal.held := rfl
@[simp] theorem setCommit_hal_active (s : State) (c : Option CommitReq) : (setCommit s c).hal.active = s.hal.active := rfl
@[simp] theorem setCommit_hal_outA (s : State) (c : Option CommitReq) : (setCommit s c).hal.outA = s.hal.outA := rfl
@[simp] theorem setCommit_hal_outB (s : State) (c : Option CommitReq) : (setCommit s c).hal.outB = s.hal.outB := rfl
@[simp] theorem setCommit_hal_faults (s : State) (c : Option CommitReq) : (setCommit s c).hal.faults = s.hal.faults := rfl
@[simp] theorem setCommit_hal_faultSeq (s : State) (c : Option CommitReq) : (setCommit s c).hal.faultSeq = s.hal.faultSeq := rfl
@[simp] theorem setCommit_hal_serviceSeq (s : State) (c : Option CommitReq) : (setCommit s c).hal.serviceSeq = s.hal.serviceSeq := rfl
@[simp] theorem setCommit_hal_ackSeq (s : State) (c : Option CommitReq) : (setCommit s c).hal.ackSeq = s.hal.ackSeq := rfl
@[simp] theorem setCommit_hal_mailbox (s : State) (c : Option CommitReq) : (setCommit s c).hal.mailbox = s.hal.mailbox := rfl
@[simp] theorem setCommit_hal_telem (s : State) (c : Option CommitReq) : (setCommit s c).hal.telem = s.hal.telem := rfl
@[simp] theorem setCommit_hal_buckets (s : State) (c : Option CommitReq) : (setCommit s c).hal.buckets = s.hal.buckets := rfl
@[simp] theorem setCommit_hal_flash (s : State) (c : Option CommitReq) : (setCommit s c).hal.flash = s.hal.flash := rfl
@[simp] theorem setCommit_hal_savedCal (s : State) (c : Option CommitReq) : (setCommit s c).hal.savedCal = s.hal.savedCal := rfl
@[simp] theorem setCommit_hal_linksDown (s : State) (c : Option CommitReq) : (setCommit s c).hal.linksDown = s.hal.linksDown := rfl
@[simp] theorem setCommit_hal_mgmt_dict (s : State) (c : Option CommitReq) : (setCommit s c).hal.mgmt.dict = s.hal.mgmt.dict := rfl
@[simp] theorem setCommit_hal_mgmt_staged (s : State) (c : Option CommitReq) :
    (setCommit s c).hal.mgmt.staged = s.hal.mgmt.staged := rfl
@[simp] theorem setCommit_hal_mgmt_session (s : State) (c : Option CommitReq) :
    (setCommit s c).hal.mgmt.session = s.hal.mgmt.session := rfl
@[simp] theorem setCommit_hal_mgmt_kept (s : State) (c : Option CommitReq) : (setCommit s c).hal.mgmt.kept = s.hal.mgmt.kept := rfl

/-! `setMailbox`. -/

@[simp] theorem setMailbox_pending (s : State) (fn : Src) (m : Nat × Nat) : (setMailbox s fn m).pending = s.pending := rfl
@[simp] theorem setMailbox_time (s : State) (fn : Src) (m : Nat × Nat) : (setMailbox s fn m).time = s.time := rfl
@[simp] theorem setMailbox_regs (s : State) (fn : Src) (m : Nat × Nat) : (setMailbox s fn m).regs = s.regs := rfl
@[simp] theorem setMailbox_mem (s : State) (fn : Src) (m : Nat × Nat) : (setMailbox s fn m).mem = s.mem := rfl
@[simp] theorem setMailbox_poison (s : State) (fn : Src) (m : Nat × Nat) : (setMailbox s fn m).poison = s.poison := rfl
@[simp] theorem setMailbox_jig (s : State) (fn : Src) (m : Nat × Nat) : (setMailbox s fn m).jig = s.jig := rfl
@[simp] theorem setMailbox_cache (s : State) (fn : Src) (m : Nat × Nat) : (setMailbox s fn m).cache = s.cache := rfl
@[simp] theorem setMailbox_dram (s : State) (fn : Src) (m : Nat × Nat) : (setMailbox s fn m).dram = s.dram := rfl
@[simp] theorem setMailbox_kv (s : State) (fn : Src) (m : Nat × Nat) : (setMailbox s fn m).kv = s.kv := rfl
@[simp] theorem setMailbox_mmu (s : State) (fn : Src) (m : Nat × Nat) : (setMailbox s fn m).mmu = s.mmu := rfl
@[simp] theorem setMailbox_mit (s : State) (fn : Src) (m : Nat × Nat) : (setMailbox s fn m).mit = s.mit := rfl
@[simp] theorem setMailbox_fab (s : State) (fn : Src) (m : Nat × Nat) : (setMailbox s fn m).fab = s.fab := rfl
@[simp] theorem setMailbox_pen (s : State) (fn : Src) (m : Nat × Nat) : (setMailbox s fn m).pen = s.pen := rfl
@[simp] theorem setMailbox_clk (s : State) (fn : Src) (m : Nat × Nat) : (setMailbox s fn m).clk = s.clk := rfl
@[simp] theorem setMailbox_med (s : State) (fn : Src) (m : Nat × Nat) : (setMailbox s fn m).med = s.med := rfl
@[simp] theorem setMailbox_pwr (s : State) (fn : Src) (m : Nat × Nat) : (setMailbox s fn m).pwr = s.pwr := rfl
@[simp] theorem setMailbox_tap (s : State) (fn : Src) (m : Nat × Nat) : (setMailbox s fn m).tap = s.tap := rfl
@[simp] theorem setMailbox_retention (s : State) (fn : Src) (m : Nat × Nat) : (setMailbox s fn m).retention = s.retention := rfl
@[simp] theorem setMailbox_spareMap (s : State) (fn : Src) (m : Nat × Nat) : (setMailbox s fn m).spareMap = s.spareMap := rfl
@[simp] theorem setMailbox_retiredBench (s : State) (fn : Src) (m : Nat × Nat) :
    (setMailbox s fn m).retiredBench = s.retiredBench := rfl
@[simp] theorem setMailbox_takingOver (s : State) (fn : Src) (m : Nat × Nat) : (setMailbox s fn m).takingOver = s.takingOver := rfl
@[simp] theorem setMailbox_takeovers (s : State) (fn : Src) (m : Nat × Nat) : (setMailbox s fn m).takeovers = s.takeovers := rfl
@[simp] theorem setMailbox_sent (s : State) (fn : Src) (m : Nat × Nat) : (setMailbox s fn m).sent = s.sent := rfl
@[simp] theorem setMailbox_freeCtr (s : State) (fn : Src) (m : Nat × Nat) : (setMailbox s fn m).freeCtr = s.freeCtr := rfl
@[simp] theorem setMailbox_hal_mgmt (s : State) (fn : Src) (m : Nat × Nat) : (setMailbox s fn m).hal.mgmt = s.hal.mgmt := rfl
@[simp] theorem setMailbox_hal_mirror (s : State) (fn : Src) (m : Nat × Nat) : (setMailbox s fn m).hal.mirror = s.hal.mirror := rfl
@[simp] theorem setMailbox_hal_copying (s : State) (fn : Src) (m : Nat × Nat) : (setMailbox s fn m).hal.copying = s.hal.copying := rfl
@[simp] theorem setMailbox_hal_epoch (s : State) (fn : Src) (m : Nat × Nat) : (setMailbox s fn m).hal.epoch = s.hal.epoch := rfl
@[simp] theorem setMailbox_hal_acked (s : State) (fn : Src) (m : Nat × Nat) : (setMailbox s fn m).hal.acked = s.hal.acked := rfl
@[simp] theorem setMailbox_hal_held (s : State) (fn : Src) (m : Nat × Nat) : (setMailbox s fn m).hal.held = s.hal.held := rfl
@[simp] theorem setMailbox_hal_active (s : State) (fn : Src) (m : Nat × Nat) : (setMailbox s fn m).hal.active = s.hal.active := rfl
@[simp] theorem setMailbox_hal_outA (s : State) (fn : Src) (m : Nat × Nat) : (setMailbox s fn m).hal.outA = s.hal.outA := rfl
@[simp] theorem setMailbox_hal_outB (s : State) (fn : Src) (m : Nat × Nat) : (setMailbox s fn m).hal.outB = s.hal.outB := rfl
@[simp] theorem setMailbox_hal_faults (s : State) (fn : Src) (m : Nat × Nat) : (setMailbox s fn m).hal.faults = s.hal.faults := rfl
@[simp] theorem setMailbox_hal_faultSeq (s : State) (fn : Src) (m : Nat × Nat) :
    (setMailbox s fn m).hal.faultSeq = s.hal.faultSeq := rfl
@[simp] theorem setMailbox_hal_serviceSeq (s : State) (fn : Src) (m : Nat × Nat) :
    (setMailbox s fn m).hal.serviceSeq = s.hal.serviceSeq := rfl
@[simp] theorem setMailbox_hal_ackSeq (s : State) (fn : Src) (m : Nat × Nat) : (setMailbox s fn m).hal.ackSeq = s.hal.ackSeq := rfl
@[simp] theorem setMailbox_hal_telem (s : State) (fn : Src) (m : Nat × Nat) : (setMailbox s fn m).hal.telem = s.hal.telem := rfl
@[simp] theorem setMailbox_hal_buckets (s : State) (fn : Src) (m : Nat × Nat) : (setMailbox s fn m).hal.buckets = s.hal.buckets := rfl
@[simp] theorem setMailbox_hal_flash (s : State) (fn : Src) (m : Nat × Nat) : (setMailbox s fn m).hal.flash = s.hal.flash := rfl
@[simp] theorem setMailbox_hal_savedCal (s : State) (fn : Src) (m : Nat × Nat) :
    (setMailbox s fn m).hal.savedCal = s.hal.savedCal := rfl
@[simp] theorem setMailbox_hal_linksDown (s : State) (fn : Src) (m : Nat × Nat) :
    (setMailbox s fn m).hal.linksDown = s.hal.linksDown := rfl

/-! `setBucket`. -/

@[simp] theorem setBucket_pending (s : State) (q : Nat) (b : Nat × Nat) : (setBucket s q b).pending = s.pending := rfl
@[simp] theorem setBucket_time (s : State) (q : Nat) (b : Nat × Nat) : (setBucket s q b).time = s.time := rfl
@[simp] theorem setBucket_regs (s : State) (q : Nat) (b : Nat × Nat) : (setBucket s q b).regs = s.regs := rfl
@[simp] theorem setBucket_mem (s : State) (q : Nat) (b : Nat × Nat) : (setBucket s q b).mem = s.mem := rfl
@[simp] theorem setBucket_poison (s : State) (q : Nat) (b : Nat × Nat) : (setBucket s q b).poison = s.poison := rfl
@[simp] theorem setBucket_jig (s : State) (q : Nat) (b : Nat × Nat) : (setBucket s q b).jig = s.jig := rfl
@[simp] theorem setBucket_cache (s : State) (q : Nat) (b : Nat × Nat) : (setBucket s q b).cache = s.cache := rfl
@[simp] theorem setBucket_dram (s : State) (q : Nat) (b : Nat × Nat) : (setBucket s q b).dram = s.dram := rfl
@[simp] theorem setBucket_kv (s : State) (q : Nat) (b : Nat × Nat) : (setBucket s q b).kv = s.kv := rfl
@[simp] theorem setBucket_mmu (s : State) (q : Nat) (b : Nat × Nat) : (setBucket s q b).mmu = s.mmu := rfl
@[simp] theorem setBucket_mit (s : State) (q : Nat) (b : Nat × Nat) : (setBucket s q b).mit = s.mit := rfl
@[simp] theorem setBucket_fab (s : State) (q : Nat) (b : Nat × Nat) : (setBucket s q b).fab = s.fab := rfl
@[simp] theorem setBucket_pen (s : State) (q : Nat) (b : Nat × Nat) : (setBucket s q b).pen = s.pen := rfl
@[simp] theorem setBucket_clk (s : State) (q : Nat) (b : Nat × Nat) : (setBucket s q b).clk = s.clk := rfl
@[simp] theorem setBucket_med (s : State) (q : Nat) (b : Nat × Nat) : (setBucket s q b).med = s.med := rfl
@[simp] theorem setBucket_pwr (s : State) (q : Nat) (b : Nat × Nat) : (setBucket s q b).pwr = s.pwr := rfl
@[simp] theorem setBucket_tap (s : State) (q : Nat) (b : Nat × Nat) : (setBucket s q b).tap = s.tap := rfl
@[simp] theorem setBucket_retention (s : State) (q : Nat) (b : Nat × Nat) : (setBucket s q b).retention = s.retention := rfl
@[simp] theorem setBucket_spareMap (s : State) (q : Nat) (b : Nat × Nat) : (setBucket s q b).spareMap = s.spareMap := rfl
@[simp] theorem setBucket_retiredBench (s : State) (q : Nat) (b : Nat × Nat) : (setBucket s q b).retiredBench = s.retiredBench := rfl
@[simp] theorem setBucket_takingOver (s : State) (q : Nat) (b : Nat × Nat) : (setBucket s q b).takingOver = s.takingOver := rfl
@[simp] theorem setBucket_takeovers (s : State) (q : Nat) (b : Nat × Nat) : (setBucket s q b).takeovers = s.takeovers := rfl
@[simp] theorem setBucket_sent (s : State) (q : Nat) (b : Nat × Nat) : (setBucket s q b).sent = s.sent := rfl
@[simp] theorem setBucket_freeCtr (s : State) (q : Nat) (b : Nat × Nat) : (setBucket s q b).freeCtr = s.freeCtr := rfl
@[simp] theorem setBucket_hal_mgmt (s : State) (q : Nat) (b : Nat × Nat) : (setBucket s q b).hal.mgmt = s.hal.mgmt := rfl
@[simp] theorem setBucket_hal_mirror (s : State) (q : Nat) (b : Nat × Nat) : (setBucket s q b).hal.mirror = s.hal.mirror := rfl
@[simp] theorem setBucket_hal_copying (s : State) (q : Nat) (b : Nat × Nat) : (setBucket s q b).hal.copying = s.hal.copying := rfl
@[simp] theorem setBucket_hal_epoch (s : State) (q : Nat) (b : Nat × Nat) : (setBucket s q b).hal.epoch = s.hal.epoch := rfl
@[simp] theorem setBucket_hal_acked (s : State) (q : Nat) (b : Nat × Nat) : (setBucket s q b).hal.acked = s.hal.acked := rfl
@[simp] theorem setBucket_hal_held (s : State) (q : Nat) (b : Nat × Nat) : (setBucket s q b).hal.held = s.hal.held := rfl
@[simp] theorem setBucket_hal_active (s : State) (q : Nat) (b : Nat × Nat) : (setBucket s q b).hal.active = s.hal.active := rfl
@[simp] theorem setBucket_hal_outA (s : State) (q : Nat) (b : Nat × Nat) : (setBucket s q b).hal.outA = s.hal.outA := rfl
@[simp] theorem setBucket_hal_outB (s : State) (q : Nat) (b : Nat × Nat) : (setBucket s q b).hal.outB = s.hal.outB := rfl
@[simp] theorem setBucket_hal_faults (s : State) (q : Nat) (b : Nat × Nat) : (setBucket s q b).hal.faults = s.hal.faults := rfl
@[simp] theorem setBucket_hal_faultSeq (s : State) (q : Nat) (b : Nat × Nat) : (setBucket s q b).hal.faultSeq = s.hal.faultSeq := rfl
@[simp] theorem setBucket_hal_serviceSeq (s : State) (q : Nat) (b : Nat × Nat) :
    (setBucket s q b).hal.serviceSeq = s.hal.serviceSeq := rfl
@[simp] theorem setBucket_hal_ackSeq (s : State) (q : Nat) (b : Nat × Nat) : (setBucket s q b).hal.ackSeq = s.hal.ackSeq := rfl
@[simp] theorem setBucket_hal_mailbox (s : State) (q : Nat) (b : Nat × Nat) : (setBucket s q b).hal.mailbox = s.hal.mailbox := rfl
@[simp] theorem setBucket_hal_telem (s : State) (q : Nat) (b : Nat × Nat) : (setBucket s q b).hal.telem = s.hal.telem := rfl
@[simp] theorem setBucket_hal_flash (s : State) (q : Nat) (b : Nat × Nat) : (setBucket s q b).hal.flash = s.hal.flash := rfl
@[simp] theorem setBucket_hal_savedCal (s : State) (q : Nat) (b : Nat × Nat) : (setBucket s q b).hal.savedCal = s.hal.savedCal := rfl
@[simp] theorem setBucket_hal_linksDown (s : State) (q : Nat) (b : Nat × Nat) : (setBucket s q b).hal.linksDown = s.hal.linksDown := rfl

/-! `putFlight`. -/

@[simp] theorem putFlight_pending (s : State) (f : Flight) : (putFlight s f).pending = s.pending := rfl
@[simp] theorem putFlight_time (s : State) (f : Flight) : (putFlight s f).time = s.time := rfl
@[simp] theorem putFlight_regs (s : State) (f : Flight) : (putFlight s f).regs = s.regs := rfl
@[simp] theorem putFlight_mem (s : State) (f : Flight) : (putFlight s f).mem = s.mem := rfl
@[simp] theorem putFlight_poison (s : State) (f : Flight) : (putFlight s f).poison = s.poison := rfl
@[simp] theorem putFlight_cache (s : State) (f : Flight) : (putFlight s f).cache = s.cache := rfl
@[simp] theorem putFlight_dram (s : State) (f : Flight) : (putFlight s f).dram = s.dram := rfl
@[simp] theorem putFlight_kv (s : State) (f : Flight) : (putFlight s f).kv = s.kv := rfl
@[simp] theorem putFlight_mmu (s : State) (f : Flight) : (putFlight s f).mmu = s.mmu := rfl
@[simp] theorem putFlight_mit (s : State) (f : Flight) : (putFlight s f).mit = s.mit := rfl
@[simp] theorem putFlight_fab (s : State) (f : Flight) : (putFlight s f).fab = s.fab := rfl
@[simp] theorem putFlight_pen (s : State) (f : Flight) : (putFlight s f).pen = s.pen := rfl
@[simp] theorem putFlight_clk (s : State) (f : Flight) : (putFlight s f).clk = s.clk := rfl
@[simp] theorem putFlight_med (s : State) (f : Flight) : (putFlight s f).med = s.med := rfl
@[simp] theorem putFlight_hal (s : State) (f : Flight) : (putFlight s f).hal = s.hal := rfl
@[simp] theorem putFlight_pwr (s : State) (f : Flight) : (putFlight s f).pwr = s.pwr := rfl
@[simp] theorem putFlight_tap (s : State) (f : Flight) : (putFlight s f).tap = s.tap := rfl
@[simp] theorem putFlight_retention (s : State) (f : Flight) : (putFlight s f).retention = s.retention := rfl
@[simp] theorem putFlight_spareMap (s : State) (f : Flight) : (putFlight s f).spareMap = s.spareMap := rfl
@[simp] theorem putFlight_retiredBench (s : State) (f : Flight) : (putFlight s f).retiredBench = s.retiredBench := rfl
@[simp] theorem putFlight_takingOver (s : State) (f : Flight) : (putFlight s f).takingOver = s.takingOver := rfl
@[simp] theorem putFlight_takeovers (s : State) (f : Flight) : (putFlight s f).takeovers = s.takeovers := rfl
@[simp] theorem putFlight_sent (s : State) (f : Flight) : (putFlight s f).sent = s.sent := rfl
@[simp] theorem putFlight_freeCtr (s : State) (f : Flight) : (putFlight s f).freeCtr = s.freeCtr := rfl
@[simp] theorem putFlight_jig_nextMi (s : State) (f : Flight) : (putFlight s f).jig.nextMi = s.jig.nextMi := rfl
@[simp] theorem putFlight_jig_rings (s : State) (f : Flight) : (putFlight s f).jig.rings = s.jig.rings := rfl
@[simp] theorem putFlight_jig_waiting (s : State) (f : Flight) : (putFlight s f).jig.waiting = s.jig.waiting := rfl
@[simp] theorem putFlight_jig_arrivals (s : State) (f : Flight) : (putFlight s f).jig.arrivals = s.jig.arrivals := rfl
@[simp] theorem putFlight_jig_combs (s : State) (f : Flight) : (putFlight s f).jig.combs = s.jig.combs := rfl
@[simp] theorem putFlight_jig_runs (s : State) (f : Flight) : (putFlight s f).jig.runs = s.jig.runs := rfl
@[simp] theorem putFlight_jig_retained (s : State) (f : Flight) : (putFlight s f).jig.retained = s.jig.retained := rfl
@[simp] theorem putFlight_jig_resetting (s : State) (f : Flight) : (putFlight s f).jig.resetting = s.jig.resetting := rfl
@[simp] theorem putFlight_jig_turn (s : State) (f : Flight) : (putFlight s f).jig.turn = s.jig.turn := rfl

/-! `dropFlight`. -/

@[simp] theorem dropFlight_pending (s : State) (mi : Nat) : (dropFlight s mi).pending = s.pending := rfl
@[simp] theorem dropFlight_time (s : State) (mi : Nat) : (dropFlight s mi).time = s.time := rfl
@[simp] theorem dropFlight_regs (s : State) (mi : Nat) : (dropFlight s mi).regs = s.regs := rfl
@[simp] theorem dropFlight_mem (s : State) (mi : Nat) : (dropFlight s mi).mem = s.mem := rfl
@[simp] theorem dropFlight_poison (s : State) (mi : Nat) : (dropFlight s mi).poison = s.poison := rfl
@[simp] theorem dropFlight_cache (s : State) (mi : Nat) : (dropFlight s mi).cache = s.cache := rfl
@[simp] theorem dropFlight_dram (s : State) (mi : Nat) : (dropFlight s mi).dram = s.dram := rfl
@[simp] theorem dropFlight_kv (s : State) (mi : Nat) : (dropFlight s mi).kv = s.kv := rfl
@[simp] theorem dropFlight_mmu (s : State) (mi : Nat) : (dropFlight s mi).mmu = s.mmu := rfl
@[simp] theorem dropFlight_mit (s : State) (mi : Nat) : (dropFlight s mi).mit = s.mit := rfl
@[simp] theorem dropFlight_fab (s : State) (mi : Nat) : (dropFlight s mi).fab = s.fab := rfl
@[simp] theorem dropFlight_pen (s : State) (mi : Nat) : (dropFlight s mi).pen = s.pen := rfl
@[simp] theorem dropFlight_clk (s : State) (mi : Nat) : (dropFlight s mi).clk = s.clk := rfl
@[simp] theorem dropFlight_med (s : State) (mi : Nat) : (dropFlight s mi).med = s.med := rfl
@[simp] theorem dropFlight_hal (s : State) (mi : Nat) : (dropFlight s mi).hal = s.hal := rfl
@[simp] theorem dropFlight_pwr (s : State) (mi : Nat) : (dropFlight s mi).pwr = s.pwr := rfl
@[simp] theorem dropFlight_tap (s : State) (mi : Nat) : (dropFlight s mi).tap = s.tap := rfl
@[simp] theorem dropFlight_retention (s : State) (mi : Nat) : (dropFlight s mi).retention = s.retention := rfl
@[simp] theorem dropFlight_spareMap (s : State) (mi : Nat) : (dropFlight s mi).spareMap = s.spareMap := rfl
@[simp] theorem dropFlight_retiredBench (s : State) (mi : Nat) : (dropFlight s mi).retiredBench = s.retiredBench := rfl
@[simp] theorem dropFlight_takingOver (s : State) (mi : Nat) : (dropFlight s mi).takingOver = s.takingOver := rfl
@[simp] theorem dropFlight_takeovers (s : State) (mi : Nat) : (dropFlight s mi).takeovers = s.takeovers := rfl
@[simp] theorem dropFlight_sent (s : State) (mi : Nat) : (dropFlight s mi).sent = s.sent := rfl
@[simp] theorem dropFlight_freeCtr (s : State) (mi : Nat) : (dropFlight s mi).freeCtr = s.freeCtr := rfl
@[simp] theorem dropFlight_jig_nextMi (s : State) (mi : Nat) : (dropFlight s mi).jig.nextMi = s.jig.nextMi := rfl
@[simp] theorem dropFlight_jig_rings (s : State) (mi : Nat) : (dropFlight s mi).jig.rings = s.jig.rings := rfl
@[simp] theorem dropFlight_jig_waiting (s : State) (mi : Nat) : (dropFlight s mi).jig.waiting = s.jig.waiting := rfl
@[simp] theorem dropFlight_jig_arrivals (s : State) (mi : Nat) : (dropFlight s mi).jig.arrivals = s.jig.arrivals := rfl
@[simp] theorem dropFlight_jig_combs (s : State) (mi : Nat) : (dropFlight s mi).jig.combs = s.jig.combs := rfl
@[simp] theorem dropFlight_jig_runs (s : State) (mi : Nat) : (dropFlight s mi).jig.runs = s.jig.runs := rfl
@[simp] theorem dropFlight_jig_retained (s : State) (mi : Nat) : (dropFlight s mi).jig.retained = s.jig.retained := rfl
@[simp] theorem dropFlight_jig_resetting (s : State) (mi : Nat) : (dropFlight s mi).jig.resetting = s.jig.resetting := rfl
@[simp] theorem dropFlight_jig_turn (s : State) (mi : Nat) : (dropFlight s mi).jig.turn = s.jig.turn := rfl

/-! `setRing`. -/

@[simp] theorem setRing_pending (s : State) (r : Ring) : (setRing s r).pending = s.pending := rfl
@[simp] theorem setRing_time (s : State) (r : Ring) : (setRing s r).time = s.time := rfl
@[simp] theorem setRing_regs (s : State) (r : Ring) : (setRing s r).regs = s.regs := rfl
@[simp] theorem setRing_mem (s : State) (r : Ring) : (setRing s r).mem = s.mem := rfl
@[simp] theorem setRing_poison (s : State) (r : Ring) : (setRing s r).poison = s.poison := rfl
@[simp] theorem setRing_cache (s : State) (r : Ring) : (setRing s r).cache = s.cache := rfl
@[simp] theorem setRing_dram (s : State) (r : Ring) : (setRing s r).dram = s.dram := rfl
@[simp] theorem setRing_kv (s : State) (r : Ring) : (setRing s r).kv = s.kv := rfl
@[simp] theorem setRing_mmu (s : State) (r : Ring) : (setRing s r).mmu = s.mmu := rfl
@[simp] theorem setRing_mit (s : State) (r : Ring) : (setRing s r).mit = s.mit := rfl
@[simp] theorem setRing_fab (s : State) (r : Ring) : (setRing s r).fab = s.fab := rfl
@[simp] theorem setRing_pen (s : State) (r : Ring) : (setRing s r).pen = s.pen := rfl
@[simp] theorem setRing_clk (s : State) (r : Ring) : (setRing s r).clk = s.clk := rfl
@[simp] theorem setRing_med (s : State) (r : Ring) : (setRing s r).med = s.med := rfl
@[simp] theorem setRing_hal (s : State) (r : Ring) : (setRing s r).hal = s.hal := rfl
@[simp] theorem setRing_pwr (s : State) (r : Ring) : (setRing s r).pwr = s.pwr := rfl
@[simp] theorem setRing_tap (s : State) (r : Ring) : (setRing s r).tap = s.tap := rfl
@[simp] theorem setRing_retention (s : State) (r : Ring) : (setRing s r).retention = s.retention := rfl
@[simp] theorem setRing_spareMap (s : State) (r : Ring) : (setRing s r).spareMap = s.spareMap := rfl
@[simp] theorem setRing_retiredBench (s : State) (r : Ring) : (setRing s r).retiredBench = s.retiredBench := rfl
@[simp] theorem setRing_takingOver (s : State) (r : Ring) : (setRing s r).takingOver = s.takingOver := rfl
@[simp] theorem setRing_takeovers (s : State) (r : Ring) : (setRing s r).takeovers = s.takeovers := rfl
@[simp] theorem setRing_sent (s : State) (r : Ring) : (setRing s r).sent = s.sent := rfl
@[simp] theorem setRing_freeCtr (s : State) (r : Ring) : (setRing s r).freeCtr = s.freeCtr := rfl
@[simp] theorem setRing_jig_flights (s : State) (r : Ring) : (setRing s r).jig.flights = s.jig.flights := rfl
@[simp] theorem setRing_jig_nextMi (s : State) (r : Ring) : (setRing s r).jig.nextMi = s.jig.nextMi := rfl
@[simp] theorem setRing_jig_waiting (s : State) (r : Ring) : (setRing s r).jig.waiting = s.jig.waiting := rfl
@[simp] theorem setRing_jig_arrivals (s : State) (r : Ring) : (setRing s r).jig.arrivals = s.jig.arrivals := rfl
@[simp] theorem setRing_jig_combs (s : State) (r : Ring) : (setRing s r).jig.combs = s.jig.combs := rfl
@[simp] theorem setRing_jig_runs (s : State) (r : Ring) : (setRing s r).jig.runs = s.jig.runs := rfl
@[simp] theorem setRing_jig_retained (s : State) (r : Ring) : (setRing s r).jig.retained = s.jig.retained := rfl
@[simp] theorem setRing_jig_resetting (s : State) (r : Ring) : (setRing s r).jig.resetting = s.jig.resetting := rfl
@[simp] theorem setRing_jig_turn (s : State) (r : Ring) : (setRing s r).jig.turn = s.jig.turn := rfl

/-! `setFrame`. -/

@[simp] theorem setFrame_pending (s : State) (f : CacheFrame) : (setFrame s f).pending = s.pending := rfl
@[simp] theorem setFrame_time (s : State) (f : CacheFrame) : (setFrame s f).time = s.time := rfl
@[simp] theorem setFrame_regs (s : State) (f : CacheFrame) : (setFrame s f).regs = s.regs := rfl
@[simp] theorem setFrame_mem (s : State) (f : CacheFrame) : (setFrame s f).mem = s.mem := rfl
@[simp] theorem setFrame_poison (s : State) (f : CacheFrame) : (setFrame s f).poison = s.poison := rfl
@[simp] theorem setFrame_jig (s : State) (f : CacheFrame) : (setFrame s f).jig = s.jig := rfl
@[simp] theorem setFrame_dram (s : State) (f : CacheFrame) : (setFrame s f).dram = s.dram := rfl
@[simp] theorem setFrame_kv (s : State) (f : CacheFrame) : (setFrame s f).kv = s.kv := rfl
@[simp] theorem setFrame_mmu (s : State) (f : CacheFrame) : (setFrame s f).mmu = s.mmu := rfl
@[simp] theorem setFrame_mit (s : State) (f : CacheFrame) : (setFrame s f).mit = s.mit := rfl
@[simp] theorem setFrame_fab (s : State) (f : CacheFrame) : (setFrame s f).fab = s.fab := rfl
@[simp] theorem setFrame_pen (s : State) (f : CacheFrame) : (setFrame s f).pen = s.pen := rfl
@[simp] theorem setFrame_clk (s : State) (f : CacheFrame) : (setFrame s f).clk = s.clk := rfl
@[simp] theorem setFrame_med (s : State) (f : CacheFrame) : (setFrame s f).med = s.med := rfl
@[simp] theorem setFrame_hal (s : State) (f : CacheFrame) : (setFrame s f).hal = s.hal := rfl
@[simp] theorem setFrame_pwr (s : State) (f : CacheFrame) : (setFrame s f).pwr = s.pwr := rfl
@[simp] theorem setFrame_tap (s : State) (f : CacheFrame) : (setFrame s f).tap = s.tap := rfl
@[simp] theorem setFrame_retention (s : State) (f : CacheFrame) : (setFrame s f).retention = s.retention := rfl
@[simp] theorem setFrame_spareMap (s : State) (f : CacheFrame) : (setFrame s f).spareMap = s.spareMap := rfl
@[simp] theorem setFrame_retiredBench (s : State) (f : CacheFrame) : (setFrame s f).retiredBench = s.retiredBench := rfl
@[simp] theorem setFrame_takingOver (s : State) (f : CacheFrame) : (setFrame s f).takingOver = s.takingOver := rfl
@[simp] theorem setFrame_takeovers (s : State) (f : CacheFrame) : (setFrame s f).takeovers = s.takeovers := rfl
@[simp] theorem setFrame_sent (s : State) (f : CacheFrame) : (setFrame s f).sent = s.sent := rfl
@[simp] theorem setFrame_freeCtr (s : State) (f : CacheFrame) : (setFrame s f).freeCtr = s.freeCtr := rfl
@[simp] theorem setFrame_cache_clock (s : State) (f : CacheFrame) : (setFrame s f).cache.clock = s.cache.clock := rfl
@[simp] theorem setFrame_cache_closing (s : State) (f : CacheFrame) : (setFrame s f).cache.closing = s.cache.closing := rfl

/-! `dropFrame`. -/

@[simp] theorem dropFrame_pending (s : State) (f : CacheFrame) : (dropFrame s f).pending = s.pending := rfl
@[simp] theorem dropFrame_time (s : State) (f : CacheFrame) : (dropFrame s f).time = s.time := rfl
@[simp] theorem dropFrame_regs (s : State) (f : CacheFrame) : (dropFrame s f).regs = s.regs := rfl
@[simp] theorem dropFrame_mem (s : State) (f : CacheFrame) : (dropFrame s f).mem = s.mem := rfl
@[simp] theorem dropFrame_poison (s : State) (f : CacheFrame) : (dropFrame s f).poison = s.poison := rfl
@[simp] theorem dropFrame_jig (s : State) (f : CacheFrame) : (dropFrame s f).jig = s.jig := rfl
@[simp] theorem dropFrame_dram (s : State) (f : CacheFrame) : (dropFrame s f).dram = s.dram := rfl
@[simp] theorem dropFrame_kv (s : State) (f : CacheFrame) : (dropFrame s f).kv = s.kv := rfl
@[simp] theorem dropFrame_mmu (s : State) (f : CacheFrame) : (dropFrame s f).mmu = s.mmu := rfl
@[simp] theorem dropFrame_mit (s : State) (f : CacheFrame) : (dropFrame s f).mit = s.mit := rfl
@[simp] theorem dropFrame_fab (s : State) (f : CacheFrame) : (dropFrame s f).fab = s.fab := rfl
@[simp] theorem dropFrame_pen (s : State) (f : CacheFrame) : (dropFrame s f).pen = s.pen := rfl
@[simp] theorem dropFrame_clk (s : State) (f : CacheFrame) : (dropFrame s f).clk = s.clk := rfl
@[simp] theorem dropFrame_med (s : State) (f : CacheFrame) : (dropFrame s f).med = s.med := rfl
@[simp] theorem dropFrame_hal (s : State) (f : CacheFrame) : (dropFrame s f).hal = s.hal := rfl
@[simp] theorem dropFrame_pwr (s : State) (f : CacheFrame) : (dropFrame s f).pwr = s.pwr := rfl
@[simp] theorem dropFrame_tap (s : State) (f : CacheFrame) : (dropFrame s f).tap = s.tap := rfl
@[simp] theorem dropFrame_retention (s : State) (f : CacheFrame) : (dropFrame s f).retention = s.retention := rfl
@[simp] theorem dropFrame_spareMap (s : State) (f : CacheFrame) : (dropFrame s f).spareMap = s.spareMap := rfl
@[simp] theorem dropFrame_retiredBench (s : State) (f : CacheFrame) : (dropFrame s f).retiredBench = s.retiredBench := rfl
@[simp] theorem dropFrame_takingOver (s : State) (f : CacheFrame) : (dropFrame s f).takingOver = s.takingOver := rfl
@[simp] theorem dropFrame_takeovers (s : State) (f : CacheFrame) : (dropFrame s f).takeovers = s.takeovers := rfl
@[simp] theorem dropFrame_sent (s : State) (f : CacheFrame) : (dropFrame s f).sent = s.sent := rfl
@[simp] theorem dropFrame_freeCtr (s : State) (f : CacheFrame) : (dropFrame s f).freeCtr = s.freeCtr := rfl
@[simp] theorem dropFrame_cache_clock (s : State) (f : CacheFrame) : (dropFrame s f).cache.clock = s.cache.clock := rfl
@[simp] theorem dropFrame_cache_closing (s : State) (f : CacheFrame) : (dropFrame s f).cache.closing = s.cache.closing := rfl

/-! `setPort`. -/

@[simp] theorem setPort_pending (s : State) (p : Nat) (v : Port) : (setPort s p v).pending = s.pending := rfl
@[simp] theorem setPort_time (s : State) (p : Nat) (v : Port) : (setPort s p v).time = s.time := rfl
@[simp] theorem setPort_regs (s : State) (p : Nat) (v : Port) : (setPort s p v).regs = s.regs := rfl
@[simp] theorem setPort_mem (s : State) (p : Nat) (v : Port) : (setPort s p v).mem = s.mem := rfl
@[simp] theorem setPort_poison (s : State) (p : Nat) (v : Port) : (setPort s p v).poison = s.poison := rfl
@[simp] theorem setPort_jig (s : State) (p : Nat) (v : Port) : (setPort s p v).jig = s.jig := rfl
@[simp] theorem setPort_cache (s : State) (p : Nat) (v : Port) : (setPort s p v).cache = s.cache := rfl
@[simp] theorem setPort_dram (s : State) (p : Nat) (v : Port) : (setPort s p v).dram = s.dram := rfl
@[simp] theorem setPort_kv (s : State) (p : Nat) (v : Port) : (setPort s p v).kv = s.kv := rfl
@[simp] theorem setPort_mmu (s : State) (p : Nat) (v : Port) : (setPort s p v).mmu = s.mmu := rfl
@[simp] theorem setPort_mit (s : State) (p : Nat) (v : Port) : (setPort s p v).mit = s.mit := rfl
@[simp] theorem setPort_pen (s : State) (p : Nat) (v : Port) : (setPort s p v).pen = s.pen := rfl
@[simp] theorem setPort_clk (s : State) (p : Nat) (v : Port) : (setPort s p v).clk = s.clk := rfl
@[simp] theorem setPort_med (s : State) (p : Nat) (v : Port) : (setPort s p v).med = s.med := rfl
@[simp] theorem setPort_hal (s : State) (p : Nat) (v : Port) : (setPort s p v).hal = s.hal := rfl
@[simp] theorem setPort_pwr (s : State) (p : Nat) (v : Port) : (setPort s p v).pwr = s.pwr := rfl
@[simp] theorem setPort_tap (s : State) (p : Nat) (v : Port) : (setPort s p v).tap = s.tap := rfl
@[simp] theorem setPort_retention (s : State) (p : Nat) (v : Port) : (setPort s p v).retention = s.retention := rfl
@[simp] theorem setPort_spareMap (s : State) (p : Nat) (v : Port) : (setPort s p v).spareMap = s.spareMap := rfl
@[simp] theorem setPort_retiredBench (s : State) (p : Nat) (v : Port) : (setPort s p v).retiredBench = s.retiredBench := rfl
@[simp] theorem setPort_takingOver (s : State) (p : Nat) (v : Port) : (setPort s p v).takingOver = s.takingOver := rfl
@[simp] theorem setPort_takeovers (s : State) (p : Nat) (v : Port) : (setPort s p v).takeovers = s.takeovers := rfl
@[simp] theorem setPort_sent (s : State) (p : Nat) (v : Port) : (setPort s p v).sent = s.sent := rfl
@[simp] theorem setPort_freeCtr (s : State) (p : Nat) (v : Port) : (setPort s p v).freeCtr = s.freeCtr := rfl
@[simp] theorem setPort_fab_nextTag (s : State) (p : Nat) (v : Port) : (setPort s p v).fab.nextTag = s.fab.nextTag := rfl
@[simp] theorem setPort_fab_requests (s : State) (p : Nat) (v : Port) : (setPort s p v).fab.requests = s.fab.requests := rfl
@[simp] theorem setPort_fab_served (s : State) (p : Nat) (v : Port) : (setPort s p v).fab.served = s.fab.served := rfl
@[simp] theorem setPort_fab_active (s : State) (p : Nat) (v : Port) : (setPort s p v).fab.active = s.fab.active := rfl
@[simp] theorem setPort_fab_copying (s : State) (p : Nat) (v : Port) : (setPort s p v).fab.copying = s.fab.copying := rfl
@[simp] theorem setPort_fab_heldRoutes (s : State) (p : Nat) (v : Port) : (setPort s p v).fab.heldRoutes = s.fab.heldRoutes := rfl
@[simp] theorem setPort_fab_sched (s : State) (p : Nat) (v : Port) : (setPort s p v).fab.sched = s.fab.sched := rfl
@[simp] theorem setPort_fab_plan (s : State) (p : Nat) (v : Port) : (setPort s p v).fab.plan = s.fab.plan := rfl
@[simp] theorem setPort_fab_enterAt (s : State) (p : Nat) (v : Port) : (setPort s p v).fab.enterAt = s.fab.enterAt := rfl
@[simp] theorem setPort_fab_slotAt (s : State) (p : Nat) (v : Port) : (setPort s p v).fab.slotAt = s.fab.slotAt := rfl
@[simp] theorem setPort_fab_leases (s : State) (p : Nat) (v : Port) : (setPort s p v).fab.leases = s.fab.leases := rfl
@[simp] theorem setPort_fab_leaseIds (s : State) (p : Nat) (v : Port) : (setPort s p v).fab.leaseIds = s.fab.leaseIds := rfl
@[simp] theorem setPort_fab_flows (s : State) (p : Nat) (v : Port) : (setPort s p v).fab.flows = s.fab.flows := rfl
@[simp] theorem setPort_fab_reseq (s : State) (p : Nat) (v : Port) : (setPort s p v).fab.reseq = s.fab.reseq := rfl
@[simp] theorem setPort_fab_backlog (s : State) (p : Nat) (v : Port) : (setPort s p v).fab.backlog = s.fab.backlog := rfl
@[simp] theorem setPort_fab_txFlows (s : State) (p : Nat) (v : Port) : (setPort s p v).fab.txFlows = s.fab.txFlows := rfl
@[simp] theorem setPort_fab_jobs (s : State) (p : Nat) (v : Port) : (setPort s p v).fab.jobs = s.fab.jobs := rfl
@[simp] theorem setPort_fab_nextJob (s : State) (p : Nat) (v : Port) : (setPort s p v).fab.nextJob = s.fab.nextJob := rfl
@[simp] theorem setPort_fab_arrived (s : State) (p : Nat) (v : Port) : (setPort s p v).fab.arrived = s.fab.arrived := rfl
@[simp] theorem setPort_fab_asks (s : State) (p : Nat) (v : Port) : (setPort s p v).fab.asks = s.fab.asks := rfl

/-! `putLease`. -/

@[simp] theorem putLease_pending (s : State) (l : Lease) : (putLease s l).pending = s.pending := rfl
@[simp] theorem putLease_time (s : State) (l : Lease) : (putLease s l).time = s.time := rfl
@[simp] theorem putLease_regs (s : State) (l : Lease) : (putLease s l).regs = s.regs := rfl
@[simp] theorem putLease_mem (s : State) (l : Lease) : (putLease s l).mem = s.mem := rfl
@[simp] theorem putLease_poison (s : State) (l : Lease) : (putLease s l).poison = s.poison := rfl
@[simp] theorem putLease_jig (s : State) (l : Lease) : (putLease s l).jig = s.jig := rfl
@[simp] theorem putLease_cache (s : State) (l : Lease) : (putLease s l).cache = s.cache := rfl
@[simp] theorem putLease_dram (s : State) (l : Lease) : (putLease s l).dram = s.dram := rfl
@[simp] theorem putLease_kv (s : State) (l : Lease) : (putLease s l).kv = s.kv := rfl
@[simp] theorem putLease_mmu (s : State) (l : Lease) : (putLease s l).mmu = s.mmu := rfl
@[simp] theorem putLease_mit (s : State) (l : Lease) : (putLease s l).mit = s.mit := rfl
@[simp] theorem putLease_pen (s : State) (l : Lease) : (putLease s l).pen = s.pen := rfl
@[simp] theorem putLease_clk (s : State) (l : Lease) : (putLease s l).clk = s.clk := rfl
@[simp] theorem putLease_med (s : State) (l : Lease) : (putLease s l).med = s.med := rfl
@[simp] theorem putLease_hal (s : State) (l : Lease) : (putLease s l).hal = s.hal := rfl
@[simp] theorem putLease_pwr (s : State) (l : Lease) : (putLease s l).pwr = s.pwr := rfl
@[simp] theorem putLease_tap (s : State) (l : Lease) : (putLease s l).tap = s.tap := rfl
@[simp] theorem putLease_retention (s : State) (l : Lease) : (putLease s l).retention = s.retention := rfl
@[simp] theorem putLease_spareMap (s : State) (l : Lease) : (putLease s l).spareMap = s.spareMap := rfl
@[simp] theorem putLease_retiredBench (s : State) (l : Lease) : (putLease s l).retiredBench = s.retiredBench := rfl
@[simp] theorem putLease_takingOver (s : State) (l : Lease) : (putLease s l).takingOver = s.takingOver := rfl
@[simp] theorem putLease_takeovers (s : State) (l : Lease) : (putLease s l).takeovers = s.takeovers := rfl
@[simp] theorem putLease_sent (s : State) (l : Lease) : (putLease s l).sent = s.sent := rfl
@[simp] theorem putLease_freeCtr (s : State) (l : Lease) : (putLease s l).freeCtr = s.freeCtr := rfl
@[simp] theorem putLease_fab_ports (s : State) (l : Lease) : (putLease s l).fab.ports = s.fab.ports := rfl
@[simp] theorem putLease_fab_nextTag (s : State) (l : Lease) : (putLease s l).fab.nextTag = s.fab.nextTag := rfl
@[simp] theorem putLease_fab_requests (s : State) (l : Lease) : (putLease s l).fab.requests = s.fab.requests := rfl
@[simp] theorem putLease_fab_served (s : State) (l : Lease) : (putLease s l).fab.served = s.fab.served := rfl
@[simp] theorem putLease_fab_active (s : State) (l : Lease) : (putLease s l).fab.active = s.fab.active := rfl
@[simp] theorem putLease_fab_copying (s : State) (l : Lease) : (putLease s l).fab.copying = s.fab.copying := rfl
@[simp] theorem putLease_fab_heldRoutes (s : State) (l : Lease) : (putLease s l).fab.heldRoutes = s.fab.heldRoutes := rfl
@[simp] theorem putLease_fab_sched (s : State) (l : Lease) : (putLease s l).fab.sched = s.fab.sched := rfl
@[simp] theorem putLease_fab_plan (s : State) (l : Lease) : (putLease s l).fab.plan = s.fab.plan := rfl
@[simp] theorem putLease_fab_enterAt (s : State) (l : Lease) : (putLease s l).fab.enterAt = s.fab.enterAt := rfl
@[simp] theorem putLease_fab_slotAt (s : State) (l : Lease) : (putLease s l).fab.slotAt = s.fab.slotAt := rfl
@[simp] theorem putLease_fab_leaseIds (s : State) (l : Lease) : (putLease s l).fab.leaseIds = s.fab.leaseIds := rfl
@[simp] theorem putLease_fab_flows (s : State) (l : Lease) : (putLease s l).fab.flows = s.fab.flows := rfl
@[simp] theorem putLease_fab_reseq (s : State) (l : Lease) : (putLease s l).fab.reseq = s.fab.reseq := rfl
@[simp] theorem putLease_fab_backlog (s : State) (l : Lease) : (putLease s l).fab.backlog = s.fab.backlog := rfl
@[simp] theorem putLease_fab_txFlows (s : State) (l : Lease) : (putLease s l).fab.txFlows = s.fab.txFlows := rfl
@[simp] theorem putLease_fab_jobs (s : State) (l : Lease) : (putLease s l).fab.jobs = s.fab.jobs := rfl
@[simp] theorem putLease_fab_nextJob (s : State) (l : Lease) : (putLease s l).fab.nextJob = s.fab.nextJob := rfl
@[simp] theorem putLease_fab_arrived (s : State) (l : Lease) : (putLease s l).fab.arrived = s.fab.arrived := rfl
@[simp] theorem putLease_fab_asks (s : State) (l : Lease) : (putLease s l).fab.asks = s.fab.asks := rfl

/-! `dropLease`. -/

@[simp] theorem dropLease_pending (s : State) (side : LeaseSide) (slot : Nat) : (dropLease s side slot).pending = s.pending := rfl
@[simp] theorem dropLease_time (s : State) (side : LeaseSide) (slot : Nat) : (dropLease s side slot).time = s.time := rfl
@[simp] theorem dropLease_regs (s : State) (side : LeaseSide) (slot : Nat) : (dropLease s side slot).regs = s.regs := rfl
@[simp] theorem dropLease_mem (s : State) (side : LeaseSide) (slot : Nat) : (dropLease s side slot).mem = s.mem := rfl
@[simp] theorem dropLease_poison (s : State) (side : LeaseSide) (slot : Nat) : (dropLease s side slot).poison = s.poison := rfl
@[simp] theorem dropLease_jig (s : State) (side : LeaseSide) (slot : Nat) : (dropLease s side slot).jig = s.jig := rfl
@[simp] theorem dropLease_cache (s : State) (side : LeaseSide) (slot : Nat) : (dropLease s side slot).cache = s.cache := rfl
@[simp] theorem dropLease_dram (s : State) (side : LeaseSide) (slot : Nat) : (dropLease s side slot).dram = s.dram := rfl
@[simp] theorem dropLease_kv (s : State) (side : LeaseSide) (slot : Nat) : (dropLease s side slot).kv = s.kv := rfl
@[simp] theorem dropLease_mmu (s : State) (side : LeaseSide) (slot : Nat) : (dropLease s side slot).mmu = s.mmu := rfl
@[simp] theorem dropLease_mit (s : State) (side : LeaseSide) (slot : Nat) : (dropLease s side slot).mit = s.mit := rfl
@[simp] theorem dropLease_pen (s : State) (side : LeaseSide) (slot : Nat) : (dropLease s side slot).pen = s.pen := rfl
@[simp] theorem dropLease_clk (s : State) (side : LeaseSide) (slot : Nat) : (dropLease s side slot).clk = s.clk := rfl
@[simp] theorem dropLease_med (s : State) (side : LeaseSide) (slot : Nat) : (dropLease s side slot).med = s.med := rfl
@[simp] theorem dropLease_hal (s : State) (side : LeaseSide) (slot : Nat) : (dropLease s side slot).hal = s.hal := rfl
@[simp] theorem dropLease_pwr (s : State) (side : LeaseSide) (slot : Nat) : (dropLease s side slot).pwr = s.pwr := rfl
@[simp] theorem dropLease_tap (s : State) (side : LeaseSide) (slot : Nat) : (dropLease s side slot).tap = s.tap := rfl
@[simp] theorem dropLease_retention (s : State) (side : LeaseSide) (slot : Nat) : (dropLease s side slot).retention = s.retention := rfl
@[simp] theorem dropLease_spareMap (s : State) (side : LeaseSide) (slot : Nat) : (dropLease s side slot).spareMap = s.spareMap := rfl
@[simp] theorem dropLease_retiredBench (s : State) (side : LeaseSide) (slot : Nat) :
    (dropLease s side slot).retiredBench = s.retiredBench := rfl
@[simp] theorem dropLease_takingOver (s : State) (side : LeaseSide) (slot : Nat) :
    (dropLease s side slot).takingOver = s.takingOver := rfl
@[simp] theorem dropLease_takeovers (s : State) (side : LeaseSide) (slot : Nat) : (dropLease s side slot).takeovers = s.takeovers := rfl
@[simp] theorem dropLease_sent (s : State) (side : LeaseSide) (slot : Nat) : (dropLease s side slot).sent = s.sent := rfl
@[simp] theorem dropLease_freeCtr (s : State) (side : LeaseSide) (slot : Nat) : (dropLease s side slot).freeCtr = s.freeCtr := rfl
@[simp] theorem dropLease_fab_ports (s : State) (side : LeaseSide) (slot : Nat) : (dropLease s side slot).fab.ports = s.fab.ports := rfl
@[simp] theorem dropLease_fab_nextTag (s : State) (side : LeaseSide) (slot : Nat) :
    (dropLease s side slot).fab.nextTag = s.fab.nextTag := rfl
@[simp] theorem dropLease_fab_requests (s : State) (side : LeaseSide) (slot : Nat) :
    (dropLease s side slot).fab.requests = s.fab.requests := rfl
@[simp] theorem dropLease_fab_served (s : State) (side : LeaseSide) (slot : Nat) :
    (dropLease s side slot).fab.served = s.fab.served := rfl
@[simp] theorem dropLease_fab_active (s : State) (side : LeaseSide) (slot : Nat) :
    (dropLease s side slot).fab.active = s.fab.active := rfl
@[simp] theorem dropLease_fab_copying (s : State) (side : LeaseSide) (slot : Nat) :
    (dropLease s side slot).fab.copying = s.fab.copying := rfl
@[simp] theorem dropLease_fab_heldRoutes (s : State) (side : LeaseSide) (slot : Nat) :
    (dropLease s side slot).fab.heldRoutes = s.fab.heldRoutes := rfl
@[simp] theorem dropLease_fab_sched (s : State) (side : LeaseSide) (slot : Nat) : (dropLease s side slot).fab.sched = s.fab.sched := rfl
@[simp] theorem dropLease_fab_plan (s : State) (side : LeaseSide) (slot : Nat) : (dropLease s side slot).fab.plan = s.fab.plan := rfl
@[simp] theorem dropLease_fab_enterAt (s : State) (side : LeaseSide) (slot : Nat) :
    (dropLease s side slot).fab.enterAt = s.fab.enterAt := rfl
@[simp] theorem dropLease_fab_slotAt (s : State) (side : LeaseSide) (slot : Nat) :
    (dropLease s side slot).fab.slotAt = s.fab.slotAt := rfl
@[simp] theorem dropLease_fab_leaseIds (s : State) (side : LeaseSide) (slot : Nat) :
    (dropLease s side slot).fab.leaseIds = s.fab.leaseIds := rfl
@[simp] theorem dropLease_fab_flows (s : State) (side : LeaseSide) (slot : Nat) : (dropLease s side slot).fab.flows = s.fab.flows := rfl
@[simp] theorem dropLease_fab_reseq (s : State) (side : LeaseSide) (slot : Nat) : (dropLease s side slot).fab.reseq = s.fab.reseq := rfl
@[simp] theorem dropLease_fab_backlog (s : State) (side : LeaseSide) (slot : Nat) : (dropLease s side slot).fab.backlog = s.fab.backlog := rfl
@[simp] theorem dropLease_fab_txFlows (s : State) (side : LeaseSide) (slot : Nat) : (dropLease s side slot).fab.txFlows = s.fab.txFlows := rfl
@[simp] theorem dropLease_fab_jobs (s : State) (side : LeaseSide) (slot : Nat) : (dropLease s side slot).fab.jobs = s.fab.jobs := rfl
@[simp] theorem dropLease_fab_nextJob (s : State) (side : LeaseSide) (slot : Nat) : (dropLease s side slot).fab.nextJob = s.fab.nextJob := rfl
@[simp] theorem dropLease_fab_arrived (s : State) (side : LeaseSide) (slot : Nat) : (dropLease s side slot).fab.arrived = s.fab.arrived := rfl
@[simp] theorem dropLease_fab_asks (s : State) (side : LeaseSide) (slot : Nat) : (dropLease s side slot).fab.asks = s.fab.asks := rfl

/-! `startScrub`. -/

@[simp] theorem startScrub_pending (s : State) (kind : ScrubKind) (first count : Nat) :
    (startScrub s kind first count).pending = s.pending := rfl
@[simp] theorem startScrub_time (s : State) (kind : ScrubKind) (first count : Nat) :
    (startScrub s kind first count).time = s.time := rfl
@[simp] theorem startScrub_regs (s : State) (kind : ScrubKind) (first count : Nat) :
    (startScrub s kind first count).regs = s.regs := rfl
@[simp] theorem startScrub_mem (s : State) (kind : ScrubKind) (first count : Nat) : (startScrub s kind first count).mem = s.mem := rfl
@[simp] theorem startScrub_poison (s : State) (kind : ScrubKind) (first count : Nat) :
    (startScrub s kind first count).poison = s.poison := rfl
@[simp] theorem startScrub_jig (s : State) (kind : ScrubKind) (first count : Nat) : (startScrub s kind first count).jig = s.jig := rfl
@[simp] theorem startScrub_cache (s : State) (kind : ScrubKind) (first count : Nat) :
    (startScrub s kind first count).cache = s.cache := rfl
@[simp] theorem startScrub_dram (s : State) (kind : ScrubKind) (first count : Nat) :
    (startScrub s kind first count).dram = s.dram := rfl
@[simp] theorem startScrub_kv (s : State) (kind : ScrubKind) (first count : Nat) : (startScrub s kind first count).kv = s.kv := rfl
@[simp] theorem startScrub_mit (s : State) (kind : ScrubKind) (first count : Nat) : (startScrub s kind first count).mit = s.mit := rfl
@[simp] theorem startScrub_fab (s : State) (kind : ScrubKind) (first count : Nat) : (startScrub s kind first count).fab = s.fab := rfl
@[simp] theorem startScrub_pen (s : State) (kind : ScrubKind) (first count : Nat) : (startScrub s kind first count).pen = s.pen := rfl
@[simp] theorem startScrub_clk (s : State) (kind : ScrubKind) (first count : Nat) : (startScrub s kind first count).clk = s.clk := rfl
@[simp] theorem startScrub_med (s : State) (kind : ScrubKind) (first count : Nat) : (startScrub s kind first count).med = s.med := rfl
@[simp] theorem startScrub_hal (s : State) (kind : ScrubKind) (first count : Nat) : (startScrub s kind first count).hal = s.hal := rfl
@[simp] theorem startScrub_pwr (s : State) (kind : ScrubKind) (first count : Nat) : (startScrub s kind first count).pwr = s.pwr := rfl
@[simp] theorem startScrub_tap (s : State) (kind : ScrubKind) (first count : Nat) : (startScrub s kind first count).tap = s.tap := rfl
@[simp] theorem startScrub_retention (s : State) (kind : ScrubKind) (first count : Nat) :
    (startScrub s kind first count).retention = s.retention := rfl
@[simp] theorem startScrub_spareMap (s : State) (kind : ScrubKind) (first count : Nat) :
    (startScrub s kind first count).spareMap = s.spareMap := rfl
@[simp] theorem startScrub_retiredBench (s : State) (kind : ScrubKind) (first count : Nat) :
    (startScrub s kind first count).retiredBench = s.retiredBench := rfl
@[simp] theorem startScrub_takingOver (s : State) (kind : ScrubKind) (first count : Nat) :
    (startScrub s kind first count).takingOver = s.takingOver := rfl
@[simp] theorem startScrub_takeovers (s : State) (kind : ScrubKind) (first count : Nat) :
    (startScrub s kind first count).takeovers = s.takeovers := rfl
@[simp] theorem startScrub_sent (s : State) (kind : ScrubKind) (first count : Nat) :
    (startScrub s kind first count).sent = s.sent := rfl
@[simp] theorem startScrub_freeCtr (s : State) (kind : ScrubKind) (first count : Nat) :
    (startScrub s kind first count).freeCtr = s.freeCtr := rfl
@[simp] theorem startScrub_mmu_tlb (s : State) (kind : ScrubKind) (first count : Nat) :
    (startScrub s kind first count).mmu.tlb = s.mmu.tlb := rfl
@[simp] theorem startScrub_mmu_inval (s : State) (kind : ScrubKind) (first count : Nat) :
    (startScrub s kind first count).mmu.inval = s.mmu.inval := rfl
@[simp] theorem startScrub_mmu_keys (s : State) (kind : ScrubKind) (first count : Nat) :
    (startScrub s kind first count).mmu.keys = s.mmu.keys := rfl
@[simp] theorem startScrub_mmu_assigned (s : State) (kind : ScrubKind) (first count : Nat) :
    (startScrub s kind first count).mmu.assigned = s.mmu.assigned := rfl
@[simp] theorem startScrub_mmu_tslice (s : State) (kind : ScrubKind) (first count : Nat) :
    (startScrub s kind first count).mmu.tslice = s.mmu.tslice := rfl
@[simp] theorem startScrub_mmu_saved (s : State) (kind : ScrubKind) (first count : Nat) :
    (startScrub s kind first count).mmu.saved = s.mmu.saved := rfl

/-! `recheckTlb`. -/

@[simp] theorem recheckTlb_pending (s : State) : (recheckTlb s).pending = s.pending := rfl
@[simp] theorem recheckTlb_time (s : State) : (recheckTlb s).time = s.time := rfl
@[simp] theorem recheckTlb_regs (s : State) : (recheckTlb s).regs = s.regs := rfl
@[simp] theorem recheckTlb_mem (s : State) : (recheckTlb s).mem = s.mem := rfl
@[simp] theorem recheckTlb_poison (s : State) : (recheckTlb s).poison = s.poison := rfl
@[simp] theorem recheckTlb_jig (s : State) : (recheckTlb s).jig = s.jig := rfl
@[simp] theorem recheckTlb_cache (s : State) : (recheckTlb s).cache = s.cache := rfl
@[simp] theorem recheckTlb_dram (s : State) : (recheckTlb s).dram = s.dram := rfl
@[simp] theorem recheckTlb_kv (s : State) : (recheckTlb s).kv = s.kv := rfl
@[simp] theorem recheckTlb_mit (s : State) : (recheckTlb s).mit = s.mit := rfl
@[simp] theorem recheckTlb_fab (s : State) : (recheckTlb s).fab = s.fab := rfl
@[simp] theorem recheckTlb_pen (s : State) : (recheckTlb s).pen = s.pen := rfl
@[simp] theorem recheckTlb_clk (s : State) : (recheckTlb s).clk = s.clk := rfl
@[simp] theorem recheckTlb_med (s : State) : (recheckTlb s).med = s.med := rfl
@[simp] theorem recheckTlb_hal (s : State) : (recheckTlb s).hal = s.hal := rfl
@[simp] theorem recheckTlb_pwr (s : State) : (recheckTlb s).pwr = s.pwr := rfl
@[simp] theorem recheckTlb_tap (s : State) : (recheckTlb s).tap = s.tap := rfl
@[simp] theorem recheckTlb_retention (s : State) : (recheckTlb s).retention = s.retention := rfl
@[simp] theorem recheckTlb_spareMap (s : State) : (recheckTlb s).spareMap = s.spareMap := rfl
@[simp] theorem recheckTlb_retiredBench (s : State) : (recheckTlb s).retiredBench = s.retiredBench := rfl
@[simp] theorem recheckTlb_takingOver (s : State) : (recheckTlb s).takingOver = s.takingOver := rfl
@[simp] theorem recheckTlb_takeovers (s : State) : (recheckTlb s).takeovers = s.takeovers := rfl
@[simp] theorem recheckTlb_sent (s : State) : (recheckTlb s).sent = s.sent := rfl
@[simp] theorem recheckTlb_freeCtr (s : State) : (recheckTlb s).freeCtr = s.freeCtr := rfl
@[simp] theorem recheckTlb_mmu_inval (s : State) : (recheckTlb s).mmu.inval = s.mmu.inval := rfl
@[simp] theorem recheckTlb_mmu_keys (s : State) : (recheckTlb s).mmu.keys = s.mmu.keys := rfl
@[simp] theorem recheckTlb_mmu_assigned (s : State) : (recheckTlb s).mmu.assigned = s.mmu.assigned := rfl
@[simp] theorem recheckTlb_mmu_tslice (s : State) : (recheckTlb s).mmu.tslice = s.mmu.tslice := rfl
@[simp] theorem recheckTlb_mmu_saved (s : State) : (recheckTlb s).mmu.saved = s.mmu.saved := rfl
@[simp] theorem recheckTlb_mmu_scrubs (s : State) : (recheckTlb s).mmu.scrubs = s.mmu.scrubs := rfl
@[simp] theorem recheckTlb_mmu_nextScrub (s : State) : (recheckTlb s).mmu.nextScrub = s.mmu.nextScrub := rfl

/-! `dropTlb`. -/

@[simp] theorem dropTlb_pending (s : State) (part : Nat) : (dropTlb s part).pending = s.pending := rfl
@[simp] theorem dropTlb_time (s : State) (part : Nat) : (dropTlb s part).time = s.time := rfl
@[simp] theorem dropTlb_regs (s : State) (part : Nat) : (dropTlb s part).regs = s.regs := rfl
@[simp] theorem dropTlb_mem (s : State) (part : Nat) : (dropTlb s part).mem = s.mem := rfl
@[simp] theorem dropTlb_poison (s : State) (part : Nat) : (dropTlb s part).poison = s.poison := rfl
@[simp] theorem dropTlb_jig (s : State) (part : Nat) : (dropTlb s part).jig = s.jig := rfl
@[simp] theorem dropTlb_cache (s : State) (part : Nat) : (dropTlb s part).cache = s.cache := rfl
@[simp] theorem dropTlb_dram (s : State) (part : Nat) : (dropTlb s part).dram = s.dram := rfl
@[simp] theorem dropTlb_kv (s : State) (part : Nat) : (dropTlb s part).kv = s.kv := rfl
@[simp] theorem dropTlb_mit (s : State) (part : Nat) : (dropTlb s part).mit = s.mit := rfl
@[simp] theorem dropTlb_fab (s : State) (part : Nat) : (dropTlb s part).fab = s.fab := rfl
@[simp] theorem dropTlb_pen (s : State) (part : Nat) : (dropTlb s part).pen = s.pen := rfl
@[simp] theorem dropTlb_clk (s : State) (part : Nat) : (dropTlb s part).clk = s.clk := rfl
@[simp] theorem dropTlb_med (s : State) (part : Nat) : (dropTlb s part).med = s.med := rfl
@[simp] theorem dropTlb_hal (s : State) (part : Nat) : (dropTlb s part).hal = s.hal := rfl
@[simp] theorem dropTlb_pwr (s : State) (part : Nat) : (dropTlb s part).pwr = s.pwr := rfl
@[simp] theorem dropTlb_tap (s : State) (part : Nat) : (dropTlb s part).tap = s.tap := rfl
@[simp] theorem dropTlb_retention (s : State) (part : Nat) : (dropTlb s part).retention = s.retention := rfl
@[simp] theorem dropTlb_spareMap (s : State) (part : Nat) : (dropTlb s part).spareMap = s.spareMap := rfl
@[simp] theorem dropTlb_retiredBench (s : State) (part : Nat) : (dropTlb s part).retiredBench = s.retiredBench := rfl
@[simp] theorem dropTlb_takingOver (s : State) (part : Nat) : (dropTlb s part).takingOver = s.takingOver := rfl
@[simp] theorem dropTlb_takeovers (s : State) (part : Nat) : (dropTlb s part).takeovers = s.takeovers := rfl
@[simp] theorem dropTlb_sent (s : State) (part : Nat) : (dropTlb s part).sent = s.sent := rfl
@[simp] theorem dropTlb_freeCtr (s : State) (part : Nat) : (dropTlb s part).freeCtr = s.freeCtr := rfl
@[simp] theorem dropTlb_mmu_inval (s : State) (part : Nat) : (dropTlb s part).mmu.inval = s.mmu.inval := rfl
@[simp] theorem dropTlb_mmu_keys (s : State) (part : Nat) : (dropTlb s part).mmu.keys = s.mmu.keys := rfl
@[simp] theorem dropTlb_mmu_assigned (s : State) (part : Nat) : (dropTlb s part).mmu.assigned = s.mmu.assigned := rfl
@[simp] theorem dropTlb_mmu_tslice (s : State) (part : Nat) : (dropTlb s part).mmu.tslice = s.mmu.tslice := rfl
@[simp] theorem dropTlb_mmu_saved (s : State) (part : Nat) : (dropTlb s part).mmu.saved = s.mmu.saved := rfl
@[simp] theorem dropTlb_mmu_scrubs (s : State) (part : Nat) : (dropTlb s part).mmu.scrubs = s.mmu.scrubs := rfl
@[simp] theorem dropTlb_mmu_nextScrub (s : State) (part : Nat) : (dropTlb s part).mmu.nextScrub = s.mmu.nextScrub := rfl

/-! `dropHeld`. -/

@[simp] theorem dropHeld_pending (s : State) (p b : Nat) : (dropHeld s p b).pending = s.pending := rfl
@[simp] theorem dropHeld_time (s : State) (p b : Nat) : (dropHeld s p b).time = s.time := rfl
@[simp] theorem dropHeld_mem (s : State) (p b : Nat) : (dropHeld s p b).mem = s.mem := rfl
@[simp] theorem dropHeld_poison (s : State) (p b : Nat) : (dropHeld s p b).poison = s.poison := rfl
@[simp] theorem dropHeld_jig (s : State) (p b : Nat) : (dropHeld s p b).jig = s.jig := rfl
@[simp] theorem dropHeld_cache (s : State) (p b : Nat) : (dropHeld s p b).cache = s.cache := rfl
@[simp] theorem dropHeld_dram (s : State) (p b : Nat) : (dropHeld s p b).dram = s.dram := rfl
@[simp] theorem dropHeld_kv (s : State) (p b : Nat) : (dropHeld s p b).kv = s.kv := rfl
@[simp] theorem dropHeld_mmu (s : State) (p b : Nat) : (dropHeld s p b).mmu = s.mmu := rfl
@[simp] theorem dropHeld_mit (s : State) (p b : Nat) : (dropHeld s p b).mit = s.mit := rfl
@[simp] theorem dropHeld_fab (s : State) (p b : Nat) : (dropHeld s p b).fab = s.fab := rfl
@[simp] theorem dropHeld_pen (s : State) (p b : Nat) : (dropHeld s p b).pen = s.pen := rfl
@[simp] theorem dropHeld_clk (s : State) (p b : Nat) : (dropHeld s p b).clk = s.clk := rfl
@[simp] theorem dropHeld_med (s : State) (p b : Nat) : (dropHeld s p b).med = s.med := rfl
@[simp] theorem dropHeld_hal (s : State) (p b : Nat) : (dropHeld s p b).hal = s.hal := rfl
@[simp] theorem dropHeld_pwr (s : State) (p b : Nat) : (dropHeld s p b).pwr = s.pwr := rfl
@[simp] theorem dropHeld_tap (s : State) (p b : Nat) : (dropHeld s p b).tap = s.tap := rfl
@[simp] theorem dropHeld_spareMap (s : State) (p b : Nat) : (dropHeld s p b).spareMap = s.spareMap := rfl
@[simp] theorem dropHeld_retiredBench (s : State) (p b : Nat) : (dropHeld s p b).retiredBench = s.retiredBench := rfl
@[simp] theorem dropHeld_takingOver (s : State) (p b : Nat) : (dropHeld s p b).takingOver = s.takingOver := rfl
@[simp] theorem dropHeld_takeovers (s : State) (p b : Nat) : (dropHeld s p b).takeovers = s.takeovers := rfl
@[simp] theorem dropHeld_sent (s : State) (p b : Nat) : (dropHeld s p b).sent = s.sent := rfl
@[simp] theorem dropHeld_freeCtr (s : State) (p b : Nat) : (dropHeld s p b).freeCtr = s.freeCtr := rfl

/-! `scrubRange`. -/

@[simp] theorem scrubRange_pending (s : State) (a n : Nat) : (scrubRange s a n).pending = s.pending := rfl
@[simp] theorem scrubRange_time (s : State) (a n : Nat) : (scrubRange s a n).time = s.time := rfl
@[simp] theorem scrubRange_regs (s : State) (a n : Nat) : (scrubRange s a n).regs = s.regs := rfl
@[simp] theorem scrubRange_jig (s : State) (a n : Nat) : (scrubRange s a n).jig = s.jig := rfl
@[simp] theorem scrubRange_cache (s : State) (a n : Nat) : (scrubRange s a n).cache = s.cache := rfl
@[simp] theorem scrubRange_kv (s : State) (a n : Nat) : (scrubRange s a n).kv = s.kv := rfl
@[simp] theorem scrubRange_mmu (s : State) (a n : Nat) : (scrubRange s a n).mmu = s.mmu := rfl
@[simp] theorem scrubRange_mit (s : State) (a n : Nat) : (scrubRange s a n).mit = s.mit := rfl
@[simp] theorem scrubRange_fab (s : State) (a n : Nat) : (scrubRange s a n).fab = s.fab := rfl
@[simp] theorem scrubRange_pen (s : State) (a n : Nat) : (scrubRange s a n).pen = s.pen := rfl
@[simp] theorem scrubRange_clk (s : State) (a n : Nat) : (scrubRange s a n).clk = s.clk := rfl
@[simp] theorem scrubRange_med (s : State) (a n : Nat) : (scrubRange s a n).med = s.med := rfl
@[simp] theorem scrubRange_hal (s : State) (a n : Nat) : (scrubRange s a n).hal = s.hal := rfl
@[simp] theorem scrubRange_pwr (s : State) (a n : Nat) : (scrubRange s a n).pwr = s.pwr := rfl
@[simp] theorem scrubRange_tap (s : State) (a n : Nat) : (scrubRange s a n).tap = s.tap := rfl
@[simp] theorem scrubRange_retention (s : State) (a n : Nat) : (scrubRange s a n).retention = s.retention := rfl
@[simp] theorem scrubRange_spareMap (s : State) (a n : Nat) : (scrubRange s a n).spareMap = s.spareMap := rfl
@[simp] theorem scrubRange_retiredBench (s : State) (a n : Nat) : (scrubRange s a n).retiredBench = s.retiredBench := rfl
@[simp] theorem scrubRange_takingOver (s : State) (a n : Nat) : (scrubRange s a n).takingOver = s.takingOver := rfl
@[simp] theorem scrubRange_takeovers (s : State) (a n : Nat) : (scrubRange s a n).takeovers = s.takeovers := rfl
@[simp] theorem scrubRange_sent (s : State) (a n : Nat) : (scrubRange s a n).sent = s.sent := rfl
@[simp] theorem scrubRange_freeCtr (s : State) (a n : Nat) : (scrubRange s a n).freeCtr = s.freeCtr := rfl
@[simp] theorem scrubRange_dram_held (s : State) (a n : Nat) : (scrubRange s a n).dram.held = s.dram.held := rfl
@[simp] theorem scrubRange_dram_masks (s : State) (a n : Nat) : (scrubRange s a n).dram.masks = s.dram.masks := rfl
@[simp] theorem scrubRange_dram_lendDraw (s : State) (a n : Nat) : (scrubRange s a n).dram.lendDraw = s.dram.lendDraw := rfl
@[simp] theorem scrubRange_dram_hot (s : State) (a n : Nat) : (scrubRange s a n).dram.hot = s.dram.hot := rfl
@[simp] theorem scrubRange_dram_refreshes (s : State) (a n : Nat) : (scrubRange s a n).dram.refreshes = s.dram.refreshes := rfl
@[simp] theorem scrubRange_dram_retired (s : State) (a n : Nat) : (scrubRange s a n).dram.retired = s.dram.retired := rfl
@[simp] theorem scrubRange_dram_fenced (s : State) (a n : Nat) : (scrubRange s a n).dram.fenced = s.dram.fenced := rfl
@[simp] theorem scrubRange_dram_healed (s : State) (a n : Nat) : (scrubRange s a n).dram.healed = s.dram.healed := rfl
@[simp] theorem scrubRange_dram_poolLow (s : State) (a n : Nat) : (scrubRange s a n).dram.poolLow = s.dram.poolLow := rfl
@[simp] theorem scrubRange_dram_ues (s : State) (a n : Nat) : (scrubRange s a n).dram.ues = s.dram.ues := rfl
@[simp] theorem scrubRange_dram_corrs (s : State) (a n : Nat) : (scrubRange s a n).dram.corrs = s.dram.corrs := rfl
@[simp] theorem scrubRange_dram_acts (s : State) (a n : Nat) : (scrubRange s a n).dram.acts = s.dram.acts := rfl

/-! `endSession`. -/

@[simp] theorem endSession_pending (s : State) : (endSession s).pending = s.pending := rfl
@[simp] theorem endSession_time (s : State) : (endSession s).time = s.time := rfl
@[simp] theorem endSession_regs (s : State) : (endSession s).regs = s.regs := rfl
@[simp] theorem endSession_mem (s : State) : (endSession s).mem = s.mem := rfl
@[simp] theorem endSession_poison (s : State) : (endSession s).poison = s.poison := rfl
@[simp] theorem endSession_jig (s : State) : (endSession s).jig = s.jig := rfl
@[simp] theorem endSession_cache (s : State) : (endSession s).cache = s.cache := rfl
@[simp] theorem endSession_dram (s : State) : (endSession s).dram = s.dram := rfl
@[simp] theorem endSession_kv (s : State) : (endSession s).kv = s.kv := rfl
@[simp] theorem endSession_mmu (s : State) : (endSession s).mmu = s.mmu := rfl
@[simp] theorem endSession_mit (s : State) : (endSession s).mit = s.mit := rfl
@[simp] theorem endSession_pen (s : State) : (endSession s).pen = s.pen := rfl
@[simp] theorem endSession_clk (s : State) : (endSession s).clk = s.clk := rfl
@[simp] theorem endSession_med (s : State) : (endSession s).med = s.med := rfl
@[simp] theorem endSession_pwr (s : State) : (endSession s).pwr = s.pwr := rfl
@[simp] theorem endSession_tap (s : State) : (endSession s).tap = s.tap := rfl
@[simp] theorem endSession_retention (s : State) : (endSession s).retention = s.retention := rfl
@[simp] theorem endSession_spareMap (s : State) : (endSession s).spareMap = s.spareMap := rfl
@[simp] theorem endSession_retiredBench (s : State) : (endSession s).retiredBench = s.retiredBench := rfl
@[simp] theorem endSession_takingOver (s : State) : (endSession s).takingOver = s.takingOver := rfl
@[simp] theorem endSession_takeovers (s : State) : (endSession s).takeovers = s.takeovers := rfl
@[simp] theorem endSession_sent (s : State) : (endSession s).sent = s.sent := rfl
@[simp] theorem endSession_freeCtr (s : State) : (endSession s).freeCtr = s.freeCtr := rfl
@[simp] theorem endSession_hal_mirror (s : State) : (endSession s).hal.mirror = s.hal.mirror := rfl
@[simp] theorem endSession_hal_copying (s : State) : (endSession s).hal.copying = s.hal.copying := rfl
@[simp] theorem endSession_hal_epoch (s : State) : (endSession s).hal.epoch = s.hal.epoch := rfl
@[simp] theorem endSession_hal_acked (s : State) : (endSession s).hal.acked = s.hal.acked := rfl
@[simp] theorem endSession_hal_held (s : State) : (endSession s).hal.held = s.hal.held := rfl
@[simp] theorem endSession_hal_active (s : State) : (endSession s).hal.active = s.hal.active := rfl
@[simp] theorem endSession_hal_outA (s : State) : (endSession s).hal.outA = s.hal.outA := rfl
@[simp] theorem endSession_hal_outB (s : State) : (endSession s).hal.outB = s.hal.outB := rfl
@[simp] theorem endSession_hal_faults (s : State) : (endSession s).hal.faults = s.hal.faults := rfl
@[simp] theorem endSession_hal_faultSeq (s : State) : (endSession s).hal.faultSeq = s.hal.faultSeq := rfl
@[simp] theorem endSession_hal_serviceSeq (s : State) : (endSession s).hal.serviceSeq = s.hal.serviceSeq := rfl
@[simp] theorem endSession_hal_ackSeq (s : State) : (endSession s).hal.ackSeq = s.hal.ackSeq := rfl
@[simp] theorem endSession_hal_mailbox (s : State) : (endSession s).hal.mailbox = s.hal.mailbox := rfl
@[simp] theorem endSession_hal_telem (s : State) : (endSession s).hal.telem = s.hal.telem := rfl
@[simp] theorem endSession_hal_buckets (s : State) : (endSession s).hal.buckets = s.hal.buckets := rfl
@[simp] theorem endSession_hal_flash (s : State) : (endSession s).hal.flash = s.hal.flash := rfl
@[simp] theorem endSession_hal_savedCal (s : State) : (endSession s).hal.savedCal = s.hal.savedCal := rfl
@[simp] theorem endSession_hal_linksDown (s : State) : (endSession s).hal.linksDown = s.hal.linksDown := rfl
@[simp] theorem endSession_hal_mgmt_dict (s : State) : (endSession s).hal.mgmt.dict = s.hal.mgmt.dict := rfl
@[simp] theorem endSession_hal_mgmt_kept (s : State) : (endSession s).hal.mgmt.kept = s.hal.mgmt.kept := rfl
@[simp] theorem endSession_fab_ports (s : State) : (endSession s).fab.ports = s.fab.ports := rfl
@[simp] theorem endSession_fab_nextTag (s : State) : (endSession s).fab.nextTag = s.fab.nextTag := rfl
@[simp] theorem endSession_fab_requests (s : State) : (endSession s).fab.requests = s.fab.requests := rfl
@[simp] theorem endSession_fab_served (s : State) : (endSession s).fab.served = s.fab.served := rfl
@[simp] theorem endSession_fab_active (s : State) : (endSession s).fab.active = s.fab.active := rfl
@[simp] theorem endSession_fab_copying (s : State) : (endSession s).fab.copying = s.fab.copying := rfl
@[simp] theorem endSession_fab_sched (s : State) : (endSession s).fab.sched = s.fab.sched := rfl
@[simp] theorem endSession_fab_plan (s : State) : (endSession s).fab.plan = s.fab.plan := rfl
@[simp] theorem endSession_fab_enterAt (s : State) : (endSession s).fab.enterAt = s.fab.enterAt := rfl
@[simp] theorem endSession_fab_slotAt (s : State) : (endSession s).fab.slotAt = s.fab.slotAt := rfl
@[simp] theorem endSession_fab_leases (s : State) : (endSession s).fab.leases = s.fab.leases := rfl
@[simp] theorem endSession_fab_leaseIds (s : State) : (endSession s).fab.leaseIds = s.fab.leaseIds := rfl
@[simp] theorem endSession_fab_flows (s : State) : (endSession s).fab.flows = s.fab.flows := rfl
@[simp] theorem endSession_fab_reseq (s : State) : (endSession s).fab.reseq = s.fab.reseq := rfl
@[simp] theorem endSession_fab_backlog (s : State) : (endSession s).fab.backlog = s.fab.backlog := rfl
@[simp] theorem endSession_fab_txFlows (s : State) : (endSession s).fab.txFlows = s.fab.txFlows := rfl
@[simp] theorem endSession_fab_jobs (s : State) : (endSession s).fab.jobs = s.fab.jobs := rfl
@[simp] theorem endSession_fab_nextJob (s : State) : (endSession s).fab.nextJob = s.fab.nextJob := rfl
@[simp] theorem endSession_fab_arrived (s : State) : (endSession s).fab.arrived = s.fab.arrived := rfl
@[simp] theorem endSession_fab_asks (s : State) : (endSession s).fab.asks = s.fab.asks := rfl

/-! `closeBypass`. -/

@[simp] theorem closeBypass_pending (s : State) : (closeBypass s).pending = s.pending := rfl
@[simp] theorem closeBypass_time (s : State) : (closeBypass s).time = s.time := rfl
@[simp] theorem closeBypass_regs (s : State) : (closeBypass s).regs = s.regs := rfl
@[simp] theorem closeBypass_mem (s : State) : (closeBypass s).mem = s.mem := rfl
@[simp] theorem closeBypass_poison (s : State) : (closeBypass s).poison = s.poison := rfl
@[simp] theorem closeBypass_jig (s : State) : (closeBypass s).jig = s.jig := rfl
@[simp] theorem closeBypass_cache (s : State) : (closeBypass s).cache = s.cache := rfl
@[simp] theorem closeBypass_dram (s : State) : (closeBypass s).dram = s.dram := rfl
@[simp] theorem closeBypass_kv (s : State) : (closeBypass s).kv = s.kv := rfl
@[simp] theorem closeBypass_mmu (s : State) : (closeBypass s).mmu = s.mmu := rfl
@[simp] theorem closeBypass_mit (s : State) : (closeBypass s).mit = s.mit := rfl
@[simp] theorem closeBypass_fab (s : State) : (closeBypass s).fab = s.fab := rfl
@[simp] theorem closeBypass_clk (s : State) : (closeBypass s).clk = s.clk := rfl
@[simp] theorem closeBypass_med (s : State) : (closeBypass s).med = s.med := rfl
@[simp] theorem closeBypass_hal (s : State) : (closeBypass s).hal = s.hal := rfl
@[simp] theorem closeBypass_pwr (s : State) : (closeBypass s).pwr = s.pwr := rfl
@[simp] theorem closeBypass_tap (s : State) : (closeBypass s).tap = s.tap := rfl
@[simp] theorem closeBypass_retention (s : State) : (closeBypass s).retention = s.retention := rfl
@[simp] theorem closeBypass_spareMap (s : State) : (closeBypass s).spareMap = s.spareMap := rfl
@[simp] theorem closeBypass_retiredBench (s : State) : (closeBypass s).retiredBench = s.retiredBench := rfl
@[simp] theorem closeBypass_takingOver (s : State) : (closeBypass s).takingOver = s.takingOver := rfl
@[simp] theorem closeBypass_takeovers (s : State) : (closeBypass s).takeovers = s.takeovers := rfl
@[simp] theorem closeBypass_sent (s : State) : (closeBypass s).sent = s.sent := rfl
@[simp] theorem closeBypass_freeCtr (s : State) : (closeBypass s).freeCtr = s.freeCtr := rfl
@[simp] theorem closeBypass_pen_delay (s : State) : (closeBypass s).pen.delay = s.pen.delay := rfl
@[simp] theorem closeBypass_pen_ringSize (s : State) : (closeBypass s).pen.ringSize = s.pen.ringSize := rfl
@[simp] theorem closeBypass_pen_timed (s : State) : (closeBypass s).pen.timed = s.pen.timed := rfl
@[simp] theorem closeBypass_pen_slewTicks (s : State) : (closeBypass s).pen.slewTicks = s.pen.slewTicks := rfl
@[simp] theorem closeBypass_pen_offsets (s : State) : (closeBypass s).pen.offsets = s.pen.offsets := rfl
@[simp] theorem closeBypass_pen_lastTime (s : State) : (closeBypass s).pen.lastTime = s.pen.lastTime := rfl
@[simp] theorem closeBypass_pen_settle (s : State) : (closeBypass s).pen.settle = s.pen.settle := rfl
@[simp] theorem closeBypass_pen_locked (s : State) : (closeBypass s).pen.locked = s.pen.locked := rfl

/-! `dropContextState`. -/

@[simp] theorem dropContextState_pending (s : State) (mine : RegAddr → Bool) : (dropContextState s mine).pending = s.pending := rfl
@[simp] theorem dropContextState_time (s : State) (mine : RegAddr → Bool) : (dropContextState s mine).time = s.time := rfl
@[simp] theorem dropContextState_regs (s : State) (mine : RegAddr → Bool) : (dropContextState s mine).regs = s.regs := rfl
@[simp] theorem dropContextState_mem (s : State) (mine : RegAddr → Bool) : (dropContextState s mine).mem = s.mem := rfl
@[simp] theorem dropContextState_poison (s : State) (mine : RegAddr → Bool) : (dropContextState s mine).poison = s.poison := rfl
@[simp] theorem dropContextState_dram (s : State) (mine : RegAddr → Bool) : (dropContextState s mine).dram = s.dram := rfl
@[simp] theorem dropContextState_mmu (s : State) (mine : RegAddr → Bool) : (dropContextState s mine).mmu = s.mmu := rfl
@[simp] theorem dropContextState_fab (s : State) (mine : RegAddr → Bool) : (dropContextState s mine).fab = s.fab := rfl
@[simp] theorem dropContextState_pen (s : State) (mine : RegAddr → Bool) : (dropContextState s mine).pen = s.pen := rfl
@[simp] theorem dropContextState_clk (s : State) (mine : RegAddr → Bool) : (dropContextState s mine).clk = s.clk := rfl
@[simp] theorem dropContextState_hal (s : State) (mine : RegAddr → Bool) : (dropContextState s mine).hal = s.hal := rfl
@[simp] theorem dropContextState_pwr (s : State) (mine : RegAddr → Bool) : (dropContextState s mine).pwr = s.pwr := rfl
@[simp] theorem dropContextState_tap (s : State) (mine : RegAddr → Bool) : (dropContextState s mine).tap = s.tap := rfl
@[simp] theorem dropContextState_retention (s : State) (mine : RegAddr → Bool) :
    (dropContextState s mine).retention = s.retention := rfl
@[simp] theorem dropContextState_spareMap (s : State) (mine : RegAddr → Bool) : (dropContextState s mine).spareMap = s.spareMap := rfl
@[simp] theorem dropContextState_retiredBench (s : State) (mine : RegAddr → Bool) :
    (dropContextState s mine).retiredBench = s.retiredBench := rfl
@[simp] theorem dropContextState_takingOver (s : State) (mine : RegAddr → Bool) :
    (dropContextState s mine).takingOver = s.takingOver := rfl
@[simp] theorem dropContextState_takeovers (s : State) (mine : RegAddr → Bool) :
    (dropContextState s mine).takeovers = s.takeovers := rfl
@[simp] theorem dropContextState_sent (s : State) (mine : RegAddr → Bool) : (dropContextState s mine).sent = s.sent := rfl
@[simp] theorem dropContextState_freeCtr (s : State) (mine : RegAddr → Bool) : (dropContextState s mine).freeCtr = s.freeCtr := rfl

/-! `drainWrites`. -/

@[simp] theorem drainWrites_pending (ch : DramChan) (s : State) : (drainWrites ch s).pending = s.pending := rfl
@[simp] theorem drainWrites_time (ch : DramChan) (s : State) : (drainWrites ch s).time = s.time := rfl
@[simp] theorem drainWrites_regs (ch : DramChan) (s : State) : (drainWrites ch s).regs = s.regs := rfl
@[simp] theorem drainWrites_mem (ch : DramChan) (s : State) : (drainWrites ch s).mem = s.mem := rfl
@[simp] theorem drainWrites_poison (ch : DramChan) (s : State) : (drainWrites ch s).poison = s.poison := rfl
@[simp] theorem drainWrites_jig (ch : DramChan) (s : State) : (drainWrites ch s).jig = s.jig := rfl
@[simp] theorem drainWrites_cache (ch : DramChan) (s : State) : (drainWrites ch s).cache = s.cache := rfl
@[simp] theorem drainWrites_kv (ch : DramChan) (s : State) : (drainWrites ch s).kv = s.kv := rfl
@[simp] theorem drainWrites_mmu (ch : DramChan) (s : State) : (drainWrites ch s).mmu = s.mmu := rfl
@[simp] theorem drainWrites_mit (ch : DramChan) (s : State) : (drainWrites ch s).mit = s.mit := rfl
@[simp] theorem drainWrites_fab (ch : DramChan) (s : State) : (drainWrites ch s).fab = s.fab := rfl
@[simp] theorem drainWrites_pen (ch : DramChan) (s : State) : (drainWrites ch s).pen = s.pen := rfl
@[simp] theorem drainWrites_clk (ch : DramChan) (s : State) : (drainWrites ch s).clk = s.clk := rfl
@[simp] theorem drainWrites_med (ch : DramChan) (s : State) : (drainWrites ch s).med = s.med := rfl
@[simp] theorem drainWrites_hal (ch : DramChan) (s : State) : (drainWrites ch s).hal = s.hal := rfl
@[simp] theorem drainWrites_pwr (ch : DramChan) (s : State) : (drainWrites ch s).pwr = s.pwr := rfl
@[simp] theorem drainWrites_tap (ch : DramChan) (s : State) : (drainWrites ch s).tap = s.tap := rfl
@[simp] theorem drainWrites_retention (ch : DramChan) (s : State) : (drainWrites ch s).retention = s.retention := rfl
@[simp] theorem drainWrites_spareMap (ch : DramChan) (s : State) : (drainWrites ch s).spareMap = s.spareMap := rfl
@[simp] theorem drainWrites_retiredBench (ch : DramChan) (s : State) : (drainWrites ch s).retiredBench = s.retiredBench := rfl
@[simp] theorem drainWrites_takingOver (ch : DramChan) (s : State) : (drainWrites ch s).takingOver = s.takingOver := rfl
@[simp] theorem drainWrites_takeovers (ch : DramChan) (s : State) : (drainWrites ch s).takeovers = s.takeovers := rfl
@[simp] theorem drainWrites_sent (ch : DramChan) (s : State) : (drainWrites ch s).sent = s.sent := rfl
@[simp] theorem drainWrites_freeCtr (ch : DramChan) (s : State) : (drainWrites ch s).freeCtr = s.freeCtr := rfl
@[simp] theorem drainWrites_dram_masks (ch : DramChan) (s : State) : (drainWrites ch s).dram.masks = s.dram.masks := rfl
@[simp] theorem drainWrites_dram_lendDraw (ch : DramChan) (s : State) : (drainWrites ch s).dram.lendDraw = s.dram.lendDraw := rfl
@[simp] theorem drainWrites_dram_hot (ch : DramChan) (s : State) : (drainWrites ch s).dram.hot = s.dram.hot := rfl
@[simp] theorem drainWrites_dram_refreshes (ch : DramChan) (s : State) : (drainWrites ch s).dram.refreshes = s.dram.refreshes := rfl
@[simp] theorem drainWrites_dram_retired (ch : DramChan) (s : State) : (drainWrites ch s).dram.retired = s.dram.retired := rfl
@[simp] theorem drainWrites_dram_fenced (ch : DramChan) (s : State) : (drainWrites ch s).dram.fenced = s.dram.fenced := rfl
@[simp] theorem drainWrites_dram_healed (ch : DramChan) (s : State) : (drainWrites ch s).dram.healed = s.dram.healed := rfl
@[simp] theorem drainWrites_dram_poolLow (ch : DramChan) (s : State) : (drainWrites ch s).dram.poolLow = s.dram.poolLow := rfl
@[simp] theorem drainWrites_dram_ues (ch : DramChan) (s : State) : (drainWrites ch s).dram.ues = s.dram.ues := rfl
@[simp] theorem drainWrites_dram_corrs (ch : DramChan) (s : State) : (drainWrites ch s).dram.corrs = s.dram.corrs := rfl
@[simp] theorem drainWrites_dram_acts (ch : DramChan) (s : State) : (drainWrites ch s).dram.acts = s.dram.acts := rfl

/-! `drainAll`. -/

@[simp] theorem drainAll_pending (s : State) : (drainAll s).pending = s.pending := rfl
@[simp] theorem drainAll_time (s : State) : (drainAll s).time = s.time := rfl
@[simp] theorem drainAll_regs (s : State) : (drainAll s).regs = s.regs := rfl
@[simp] theorem drainAll_mem (s : State) : (drainAll s).mem = s.mem := rfl
@[simp] theorem drainAll_poison (s : State) : (drainAll s).poison = s.poison := rfl
@[simp] theorem drainAll_jig (s : State) : (drainAll s).jig = s.jig := rfl
@[simp] theorem drainAll_cache (s : State) : (drainAll s).cache = s.cache := rfl
@[simp] theorem drainAll_kv (s : State) : (drainAll s).kv = s.kv := rfl
@[simp] theorem drainAll_mmu (s : State) : (drainAll s).mmu = s.mmu := rfl
@[simp] theorem drainAll_mit (s : State) : (drainAll s).mit = s.mit := rfl
@[simp] theorem drainAll_fab (s : State) : (drainAll s).fab = s.fab := rfl
@[simp] theorem drainAll_pen (s : State) : (drainAll s).pen = s.pen := rfl
@[simp] theorem drainAll_clk (s : State) : (drainAll s).clk = s.clk := rfl
@[simp] theorem drainAll_med (s : State) : (drainAll s).med = s.med := rfl
@[simp] theorem drainAll_hal (s : State) : (drainAll s).hal = s.hal := rfl
@[simp] theorem drainAll_pwr (s : State) : (drainAll s).pwr = s.pwr := rfl
@[simp] theorem drainAll_tap (s : State) : (drainAll s).tap = s.tap := rfl
@[simp] theorem drainAll_retention (s : State) : (drainAll s).retention = s.retention := rfl
@[simp] theorem drainAll_spareMap (s : State) : (drainAll s).spareMap = s.spareMap := rfl
@[simp] theorem drainAll_retiredBench (s : State) : (drainAll s).retiredBench = s.retiredBench := rfl
@[simp] theorem drainAll_takingOver (s : State) : (drainAll s).takingOver = s.takingOver := rfl
@[simp] theorem drainAll_takeovers (s : State) : (drainAll s).takeovers = s.takeovers := rfl
@[simp] theorem drainAll_sent (s : State) : (drainAll s).sent = s.sent := rfl
@[simp] theorem drainAll_freeCtr (s : State) : (drainAll s).freeCtr = s.freeCtr := rfl
@[simp] theorem drainAll_dram_masks (s : State) : (drainAll s).dram.masks = s.dram.masks := rfl
@[simp] theorem drainAll_dram_lendDraw (s : State) : (drainAll s).dram.lendDraw = s.dram.lendDraw := rfl
@[simp] theorem drainAll_dram_hot (s : State) : (drainAll s).dram.hot = s.dram.hot := rfl
@[simp] theorem drainAll_dram_refreshes (s : State) : (drainAll s).dram.refreshes = s.dram.refreshes := rfl
@[simp] theorem drainAll_dram_retired (s : State) : (drainAll s).dram.retired = s.dram.retired := rfl
@[simp] theorem drainAll_dram_fenced (s : State) : (drainAll s).dram.fenced = s.dram.fenced := rfl
@[simp] theorem drainAll_dram_healed (s : State) : (drainAll s).dram.healed = s.dram.healed := rfl
@[simp] theorem drainAll_dram_poolLow (s : State) : (drainAll s).dram.poolLow = s.dram.poolLow := rfl
@[simp] theorem drainAll_dram_ues (s : State) : (drainAll s).dram.ues = s.dram.ues := rfl
@[simp] theorem drainAll_dram_corrs (s : State) : (drainAll s).dram.corrs = s.dram.corrs := rfl
@[simp] theorem drainAll_dram_acts (s : State) : (drainAll s).dram.acts = s.dram.acts := rfl

end Sys2Proof.Laws
end

