-- ==== Sys2Proof/Laws/Updates.lean ====
section
/-!
SUPPORT. What the named updates do: a value put under a key is the value read there, and every other key keeps its own. Registers
(00_scope.md R8 to R14), objects (19_dictionary.md R518), MIs in flight (05_macro_instructions.md R129), leases, keys, ports, and the
step of the block.
-/
namespace Sys2Proof.Laws

open Sys2Proof.Machine

/-! Lists. -/

/-- What is put is found. -/
theorem find_upsert_same {α : Type} (p : α → Bool) (a : α) (h : p a = true) (l : List α) :
    (upsert p a l).find? p = some a := by
  induction l with
  | nil => simp [upsert, h]
  | cons x l ih =>
    unfold upsert
    split
    · simp [h]
    · rename_i hx
      rw [List.find?_cons_of_neg hx, ih]

/-- What no put element meets is found as before. -/
theorem find_upsert_other {α : Type} (p q : α → Bool) (a : α) (ha : q a = false) (h : ∀ x, p x = true → q x = false) (l : List α) :
    (upsert p a l).find? q = l.find? q := by
  induction l with
  | nil => simp [upsert, ha]
  | cons x l ih =>
    unfold upsert
    split
    · rename_i hx
      rw [List.find?_cons_of_neg (by simp [ha]), List.find?_cons_of_neg (by simp [h x hx])]
    · rw [List.find?_cons, List.find?_cons, ih]

/-- Elements that a filter keeps are found as before. -/
theorem find_filter_keep {α : Type} (p q : α → Bool) (h : ∀ x, q x = true → p x = true) (l : List α) :
    (l.filter p).find? q = l.find? q := by
  induction l with
  | nil => rfl
  | cons x l ih =>
    rw [List.filter_cons]
    by_cases hq : q x = true
    · rw [if_pos (h x hq), List.find?_cons_of_pos hq, List.find?_cons_of_pos hq]
    · rw [List.find?_cons_of_neg hq]
      split
      · rw [List.find?_cons_of_neg hq, ih]
      · exact ih

/-- Elements that a filter drops are not found. -/
theorem find_filter_drop {α : Type} (p q : α → Bool) (h : ∀ x, q x = true → p x = false) (l : List α) :
    (l.filter p).find? q = none := by
  rw [List.find?_eq_none]
  intro x hx hq
  have := (List.mem_filter.1 hx).2
  rw [h x hq] at this
  exact Bool.noConfusion this

/-! Registers. -/

/-- A register reads as it was put. -/
theorem regStored_regStore_same (s : State) (off v : Nat) : regStored (regStore s off v) off = v % 2 ^ 64 := by
  unfold regStored regStore sortedPut
  simp only []
  rw [List.find?_append, List.find?_append,
    find_filter_drop (fun c : Nat × Reg => decide (c.1 < off)) _ (by intro x hx; simp only [beq_iff_eq] at hx; simp [hx]),
    find_filter_drop (fun c : Nat × Reg => decide (off < c.1)) _ (by intro x hx; simp only [beq_iff_eq] at hx; simp [hx])]
  by_cases h : v % 2 ^ 64 = resetAt off
  · have e : (v % 2 ^ 64 != resetAt off) = false := by rw [h]; exact bne_self_eq_false _
    rw [e]
    exact h.symm
  · have e : (v % 2 ^ 64 != resetAt off) = true := by rw [bne_iff_ne]; exact h
    have q : List.find? (fun c : Nat × Reg => c.1 == off) [(off, BitVec.ofNat 64 v)] = some (off, BitVec.ofNat 64 v) :=
      List.find?_cons_of_pos (BEq.rfl : (off == off) = true)
    rw [e, if_pos rfl, q]
    exact BitVec.toNat_ofNat v 64

/-- Every other register keeps its value. -/
theorem regStored_regStore_other (s : State) (off off' v : Nat) (h : off' ≠ off) :
    regStored (regStore s off v) off' = regStored s off' := by
  have mid : (if (v % 2 ^ 64 != resetAt off) = true then [(off, BitVec.ofNat 64 v)] else [] : List (Nat × Reg)).find?
      (fun c => c.1 == off') = none := by
    split
    · simp [Ne.symm h]
    · rfl
  unfold regStored regStore sortedPut
  simp only []
  rw [List.find?_append, List.find?_append, mid]
  rcases Nat.lt_or_gt_of_ne h with h | h
  · rw [find_filter_keep (fun c : Nat × Reg => decide (c.1 < off)) _ (by intro x hx; simp only [beq_iff_eq] at hx; simp [hx, h]),
      find_filter_drop (fun c : Nat × Reg => decide (off < c.1)) _
        (by intro x hx; simp only [beq_iff_eq] at hx; simp [hx]; omega)]
    simp
  · rw [find_filter_drop (fun c : Nat × Reg => decide (c.1 < off)) _
        (by intro x hx; simp only [beq_iff_eq] at hx; simp [hx]; omega),
      find_filter_keep (fun c : Nat × Reg => decide (off < c.1)) _ (by intro x hx; simp only [beq_iff_eq] at hx; simp [hx, h])]
    simp

theorem rget_rset_same (s : State) (a : RegAddr) (v : Nat) : rget (rset s a v) a = v % 2 ^ 64 :=
  regStored_regStore_same s (regOffset a) v

theorem rget_rset_other (s : State) (a b : RegAddr) (v : Nat) (h : regOffset b ≠ regOffset a) : rget (rset s a v) b = rget s b :=
  regStored_regStore_other s (regOffset a) (regOffset b) v h

theorem rget_rsetField_other (s : State) (a b : RegAddr) (hi lo v : Nat) (h : regOffset b ≠ regOffset a) :
    rget (rsetField s a hi lo v) b = rget s b :=
  rget_rset_other s a b _ h

theorem rget_rbump_other (s : State) (a b : RegAddr) (hi lo n : Nat) (h : regOffset b ≠ regOffset a) :
    rget (rbump s a hi lo n) b = rget s b :=
  rget_rset_other s a b _ h

/-! Objects. -/

@[simp] theorem dget_dset_same (s : State) (o : ObjAddr) (v : List Nat) : dget (dset s o v) o = v := by
  unfold dget dset objIn
  simp only []
  rw [find_upsert_same (fun e : ObjAddr × List Nat => e.1 == o) (o, v) (by simp)]

theorem dget_dset_other (s : State) (o o' : ObjAddr) (v : List Nat) (h : o' ≠ o) : dget (dset s o v) o' = dget s o' := by
  unfold dget dset objIn
  simp only []
  rw [find_upsert_other _ (fun e : ObjAddr × List Nat => e.1 == o') _ (by simpa using fun e => h e.symm)
    (by intro x hx; simp only [beq_iff_eq] at hx; simp [hx]; exact fun e => h e.symm)]

/-! MIs in flight. -/

@[simp] theorem findFlight_putFlight_same (s : State) (f : Flight) : findFlight (putFlight s f) f.mi = some f :=
  find_upsert_same (fun g : Flight => g.mi == f.mi) f (by simp) _

theorem findFlight_putFlight_other (s : State) (f : Flight) (mi : Nat) (h : mi ≠ f.mi) :
    findFlight (putFlight s f) mi = findFlight s mi :=
  find_upsert_other _ (fun g : Flight => g.mi == mi) f (by simpa using h.symm)
    (by intro x hx; simp only [beq_iff_eq] at hx; simp [hx, h.symm]) _

@[simp] theorem findFlight_dropFlight_same (s : State) (mi : Nat) : findFlight (dropFlight s mi) mi = none :=
  find_filter_drop _ _ (by intro x hx; simp only [beq_iff_eq] at hx; simp [hx]) _

theorem findFlight_dropFlight_other (s : State) (mi mi' : Nat) (h : mi' ≠ mi) :
    findFlight (dropFlight s mi) mi' = findFlight s mi' :=
  find_filter_keep _ _ (by intro x hx; simp only [beq_iff_eq] at hx; simp [hx, h]) _

/-- A step of an MI runs where nothing holds its partition back, and else does nothing. -/
theorem whileRunning_cases (mi : Nat) (step : State → State) (s : State) :
    whileRunning mi step s = step s ∨ whileRunning mi step s = s := by
  unfold whileRunning
  split
  · split
    · exact Or.inl rfl
    · exact Or.inr rfl
  · exact Or.inr rfl

/-! Leases and ports. -/

@[simp] theorem findLease_putLease_same (s : State) (l : Lease) : findLease (putLease s l) l.side l.slot = some l :=
  find_upsert_same (fun x : Lease => x.side == l.side && x.slot == l.slot) l (by simp) _

@[simp] theorem findLease_dropLease_same (s : State) (side : LeaseSide) (slot : Nat) :
    findLease (dropLease s side slot) side slot = none :=
  find_filter_drop _ _ (by intro x hx; simp [hx]) _

@[simp] theorem setPort_length (s : State) (p : Nat) (v : Port) : (setPort s p v).fab.ports.length = s.fab.ports.length := by
  simp [setPort]

/-! Parts of an MI (05_macro_instructions.md R129). -/

/-- What an effect has done is the effect of the MI whose number it was given: only that MI is left executed. -/
theorem effectOf_eq (effect : Work → Work) (mi : Nat) (w : Work) :
    effectOf effect mi w = finishWork { effect w with f := { (effect w).f with mi := mi } } := rfl

/-- A command that is not the step of an issued MI of its opcode changes nothing. -/
theorem runMi_absent (opcode : Nat) (slots : List Nat) (tiled : Bool) (effect : Work → Work) (mi : Nat) (s : State) (h : findFlight s mi = none) :
    runMi opcode slots tiled effect mi s = s := by
  unfold runMi
  rw [h]

theorem runMi_other (opcode : Nat) (slots : List Nat) (tiled : Bool) (effect : Work → Work) (mi : Nat) (s : State) (f : Flight)
    (h : findFlight s mi = some f) (h' : (f.phase == .issued && miOpcode f.word == opcode) = false) :
    runMi opcode slots tiled effect mi s = s := by
  unfold runMi
  simp only [h, h']
  rfl

theorem runMi_runs (opcode : Nat) (slots : List Nat) (tiled : Bool) (effect : Work → Work) (mi : Nat) (s : State) (f : Flight)
    (h : findFlight s mi = some f) (h' : (f.phase == .issued && miOpcode f.word == opcode) = true) :
    runMi opcode slots tiled effect mi s = runWork slots tiled effect s f := by
  unfold runMi
  simp only [h, h', if_true]

/-! The block. -/

/-- With a command in front, a step runs it on the rest of the queue. -/
theorem step_cons (i : Instr) (s : State) (l : List Instr) (h : s.pending = i :: l) : step s = exec i { s with pending := l } := by
  unfold step
  rw [h]

end Sys2Proof.Laws
end

