-- ==== Sys2Proof/Laws/Accesses.lean ====
section
/-!
SUPPORT. What the shared operations answer: a translation (18_partitions.md R495 to R498), an access below it (11_drawers_tiers.md
R299), a fault record that no ring takes (20_faults.md R536, R613), and a management request that is served (19_dictionary.md R527 to
R532).
-/
namespace Sys2Proof.Laws

open Sys2Proof.Machine

/-! Translation. -/

/-- A walk that reads no uncorrectable table entry raises no record (12_hbm_lpddr.md R334). -/
theorem translate_quiet (s : State) (part va : Nat) (write : Bool) (h : walkBad s part va = [] ∨ (cached s part va).isSome = true) :
    Sys2Proof.Machine.translate s part va write = translateQuiet s part va write := by
  unfold Sys2Proof.Machine.translate
  rcases h with h | h
  · simp only [h, List.foldl_nil, ite_self]
  · simp only [h, if_true]

/-- A translation changes the cached translations and the capture register alone. -/
theorem translateQuiet_frame (s : State) (part va : Nat) (write : Bool) :
    (translateQuiet s part va write).2 = { s with regs := (translateQuiet s part va write).2.regs
                                                  mmu := { s.mmu with tlb := (translateQuiet s part va write).2.mmu.tlb } } := by
  have cap : ∀ (l : List TlbEntry) (d : Nat) (t : State), captureXfault { s with mmu := { s.mmu with tlb := l } } part va d = t →
      t = { s with regs := t.regs, mmu := { s.mmu with tlb := t.mmu.tlb } } := by
    intro l d t ht
    unfold captureXfault at ht
    simp only [] at ht
    split at ht <;> (subst ht; rfl)
  unfold translateQuiet
  cases hc : cached s part va with
  | some e =>
    simp only []
    cases hb : (if write = true then e.write else e.read) with
    | true => rfl
    | false => exact cap s.mmu.tlb _ _ rfl
  | none =>
    cases hw : walk s part va with
    | error d => exact cap s.mmu.tlb _ _ rfl
    | ok e =>
      simp only []
      cases hb : (if write = true then e.write else e.read) with
      | true => rfl
      | false => exact cap _ _ _ rfl

@[simp] theorem translateQuiet_mem (s : State) (part va : Nat) (write : Bool) : (translateQuiet s part va write).2.mem = s.mem := by
  rw [translateQuiet_frame]

@[simp] theorem translateQuiet_hal (s : State) (part va : Nat) (write : Bool) : (translateQuiet s part va write).2.hal = s.hal := by
  rw [translateQuiet_frame]

@[simp] theorem translateQuiet_jig (s : State) (part va : Nat) (write : Bool) : (translateQuiet s part va write).2.jig = s.jig := by
  rw [translateQuiet_frame]

@[simp] theorem translateQuiet_dram (s : State) (part va : Nat) (write : Bool) : (translateQuiet s part va write).2.dram = s.dram := by
  rw [translateQuiet_frame]

@[simp] theorem translateQuiet_fab (s : State) (part va : Nat) (write : Bool) : (translateQuiet s part va write).2.fab = s.fab := by
  rw [translateQuiet_frame]

@[simp] theorem translateQuiet_retention (s : State) (part va : Nat) (write : Bool) :
    (translateQuiet s part va write).2.retention = s.retention := by
  rw [translateQuiet_frame]

/-- A cached page that allows the access answers its address and changes nothing. -/
theorem translate_cached (s : State) (part va : Nat) (write : Bool) (e : TlbEntry) (h : cached s part va = some e)
    (ok : (if write then e.write else e.read) = true) : Sys2Proof.Machine.translate s part va write = (.ok (e.pa + (va - e.va)), s) := by
  rw [translate_quiet s part va write (Or.inr (by rw [h]; rfl))]
  unfold translateQuiet
  rw [h]
  simp only [ok, if_true]

/-! Accesses below translation. -/

/-- With nothing in retention an access wakes nothing. -/
theorem wakeFor_none (s : State) (a n : Nat) (h : s.retention = []) : wakeFor s a n = s := by
  have one : ∀ (p : Nat) (u : RetUnit), wakeUnit s p u = s := by
    intro p u
    unfold wakeUnit
    rw [h]
    rfl
  unfold wakeFor
  generalize retUnitsOf a n = us
  induction us with
  | nil => rfl
  | cons u us ih => rw [List.foldl_cons, one, ih]

/-- An allowed read of good local memory answers its bytes and changes nothing. -/
theorem physGet_good (s : State) (r : Req) (a n va : Nat) (ok : physRefusal s r a n false = none) (here : regionOf a ≠ .neighbor)
    (ret : s.retention = []) (good : readsPoison s a n = false) :
    physGet s r a n va = { s := s, bytes := Memory.read s.mem a n } := by
  have none_bad : ((unitsOf a n).filter (isPoison s)).isEmpty = true := by
    rw [List.isEmpty_iff, List.filter_eq_nil_iff]
    unfold readsPoison at good
    simpa using good
  have far : (regionOf a == Region.neighbor) = false := beq_eq_false_iff_ne.2 here
  unfold physGet
  simp only [ok, far, wakeFor_none s a n ret, none_bad, if_true, Bool.false_eq_true, if_false]

/-- An allowed local write that loses no beat is a write below every check. -/
theorem physPut_good (s : State) (r : Req) (a : Nat) (bs : List Nat) (va : Nat) (ok : physRefusal s r a bs.length true = none)
    (here : regionOf a ≠ .neighbor) (ret : s.retention = []) (whole : beatDrops s r = []) :
    physPut s r a bs va = { s := physWrite s a bs } := by
  have far : (regionOf a == Region.neighbor) = false := beq_eq_false_iff_ne.2 here
  unfold physPut
  simp only [ok, far, wakeFor_none s a _ ret, whole, Bool.false_eq_true, if_false]

/-- A write of a neighbour leaves as WRITE packets (11_drawers_tiers.md R326). -/
theorem physPut_neighbor (s : State) (r : Req) (a : Nat) (bs : List Nat) (va : Nat) (ok : physRefusal s r a bs.length true = none)
    (far : regionOf a = .neighbor) :
    physPut s r a bs va = { s := (sendNeighbor s r.mi r.job r.part 2 a va bs.length bs).1
                            cond := (sendNeighbor s r.mi r.job r.part 2 a va bs.length bs).2 } := by
  unfold physPut
  simp only [ok, far, BEq.rfl, if_true]

/-- A refused write reaches no byte: it is answered with the refusal's DETAIL. -/
theorem physPut_refused (s : State) (r : Req) (a : Nat) (bs : List Nat) (va cause detail : Nat)
    (no : physRefusal s r a bs.length true = some (cause, detail)) :
    physPut s r a bs va = { s := refuseAccess s r a true cause va
                            cond := some { status := 2, detail := detail, aux := if detail == 0x0100 then a else va } } := by
  unfold physPut
  simp only [no]

/-! Fault records. -/

/-- A record that no ring in memory takes changes the Halyard alone. -/
theorem storeFault_quiet (s : State) (r : FaultRec) (h : gnum s .faultRing = 0) :
    (storeFault s r).1 = { s with hal := (storeFault s r).1.hal } ∧ (storeFault s r).1.hal.mgmt = s.hal.mgmt ∧
    (storeFault s r).1.hal.faults = ((storeFault s r).2 :: s.hal.faults).take 1024 ∧
    (storeFault s r).2 = { r with seq := (storeFault s r).2.seq, time := s.time } := by
  unfold storeFault
  simp only []
  generalize (if (s.hal.faultSeq == 0xFFFFFFFF) = true then 1 else s.hal.faultSeq + 1) = seq
  generalize (if (r.sev == 4) = true then seq else s.hal.serviceSeq) = alert
  split
  · exact ⟨rfl, rfl, rfl, rfl⟩
  · rename_i hn
    exact absurd (beq_iff_eq.2 h) hn

/-- A record that names no partition is stored, and posts no event. -/
theorem postFault_alone (s : State) (r : FaultRec) (h : gnum s .faultRing = 0) (hp : r.part = none) :
    postFault s r = (storeFault s r).1 := by
  have hq : (storeFault s r).2.part = none := by rw [(storeFault_quiet s r h).2.2.2]; exact hp
  unfold postFault post
  simp only [hq]

/-- The newest record is the one that was posted. -/
theorem postFault_newest (s : State) (r : FaultRec) (h : gnum s .faultRing = 0) (hp : r.part = none) :
    ∃ x, (postFault s r).hal.faults.head? = some x ∧ x = { r with seq := x.seq, time := s.time } := by
  rw [postFault_alone s r h hp]
  obtain ⟨-, -, hf, hr⟩ := storeFault_quiet s r h
  exact ⟨(storeFault s r).2, by rw [hf]; rfl, hr⟩

end Sys2Proof.Laws
end

