-- ==== Sys2Proof/Laws/Requests.lean ====
section
/-!
SUPPORT. What the pipeline of management requests does with a request that the device serves anew (19_dictionary.md R511, R527, R529,
R532).
-/
namespace Sys2Proof.Laws

open Sys2Proof.Machine Sys2Proof.Safety

/-- No kept response has a REQ_ID that was not seen. -/
theorem kept_none (s : State) (r : MgmtReq) (h : ∀ k ∈ s.hal.mgmt.kept, ¬(k.path = r.path ∧ k.reqId = r.reqId)) :
    s.hal.mgmt.kept.find? (fun k => k.path == r.path && k.reqId == r.reqId) = none := by
  rw [List.find?_eq_none]
  intro k hk hb
  simp only [Bool.and_eq_true, beq_iff_eq] at hb
  exact h k hk hb

/-- A request that is served goes through the rate limit to the state that serves it. -/
theorem rateLimit_served (s u : State) (r : MgmtReq) (answers : Bool) (part : Nat) (h : Served s u r answers part) :
    rateLimit s (pathRole r.path) part = (none, u) := by
  obtain ⟨-, -, -, -, -, h⟩ := h
  unfold rateLimit
  rcases h with ⟨hr, rfl⟩ | ⟨hr, hb, rfl⟩
  · rw [if_pos (by simpa using hr)]
  · rw [if_neg (by simp [hr])]
    simp only []
    rw [if_neg (by simpa using hb)]

/-- A request that is served has the effect and the answer that its execution gives. -/
theorem serveRequest_served (op : Nat) (answers : State → Role → Bool) (act : State → Role → Nat → Reply × State) (r : MgmtReq)
    (s u : State) (part : Nat) (h : Served s u r (answers s (pathRole r.path)) part) :
    serveRequest op answers act r s = finishRequest op r (act u (pathRole r.path) part).1 (act u (pathRole r.path) part).2 := by
  have hl := rateLimit_served s u r _ part h
  obtain ⟨hp, ho, ha, hv, hk, -⟩ := h
  unfold serveRequest
  simp only [hp, ho, ha, kept_none s r hk, hv, hl, Bool.not_true, Bool.or_self, Bool.false_eq_true, if_false, bne_self_eq_false]

/-- Serving a request touches at most its partition's bucket. -/
theorem served_state (s u : State) (r : MgmtReq) (answers : Bool) (part : Nat) (h : Served s u r answers part) :
    u = { s with hal := { s.hal with buckets := u.hal.buckets } } := by
  obtain ⟨-, -, -, -, -, h⟩ := h
  rcases h with ⟨-, rfl⟩ | ⟨-, -, rfl⟩ <;> rfl

end Sys2Proof.Laws
end

