-- ==== Sys2Proof/Tests/Slice0.lean ====
section
/-!
SUPPORT. Tests: which commands are ill formed, small checks of single operations against numbers computed by hand from the spec, and
for each statement with hypotheses a state and operands that meet them.
-/
set_option maxRecDepth 100000
set_option Elab.async false

namespace Sys2Proof.Tests

open Sys2Proof.Machine Sys2Proof.Safety

/-! ## Well-formedness: one ill-formed term for each check -/

/-- Functions, links, panels, queues, values and widths. -/
theorem test_ill_formed_registers :
    [Instr.registerWrite (.pf 2) 0 64 0, .registerWrite (.vf 0 0) 0 64 0, .registerWrite (.vf 2 1) 0 64 0,
      .registerWrite (.vf 0 128) 0 64 0, .registerWrite (.pf 0) (2 ^ 32) 64 0, .registerWrite (.pf 0) 0 16 0,
      .registerWrite (.pf 0) 0 32 (2 ^ 32), .registerRead (.pf 0) 0 8, .registerRead (.pf 0) (2 ^ 32) 64,
      .jigQptrDoorbell (.pf 0) 16 0 0, .jigQptrResume (.pf 0) 0 64 0, .jigQptrReset (.pf 0) 0 0 (2 ^ 64), .eringEnable (.pf 0) 0 64 0,
      .erptrConsumerWrite (.pf 0) 16 0 0, .contextEnable (.pf 0) (2 ^ 32) 0, .kvpPoolInit (.pf 0) 0 16 0, .kvpPoolReady 16 0,
      .cacheEnable (.pf 0) 0 8 0, .cacheDisable (.pf 0) 16 0 0, .cacheDisableDone 0 8, .cacheFillDone 0 0 (2 ^ 48),
      .mitreContextEnable (.pf 0) 256 0, .medContextEnable (.pf 0) 2 0 0, .medContextDisable (.pf 0) 0 48 0,
      .medJobDoorbell (.pf 0) 0 0 (2 ^ 64), .ingPipeEnable (.pf 0) 16 0, .ingReqDoorbell (.pf 0) 16 0, .ingQstatResume (.pf 0) 16 0,
      .prtMmuinvStart (.pf 2) 0, .chkStateRestore (.pf 0) (2 ^ 32) 0, .pwrRetWrite (.pf 0) 16 0, .retentionEntry 0 (.bench 34),
      .retentionWake 0 (.slice 16), .retentionWakeDone 16 (.slice 0) true, .bar2Access (.pf 0) (2 ^ 36) (.read 1),
      .bar2Access (.pf 0) 0 (.read 0), .bar2Access (.pf 0) 0 (.read 4097), .bar2Access (.pf 0) 0 (.write []),
      .bar2Access (.pf 0) 0 (.write [256]), .vfFlr 2 1, .vfFlr 0 0].all (fun i => !i.wf) = true := by decide +kernel

/-- MI numbers, arrivals, partials, panels, rings, salvage IDs, media and ingest numbers. -/
theorem test_ill_formed_macro_instructions :
    [Instr.nop 0, .mm 0, .damagePark 0, .collTimeout 0, .allReduce 1 [{ rank := 4096 }], .gatherRetainKeep 0 [], .miIssue 16 0,
      .miIssue 0 64, .eventWaitRoom 256 0, .eventWaitRoom 0 4, .combinerPartialArrival 1 { count := 0 },
      .combinerPartialArrival 1 { first := 2 ^ 32 }, .combinerPartialArrival 1 { flags := 256 },
      .combinerPartialArrival 1 { values := [2 ^ 48] }, .combinerPartialArrival 1 { tensorId := 2 ^ 32 }, .tileDealShared 1 16 ⟨none, []⟩,
      .tileDealShared 1 0 ⟨some 32, []⟩, .tileDealShared 1 0 ⟨none, [2 ^ 48]⟩, .salvageRunEnd 256 0, .salvageRunEnd 0 4096, .medDecodePicture 2 0 0 0 .refused,
      .medFrameSlotWait 0 32, .medEncodePicture 0 31 [] true, .medEncodePicture 0 32 [[256]] true, .ingSampleReady 16 0,
      .ingSampleReady 0 (2 ^ 16), .ingSampleSkip 0 0 256, .ingPipeStop 16 0].all (fun i => !i.wf) = true := by decide +kernel

/-- Drawer words, addresses, DRAM channels, ports, flits, packets, leases, frames. -/
theorem test_ill_formed_memory_and_fabric :
    [Instr.drawerPortCollision 0 0 (2 ^ 19) 1 (List.replicate 8 0) 0 [] {}, .drawerPortCollision 0 0 0 6 (List.replicate 8 0) 0 [] {},
      .drawerPortCollision 0 0 0 1 [0] 0 [] {}, .drawerPortCollision 0 34 0 1 (List.replicate 8 0) 0 [] {},
      .drawerPortCollision 0 0 0 1 (List.replicate 8 0) (2 ^ 22) [] {}, .regionRefusal (2 ^ 48) 1 0 none true none,
      .regionRefusal 0 0 0 none true none, .regionRefusal 0 1 6 none true none, .regionRefusal 0 1 0 (some 256) true none,
      .buntingParityError 0 0 0 257 1, .buntingParityError 0 0 0 1 0, .dramUncorrectableRead ⟨2 ^ 48, 0, 0⟩ none, .dramUncorrectableRead ⟨0, 73, 0⟩ none, .dramCorrectedRead ⟨2 ^ 48, 0, 0⟩, .dramCorrectedRead ⟨0, 0, 7⟩,
      .patrolScrub (2 ^ 48) .clean, .writeDrain (.hbm 8 0 0), .dramRefresh (.hbm 0 32 0), .refreshRateDoubling (.hbm 0 0 2) true,
      .writeDrain (.lpddr 16 0), .writeDrain (.lpddr 0 4), .hotBankAlarm 0 ⟨256, 0⟩, .hotBankAlarm 0 ⟨0, 65537⟩, .flitReceive 12 (List.replicate 256 0), .flitReceive 0 [],
      .flitNak 0 (2 ^ 16), .creditInit 0 [(512, 1)], .schedExit 12, .schedEnter 0 (2 ^ 64), .hello 0 0 12 0 0 0 0, .hello 0 (2 ^ 64) 0 0 0 0 0,
      .helloSend 12, .helloTimeout 12, .fabricRead 12 {}, .fabricRead 0 { dst := 2 ^ 16 }, .atomic 0 { vc := 512 }, .message 0 { op := 16 },
      .fabricWrite 0 { addr := 2 ^ 48 }, .fabricWrite 0 { payload := [256] }, .packetForward 0 { crc := 2 ^ 32 },
      .packetResendTimeout (2 ^ 16), .portTrained 0 9 false, .fabricLaneLoss 0 8, .fabricPortSlow 0 257,
      .leaseGrant .borrower 256 0 0 0 0 2 0 0, .leaseGrant .lender 64 0 0 0 0 2 0 0, .leaseGrant .lender 0 0 0 0 0 1 0 0,
      .leaseRefuse .borrower 0 (2 ^ 16) 0, .leaseKeepalive .lender 64 true, .leaseNotice 256 0 0, .leaseNotice 0 (2 ^ 32) 0,
      .leaseRelease .borrower 256, .scrubDone (2 ^ 32)].all (fun i => !i.wf) = true := by decide +kernel

/-- Pennant frames, the clocks, power, faults, management. -/
theorem test_ill_formed_module_and_management :
    [Instr.penTime {}, .arrive { bytes := List.replicate 13 0 }, .link { bytes := List.replicate 14 0, crc := 2 ^ 16 },
      .measure { bytes := List.replicate 14 0 } (2 ^ 32) 0, .measure { bytes := List.replicate 14 256 } 0 0, .bypassOpen 64,
      .pclkChange 16, .thermalThrottle 16 0 0, .powerLimitThrottle 0 1801, .thermalTrip (.panel 16) 0 0, .thermalTrip (.hbm 8) 0 0,
      .coldStart { failedBenches := [(16, 0)] }, .coldStart { failedBenches := [(0, 34)] }, .coldStart { failedChannels := [(8, 0)] },
      .coldStart { failedStacks := [8] }, .coldStart { failedGroups := [4] }, .coldStart { badCal := [(0x3900, 0)] },
      .coldStart { badCal := [(0x38FF, 1)] }, .perstAssert 2, .perstDeassert 2, .partitionIdleIdleExit (.panel 16),
      .idleEntry (.hbmChannel 8 0), .idleEntry (.lpddrChannel 0 4), .tsliceSwitch 0, .tsliceSwitch 64, .benchFailure 16 0 1,
      .spareTakeover 0 34, .hbmChannelRetirement 8 0 true, .hbmRetireCopyDone 0 32, .spineLaneRepair 0 4 ⟨0, 0, .encoderParity 1⟩, .spineLaneRepair 0 0 ⟨2 ^ 16, 0, .wordError 0⟩, .spineLaneRepair 0 0 ⟨0, 0, .wordError (2 ^ 48)⟩, .telemetrySample 256 0,
      .telemetrySample 0 8, .halyardLinkFailure 1, .neighborDiscovery (2 ^ 64), .mailboxDoorbell (.pf 2) 0,
      .mailboxDoorbell (.pf 0) (2 ^ 32), .mgmtRead { path := .port (2 ^ 64) }, .mgmtWrite { path := .mailbox .halyard },
      .readStaged { path := .fabric (2 ^ 16) }, .readBatch { path := .port 0, version := 256 },
      .commitRequest { path := .port 0, reqId := 2 ^ 32 }, .commitAbort { path := .port 0, index := 2 ^ 16 },
      .keyWrite { path := .port 0, sub := 256 }, .keyGenerate { path := .port 0, part := 256 },
      .updateChunk { path := .port 0, body := List.replicate 1033 0 }, .retireBench { path := .port 0, body := [256] }].all
      (fun i => !i.wf) = true := by decide +kernel

/-- Each of these numbers is the largest that its check admits. -/
theorem test_well_formed_bounds :
    [Instr.nop 1, .registerWrite (.vf 1 127) (2 ^ 32 - 8) 64 (2 ^ 64 - 1), .registerRead .halyard 4 32, .miIssue 15 63,
      .kvpPoolInit (.pf 1) 15 15 0, .cacheFillDone 15 7 0xFFFFFFFF0000, .medEncodePicture 1 47 [[255]] false, .ingSampleReady 15 65535,
      .retentionEntry 15 (.bench 33), .writeDrain (.hbm 7 31 1), .refreshRateDoubling (.lpddr 15 3) false,
      .flitReceive 11 (List.replicate 256 255), .hello 11 (2 ^ 64 - 1) 11 0xFFFF 255 (2 ^ 64 - 1) 255, .portTrained 11 8 true,
      .leaseGrant .lender 63 0xFFFF (2 ^ 32 - 1) 0 0 3 0 0, .measure { bytes := List.replicate 14 255, crc := 0xFFFF } 0 0, .bypassOpen 63,
      .coldStart { failedBenches := [(15, 33)], badCal := [(0x39FF, 127)] }, .tsliceSwitch 63, .telemetrySample 255 7,
      .bar2Access (.vf 0 1) (2 ^ 36 - 1) (.read 4096), .updateChunk { path := .fabric 0xFFFF, body := List.replicate 1032 255 }].all
      Instr.wf = true := by decide +kernel

/-- The table gives no row any bits, so a word spells no command. -/
theorem test_words_spell_no_command : decodeTableWord 0 0 = none ∧ decodeTableWord 64 0xFFFFFFFFFFFFFFFF = none := by decide +kernel

/-! ## States for the tests -/

def obj (id : ObjId) (part n v : Nat) : ObjAddr × List Nat := ({ id := id, part := part }, leBytes n v)
def objAt (id : ObjId) (i part n v : Nat) : ObjAddr × List Nat := ({ id := id, i := i, part := part }, leBytes n v)

/-- Partition 1 runs on bench pair 0 of panel 0, its sync home, with a slice of that panel, frames 0 to 15 and VF 1 of link 0; its first
2 MiB are mapped to frame 0. -/
def owned : State := { State.reset with
  hal := { State.reset.hal with mgmt := { dict := [obj .partitionState 1 1 2, obj .partitionSyncHome 1 1 0, obj .partitionBenches 1 32 1,
    obj .partitionSlices 1 32 1, obj .partitionVfs 1 4 1, ({ id := .partitionFrames, part := 1 }, leBytes 4 0 ++ leBytes 4 16)] } }
  mmu := { tlb := [{ part := 1, va := 0, size := 0x200000, pa := 0, read := true, write := true }] } }

/-- An MI of queue 0 of panel 0, partition 1: its opcode, and bytes of its parameters from byte 40 on. -/
def mi (op : Nat) (ph : Phase) (params : List Nat := []) : Flight :=
  { mi := 1, panel := 0, q := 0, slot := 0, part := 1, phase := ph
    word := op :: List.replicate 39 0 ++ params ++ List.replicate (24 - params.length) 0 }

def flying (f : Flight) (s : State := owned) : State := { s with jig := { s.jig with flights := [f], nextMi := 2 } }

/-- A cached address translates to `pa` and leaves the state as it was. -/
def translates (s : State) (part va : Nat) (write : Bool) (pa : Nat) : Bool :=
  (cached s part va).isSome && match translateQuiet s part va write with
  | (.ok x, u) => x == pa && u == s
  | _ => false

theorem translates_maps (s : State) (part va pa : Nat) (write : Bool) (h : translates s part va write pa = true) :
    Maps s s part va write pa := by
  unfold translates at h
  rw [Bool.and_eq_true] at h
  refine ⟨.inl h.1, ?_⟩
  replace h := h.2
  split at h
  · next x u e => simp at h; rw [e, h.1, h.2]
  · cases h

/-! ## States that meet the hypotheses of the statements: registers -/

theorem witness_RegisterWrites :
    Reaches State.reset (.pf 1) (panelReg .jigSqstat 15 0) ∧ RegId.jigSqstat ∉ ownRuleRegisters ∧
    Reaches State.reset (.pf 0) (benchReg .drwRegion 15 31 47) ∧ RegId.drwRegion ∉ ownRuleRegisters ∧
    Reaches State.reset .halyard (halReg .prtViol) ∧ RegId.prtViol ∉ ownRuleRegisters ∧ isVf .halyard = false ∧ (0x2004 : Nat) % 8 ≠ 0 := by
  unfold Reaches; decide +kernel

theorem witness_RegisterReads :
    Reaches State.reset (.pf 1) (benchReg .jigTiles 15 31 0) ∧
    (0xFFFFFFF8 : Nat) % 8 = 0 ∧ regOf 0xFFFFFFF8 = none ∧ wfSrc (.pf 1) = true ∧ linkUp State.reset (.pf 1) = true ∧
    isVf (.pf 1) = false ∧ wfSrc (.vf 0 1) = true ∧ linkUp owned (.vf 0 1) = true ∧ vfPart owned (.vf 0 1) = some 1 ∧
    vfPart owned (.vf 0 127) = none := by
  unfold Reaches; decide +kernel

theorem witness_HiddenBench :
    (∀ b ∈ [32, 33], linkUp State.reset (.pf 0) = true ∧
      regOf (regOffset (benchReg .drwRviol 15 b 0)) = some (benchReg .drwRviol 15 b 0) ∧ benchState State.reset 15 b = 1) ∧
    benchState { State.reset with retiredBench := [(0, 0)] } 0 0 = 3 ∧ linkUp owned (.vf 0 1) = true ∧ isVf (.vf 0 1) = true := by
  decide +kernel

theorem witness_VfIsConfined :
    linkUp owned (.vf 0 1) = true ∧ vfPart owned (.vf 0 1) = some 1 ∧
    (∀ a ∈ [benchReg .drwRviol 0 2 0, panelReg .jigErptr 0 0, halReg .prtViol],
      regOf (regOffset a) = some a ∧ vfReaches owned 1 a false = false ∧ vfReaches owned 1 a true = false) ∧
    vfReaches owned 1 (benchReg .drwRviol 0 1 0) true = true ∧
    syncHome { owned with hal := { owned.hal with mgmt := { dict := [obj .partitionSyncHome 1 1 255, obj .partitionVfs 1 4 1] } } } 1 = none ∧
    vfPart { owned with hal := { owned.hal with mgmt := { dict := [obj .partitionSyncHome 1 1 255, obj .partitionVfs 1 4 1] } } }
      (.vf 0 1) = some 1 ∧ gnum owned .faultRing = 0 := by
  decide +kernel

/-! ## Queues and event rings -/

/-- Queue 63 of panel 15 with 16 slots, HEAD 3 and TAIL 5. -/
def queued : State := rset (rset owned (panelReg .jigQbase 15 63) (4 * 2 ^ 48)) (panelReg .jigQptr 15 63) (3 * 65536 + 5)

theorem witness_QueuesTakeDoorbells :
    Reaches queued (.pf 0) (panelReg .jigQptr 15 63) ∧ bit 7 34 = false ∧
    tailDistance queued 15 63 (qTail queued 15 63) = 2 ∧ tailDistance queued 15 63 5 = 2 ∧ tailDistance queued 15 63 2 = 15 ∧
    tailDistance queued 15 63 4 = 1 ∧ bit (2 ^ 33 + 7) 33 = true ∧ bit (2 ^ 33 + 7) 34 = false ∧ bit (2 ^ 34) 34 = true ∧
    queued.jig.flights = [] ∧ queued.jig.waiting = [] ∧ queued.jig.resetting = [] := by
  unfold Reaches; decide +kernel

/-- ENABLE, PARTITION 1, ADDR 0x1000, ESIZE 6 (64 records). -/
def ringWord : Nat := 1 + 16 + 0x1000 + 6 * 2 ^ 48

theorem witness_EringEnable :
    Reaches owned (.pf 0) (panelReg .jigErbase 0 63) ∧ bit ringWord 0 = true ∧ 6 ≤ bits ringWord 51 48 ∧
    syncHome owned (bits ringWord 11 4) = some 0 ∧
    (∀ k, k < 16 → ∀ d, d < 64 → (k, d) ≠ (0, 63) → rbit owned (panelReg .jigErbase k d) 0 = false) ∧
    owned.jig.waiting = [] ∧ owned.jig.resetting = [] ∧ Reaches owned (.pf 0) (panelReg .jigErptr 0 63) := by
  unfold Reaches; decide +kernel

/-- Ring 0 of partition 1 stands on context 0 of panel 0; one event waits. -/
def event1 : Event := { ring := 0, type := 1, part := 1 }
def ringed : State := rset owned (panelReg .jigErbase 0 0) ringWord
def eventful : State := { ringed with jig := { ringed.jig with waiting := [event1] } }

theorem witness_EventWaitRoom :
    CanonicalMemory eventful ∧ eventful.jig.waiting = [event1] ∧ eventful.jig.resetting = [] ∧ ringCtx eventful 1 0 = some (0, 0) ∧
    ringFull eventful 0 0 = false ∧ rbit eventful (panelReg .jigErbase 0 0) 1 = false ∧
    translates eventful 1 (rfield eventful (panelReg .jigErbase 0 0) 47 12 * 4096 +
      32 * (rfield eventful (panelReg .jigErptr 0 0) 31 16 % 2 ^ rfield eventful (panelReg .jigErbase 0 0) 51 48)) true 0x1000 = true ∧
    physRefusal eventful { part := some 1 } 0x1000 32 true = none ∧ poisonFree eventful 0x1000 32 = true ∧ regionOf 0x1000 ≠ .neighbor ∧
    eventful.retention = [] := by
  unfold CanonicalMemory; decide +kernel

/-- Queue 0 of panel 0 is enabled for partition 1 with one MI of zeros, a NOP, and its ring has room. -/
def issuing : State :=
  rset (rset (rset ringed (panelReg .jigQbase 0 0) (4 * 2 ^ 48)) (panelReg .jigQcfg 0 0) (1 + 256 + 65536)) (panelReg .jigQptr 0 0) 1

/-- The same with its ring of slots beyond what partition 1 has mapped. -/
def issuingRefused : State := rset issuing (panelReg .jigQbase 0 0) (4 * 2 ^ 48 + 0x40000000)

theorem witness_Issue :
    (queueRun issuing 0 0 = none ∧ (issueQueue issuing 0 0).isSome = true ∧ queueTurn issuing 0 0 = true ∧ issuing.fab.asks = [] ∧
      issuing.jig.nextMi + 1 = ((issueQueue issuing 0 0).map (·.jig.nextMi)).getD 0) ∧
    (∀ s ∈ [issuing, issuingRefused], queueOpen s 0 0 = true ∧ NoLease s ∧ (∀ x, x < 64 → x ≠ 0 → qEnabled s 0 x = false) ∧
      (∀ r ∈ s.jig.runs, r.panel ≠ 0)) ∧
    (let g := ctrlGet issuing (qPart issuing 0 0) (slotAddr issuing 0 0 (qHead issuing 0 0)) 64
     g.cond = none ∧ miOpcode g.bytes = 0 ∧ miFence g.bytes = false) ∧
    (ctrlGet issuingRefused 1 (slotAddr issuingRefused 0 0 0) 64).cond.isSome = true := by
  unfold NoLease; decide +kernel

theorem witness_Completion :
    Runs (flying (mi 0 .executed)) 1 (mi 0 .executed) ∧ canComplete (flying (mi 0 .executed)) (mi 0 .executed) = true ∧
    (mi 0 .executed).run = none ∧ statusStops (finalCond (mi 0 .executed).conds (mi 0 .executed).lenFlag).status = false ∧
    miEvent (mi 0 .executed).word = false ∧ opPool (mi 0 .executed) = none ∧
    Runs (flying { mi 0 .executed with conds := [{ status := 2, detail := 1 }] }) 1 { mi 0 .executed with conds := [{ status := 2, detail := 1 }] } ∧
    statusStops (finalCond [{ status := 2, detail := 1 }] false).status = true ∧
    (∀ c ∈ [({ status := 6 } : Cond), { status := 2, detail := 1 }], c.status ≠ 0 ∧ statusRank c.status < 12) := by
  unfold Runs; decide +kernel

/-! ## NOP, semaphores and barriers -/

theorem witness_Nop : Runs (flying (mi 0 .issued)) 1 (mi 0 .issued) ∧ miOpcode (mi 0 .issued).word = 0x00 := by
  unfold Runs; decide +kernel

/-- WAIT, SIGNAL: the semaphore at 0x100, VALUE. -/
def semMi (op : Nat) (ph : Phase) (v : Nat) : Flight := mi op ph (leBytes 8 0x100 ++ leBytes 4 v)

theorem witness_Wait :
    (∀ ph ∈ [Phase.issued, .waiting], ∀ v ∈ [0, 1, 0x80000000, 0x80000001, 0xFFFFFFFF],
      Runs (flying (semMi 0x40 ph v)) 1 (semMi 0x40 ph v) ∧ miOpcode (semMi 0x40 ph v).word = 0x40 ∧
      semAddr (semMi 0x40 ph v) = 0x100 ∧
      translates (flying (semMi 0x40 ph v)) 1 0x100 false 0x100 = true ∧ regionOf 0x100 ≠ .neighbor ∧
      (physGet (flying (semMi 0x40 ph v)) (semReq (semMi 0x40 ph v)) 0x100 4 0x100).cond = none ∧
      leVal (physGet (flying (semMi 0x40 ph v)) (semReq (semMi 0x40 ph v)) 0x100 4 0x100).bytes = 0) ∧
    semMet 0 0 = true ∧ semMet 0 1 = false ∧ semMet 0 0x80000000 = false ∧ semMet 0 0x80000001 = true ∧ semMet 0 0xFFFFFFFF = true := by
  unfold Runs; decide +kernel

theorem witness_Signal :
    Runs (flying (semMi 0x41 .issued 5)) 1 (semMi 0x41 .issued 5) ∧ miOpcode (semMi 0x41 .issued 5).word = 0x41 ∧
    earlier (flying (semMi 0x41 .issued 5)) (semMi 0x41 .issued 5) = [] ∧
    semAddr (semMi 0x41 .issued 5) < 2 ^ 48 ∧ translates (flying (semMi 0x41 .issued 5)) 1 0x100 true 0x100 = true ∧
    regionOf 0x100 ≠ .neighbor ∧
    (physGet (flying (semMi 0x41 .issued 5)) (semReq (semMi 0x41 .issued 5)) 0x100 4 (semAddr (semMi 0x41 .issued 5))).cond = none ∧
    physRefusal (flying (semMi 0x41 .issued 5)) (semReq (semMi 0x41 .issued 5)) 0x100 4 true = none ∧
    CanonicalMemory (flying (semMi 0x41 .issued 5)) ∧ poisonFree (flying (semMi 0x41 .issued 5)) 0x100 4 = true := by
  unfold Runs CanonicalMemory; decide +kernel

/-- BARRIER of SCOPE 0, ID 7, COUNT 1. -/
def bar (ph : Phase) : Flight := { mi 0x42 ph [7, 1, 0, 0] with deadline := 10 }
def arrived : State := { flying (bar .waiting) with
  jig := { (flying (bar .waiting)).jig with arrivals := [{ part := 1, id := 7, mi := 1, count := 1 }] } }

theorem witness_Barriers :
    Runs (flying (bar .issued)) 1 (bar .issued) ∧ miOpcode (bar .issued).word = 0x42 ∧ barScope (bar .issued) = 0 ∧
    earlier (flying (bar .issued)) (bar .issued) = [] ∧ barArrivals (flying (bar .issued)) 1 7 = [] ∧ barId (bar .issued) = 7 ∧
    Runs arrived 1 (bar .waiting) ∧ barCount (bar .waiting) = 1 ∧ (barArrivals arrived 1 (barId (bar .waiting))).length = 1 ∧
    (∀ a ∈ barArrivals arrived 1 7, (findFlight arrived a.mi).isSome = true) ∧
    (∀ ph ∈ [Phase.issued, .waiting], (bar ph).deadline ≠ 0 ∧ (bar ph).conds = [] ∧ (bar ph).puts = [] ∧
      Runs (flying { semMi 0x40 ph 1 with deadline := 1 }) 1 { semMi 0x40 ph 1 with deadline := 1 }) := by
  unfold Runs; decide +kernel

/-! ## Contexts of a panel -/

/-- Slice 0 of panel 0 belongs to partition 1. -/
def sliced : State := rset owned (panelReg .sbdSlice 0 0) (1 + 256)

/-- The words enable context 15, or 7, of panel 0 for partition 1; the last are refused: an area that ends beyond its slice, a panel off
the sync home, an area in no slice. -/
theorem witness_ContextEnable :
    (∀ x ∈ [(RegId.cenCtx, 15, 1 + 256 + 4095 * 2 ^ 16), (.ldgCtx, 15, 1 + 256 + 4095 * 2 ^ 16), (.jigSalv, 15, 1 + 256),
        (.jigRetcfg, 7, 1 + 256 + 65536 + 2 ^ 48)],
      x.1 ∈ [RegId.cenCtx, .ldgCtx, .jigSalv, .jigRetcfg] ∧ Reaches sliced (.pf 0) (panelReg x.1 0 x.2.1) ∧ x.2.2 < 2 ^ 64 ∧
      bit x.2.2 0 = true ∧ ContextGood sliced x.1 0 x.2.1 x.2.2) ∧
    (∀ x ∈ [(RegId.cenCtx, 0, 1 + 256 + 4095 * 2 ^ 16 + 0x3FF * 2 ^ 32), (.jigSalv, 1, 1 + 256), (.jigRetcfg, 0, 1 + 2 ^ 16 + 2 ^ 48)],
      Reaches sliced (.pf 0) (panelReg x.1 x.2.1 0) ∧ bit x.2.2 0 = true ∧ ¬ContextGood sliced x.1 x.2.1 0 x.2.2) := by
  unfold Reaches ContextGood AreaFits; decide +kernel

/-- Pool 0 of partition 1 with one page, BF16, in frames 0 to 15, at context 15 of panel 15. -/
def poolWord : Nat := 1 + 16 + 256 + 4 * 2 ^ 16 + 2 * 2 ^ 20
def poolRegs : State := rset (rset owned (panelReg .kvpPmap 15 15) 0x40000) (panelReg .kvpPctn 15 15) 0x50000
def pooled : State := { rset poolRegs (panelReg .kvpPcfg 15 15) poolWord with kv := { initing := [(15, 15)] } }

theorem witness_Pools :
    Reaches poolRegs (.pf 0) (panelReg .kvpPcfg 15 15) ∧ poolWord < 2 ^ 64 ∧ bit poolWord 0 = true ∧
    poolRefused (plainWrite poolRegs (panelReg .kvpPcfg 15 15) poolWord) (panelReg .kvpPcfg 15 15)
      (poolAt (plainWrite poolRegs (panelReg .kvpPcfg 15 15) poolWord) 15 15) = false ∧
    (15, 15) ∈ pooled.kv.initing ∧ pooled.retention = [] ∧ CanonicalMemory pooled ∧ (poolAt pooled 15 15).pages = 1 ∧
    (poolAt pooled 15 15).map % 65536 + 12 * (poolAt pooled 15 15).pages ≤ 65536 ∧
    translates pooled (poolAt pooled 15 15).part (poolAt pooled 15 15).map true 0x40000 = true ∧ regionOf 0x40000 ≠ .neighbor ∧
    physRefusal pooled { kvReq (poolAt pooled 15 15) with byVa := true } 0x40000 12 true = none ∧ poisonFree pooled 0x40000 12 = true := by
  unfold Reaches CanonicalMemory; decide +kernel

/-- Cache context 7 of panel 0: 16 frames from the slice's first byte, a window of 64 KiB at 0. -/
def cacheWord : Nat := 1 + 256 + 4 * 2 ^ 32
def cacheRegs : State := rset sliced (panelReg .sbdCwin 0 7) 16
def cached1 : State := { rset cacheRegs (panelReg .sbdCcfg 0 7) cacheWord with
  cache := { frames := [{ panel := 0, n := 7, set := 0, way := 15, addr := 0, state := .filling, used := 0 }], closing := [(0, 7, 0)] } }

theorem witness_Caches :
    Reaches cacheRegs (.pf 0) (panelReg .sbdCcfg 0 7) ∧ bit cacheWord 0 = true ∧
    cacheRefused (plainWrite cacheRegs (panelReg .sbdCcfg 0 7) cacheWord) 0 7 = false ∧
    Reaches cached1 (.pf 0) (panelReg .sbdCcfg 0 7) ∧ bit 0 0 = false ∧ rbit cached1 (panelReg .sbdCcfg 0 7) 0 = true ∧
    (cached1.cache.closing.find? fun c => c.1 == 0 && c.2.1 == 7) = some (0, 7, 0) ∧
    (∀ f ∈ ctxFrames cached1 0 7, f.state ≠ .dirty) ∧
    findFrame cached1 0 7 0xFFFF = some { panel := 0, n := 7, set := 0, way := 15, addr := 0, state := .filling, used := 0 } ∧
    translates cached1 (rfield cached1 (panelReg .sbdCcfg 0 7) 15 8) 0 false 0 = true ∧ CanonicalMemory cached1 ∧
    readsPoison cached1 0 0x10000 = false ∧ cached1.retention = [] ∧
    frameRefused cached1 { panel := 0, n := 7, set := 0, way := 15, addr := 0, state := .filling, used := 0 } true = none ∧
    poisonFree cached1 (cacheFrameAddr cached1 { panel := 0, n := 7, set := 0, way := 15, addr := 0, state := .filling, used := 0 }) 0x10000 = true := by
  unfold Reaches CanonicalMemory; decide +kernel

/-! ## Macro instructions -/

/-- A source or destination in frame 0 of 4 plain elements. -/
def plain (base : Nat) : Option Desc := some { base := base, extents := [4, 1, 1, 1, 1], tier := 2, tensorId := 7 }

/-- An MI of each opcode whose slots are plain; the MCAST goes to benches 0 and 1 of panel 0. -/
theorem witness_DataMi :
    ∀ d ∈ dataMis, let f := { mi d.2.1 .issued (if d.2.1 = 0x11 then [1, 0, 0, 0, 3] else []) with
        descs := [plain 0, plain 64, plain 128, plain 192, plain 256] }
      Runs (flying f) 1 f ∧ ReadyMi f d.2.2.1 ∧ miOpcode f.word = d.2.1 ∧ moveDenied (flying f) f = false ∧
      (d.2.1 = 0x11 → mcastNowhere f = false) ∧ (d.2.1 = 0x18 → (startCopies { s := flying f, f := f }).f.data = []) ∧
      ComesAbout d.2.2.2 (workOf (flying f) f) := by
  unfold Runs ReadyMi ComesAbout; decide +kernel

/-- A MOVE into the drawer of bench 2 of panel 0, which partition 1 does not own. -/
theorem witness_MoveDenied :
    let f := { mi 0x10 .issued [2] with descs := [plain 0, none, none, some { extents := [4, 1, 1, 1, 1] }, none] }
    Runs (flying f) 1 f ∧ miOpcode f.word = 0x10 ∧ moveDenied (flying f) f = true ∧ f.puts = [] := by
  unfold Runs; decide +kernel

/-- An MCAST of both masks zero. -/
theorem witness_McastNowhere :
    let f := { mi 0x11 .issued with descs := [plain 0, none, none, plain 64, none] }
    Runs (flying f) 1 f ∧ miOpcode f.word = 0x11 ∧ mcastNowhere f = true ∧ f.puts = [] := by
  unfold Runs; decide +kernel

/-- An MI with a damaged block of slot 0 under a policy, salvage ID 3. -/
def damaged (policy : Nat) : Flight :=
  { mi 1 .damaged with descs := [plain 0], damages := [{ slot := 0, block := 0, addr := 64, detail := 5, policy := policy, salvage := 3 }] }

/-- Salvage context 0 of panel 0 serves partition 1, its table of 4 entries at 0x2000; entry 3 is valid for tensor 7 with one MI. -/
def salvaging : State :=
  rset (rset { owned with mem := Memory.write [] 0x20C0 (salvBytes
    { id := 3, flags := 1, count := 1, descM1 := 0, prog := 0x4000, descs := 0x5000, step := 0, tensorId := 7, runs := 0, last := 0 }) }
    (panelReg .jigSalvb 0 0) 0x2000) (panelReg .jigSalv 0 0) (1 + 256 + 3 * 65536)

theorem witness_DamagePark :
    (∀ policy ∈ [0, 2], Runs (flying (damaged policy)) 1 (damaged policy) ∧ (damaged policy).puts = [] ∧ (damaged policy).tried = [] ∧
      decidingDamage (damaged policy) = (damaged policy).damages.head?) ∧ salvCtx (flying (damaged 2)) 1 = none ∧
    Runs (flying (damaged 2) salvaging) 1 (damaged 2) ∧ salvCtx (flying (damaged 2) salvaging) 1 = some (0, 0) ∧
    salvAddr (flying (damaged 2) salvaging) (0, 0) 3 = some 0x20C0 ∧
    bit (salvGet (flying (damaged 2) salvaging) 1 (0, 0) 0x20C0).2.flags 0 = true ∧
    (salvGet (flying (damaged 2) salvaging) 1 (0, 0) 0x20C0).2.tensorId = 7 ∧
    ((slotDesc (damaged 2) 0).map (·.tensorId)).getD 0 = 7 ∧
    runOf (flying (damaged 2) salvaging) 1 3 = none ∧ NoLease (flying (damaged 2) salvaging) ∧
    (flying (damaged 2) salvaging).fab.asks = [] ∧ (flying (damaged 2)).fab.asks = [] := by
  unfold Runs NoLease; decide +kernel

/-- Runs that are over, one failed, with a consumer parked behind each. -/
def parkedMi : Flight := { mi 1 .parked with tried := [(3, 0)] }
def runs (failed : Bool) : State := { flying parkedMi salvaging with
  jig := { (flying parkedMi salvaging).jig with runs := [{ part := 1, id := 3, addr := 64, panel := 0, q := 0, failed := failed }] } }

theorem witness_SalvageRunEnd :
    ∀ failed, (runOf (runs failed) 1 3).isSome = true ∧
      runOver (runs failed) { part := 1, id := 3, addr := 64, panel := 0, q := 0, failed := failed } = true ∧
      parkedOn (runs failed) 1 3 = [parkedMi] ∧ (runs failed).fab.asks = [] ∧ NoLease (runs failed) := by
  unfold NoLease; decide +kernel

/-! ## CHECK, retain pools, Mitre contexts, pulls and deals -/

/-- A CHECK of unit 0 in slot 0 that compares with EXPECT 0, and the MOVE of slot 1 that it binds; the queue has 16 slots. -/
def checkMi : Flight := mi 0x30 .issued [16]
def boundMove (ph : Phase) : Flight := { mi 0x10 ph with mi := 2, slot := 1, bytes := [1, 2, 3], check := some 1 }
def checking (ph : Phase) : State :=
  let s := rset owned (panelReg .jigQbase 0 0) (4 * 2 ^ 48)
  { s with jig := { flights := [checkMi, boundMove ph], nextMi := 3 } }

theorem witness_Check :
    (∀ ph ∈ [Phase.issued, .executed], Runs (checking ph) 1 checkMi ∧ miOpcode checkMi.word = 0x30 ∧
      boundMi (checking ph) checkMi = some (boundMove ph) ∧ awaits (checking ph) 2 = false) ∧
    (boundMove .executed).puts = [] ∧ (boundMove .executed).noEffect = false ∧ chkSide checkMi = false ∧ chkResult checkMi = 0 ∧
    chkCompare checkMi = true ∧
    (crcRun (chkPoly checkMi) (chkStart (checking .executed) checkMi).1 [1, 2, 3] ^^^ crcXorOut (chkPoly checkMi)) ≠ chkExpect checkMi := by
  unfold Runs; decide +kernel

/-- Retain pool 0 of partition 1 and Mitre context 5 with two ranks, this device rank 0. -/
def retaining : State :=
  rset (rset owned (panelReg .jigRetcfg 0 0) (1 + 256 + 65536 + 2 ^ 48)) (edgeReg .mitCtx 0 5) (1 + 256 + 65536)

/-- A GATHER_RETAIN of a mode in context 5, KEY 9 (PARAMS bytes 44 to 47). -/
def retain (mode : Nat) : Flight := { mi 0x21 .issued [mode, 0, 5, 0, 9] with descs := [plain 0, none, none, plain 64] }
def kept (mode : Nat) : State := { flying (retain mode) retaining with
  jig := { (flying (retain mode) retaining).jig with retained := [{ panel := 0, n := 0, key := retKey (retain mode), step := 0, size := 16, frames := [(0, 0)] }] } }

theorem witness_RetainPools :
    (∀ mode ∈ [0, 1, 2, 3], findFlight (flying (retain mode) retaining) 1 = some (retain mode) ∧
      awake (flying (retain mode) retaining) = true ∧ miOpcode (retain mode).word = 0x21 ∧ retMode (retain mode) = mode ∧
      retPool (flying (retain mode) retaining) 1 (retPoolNo (retain mode)) = some (0, 0) ∧ ReadyMi (retain mode) [0] ∧
      ReadyMi (retain mode) [] ∧ (retain mode).run = none ∧ (retain mode).puts = []) ∧
    commOf (flying (retain 0) retaining) (retain 0) = some { c := 5, size := 2, rank := 0, limit := 655360000 } ∧
    allArrived (otherRanks { c := 5, size := 2, rank := 0, limit := 655360000 }) [{ rank := 1 }] = true ∧
    (retHit (flying (retain 1) retaining) (retain 1) (0, 0)).isSome = false ∧ (retHit (kept 1) (retain 1) (0, 0)).isSome = true ∧
    findFlight (kept 1) 1 = some (retain 1) := by
  unfold ReadyMi; decide +kernel

/-- The member table of Mitre context 63 lies at 0x3000: 3, then 4; the device's own address is 3, or 9. -/
def mitreState (own : Nat) : State :=
  let s := { owned with
    hal := { owned.hal with mgmt := { owned.hal.mgmt with dict := owned.hal.mgmt.dict ++ [obj .fabAddress 0 2 own] } }
    mem := Memory.write [] 0x3000 [3, 0, 4, 0] }
  rset s (edgeReg .mitCtxb 0 63) 0x3000

theorem witness_MitreContexts :
    ∀ x ∈ [(3, true), (9, false)], let s := mitreState x.1
      let v := 1 + 256 + 65536
      let s1 := mitAll (cancelEnable (noteAssigned s (.pf 0) (edgeReg .mitCtx 0 63) v) (edgeReg .mitCtx 0 63)) (edgeReg .mitCtx 0 63)
        fun s b => plainWrite s b v
      let g := readMembers { s1 with fab := { s1.fab with asks := [] } } 63
      NoLease s ∧ Reaches s (.pf 0) (edgeReg .mitCtx 0 63) ∧ bit v 0 = true ∧ g.2 = some [3, 4] ∧ membersOk g.1 63 [3, 4] = x.2 := by
  unfold Reaches NoLease; decide +kernel

/-- Pipe 15 of partition 1 with two ready samples and one claimed slot. -/
def pipeState (f : Flight) : State :=
  let s := rset (flying f) (ingReg .ingPipe 15) (1 + 256)
  { s with med := { pipes := [{ n := 15, ready := [{ slot := 0, flags := 0, id := 1 }, { slot := 1, flags := 0, id := 2 }], claimed := [7] }] } }

/-- INGEST_PULL of an OP on pipe 15: COUNT 1 and a MIN, with a limit. -/
def pull (op m : Nat) : Flight := { mi 0x48 .issued [op, 15, 1, 0, m, 0] with deadline := 5, descs := [none, none, none, plain 0, none] }

theorem witness_Pulls :
    ∀ x ∈ [(0, 1), (0, 2), (0, 3), (1, 0)], let f := pull x.1 x.2
      Runs (pipeState f) 1 f ∧ ReadyMi f [] ∧ miOpcode f.word = 0x48 ∧ (pullTarget (pipeState f) f).map (·.n) = some 15 ∧ f.puts = [] ∧
      pullEarlier (pipeState f) f = false ∧ pullOp f = x.1 ∧ pullCount f = 1 ∧ pullMin f = x.2 ∧ f.deadline ≠ 0 ∧
      (pullTarget (pipeState f) f).map (·.ready.length) = some 2 ∧ (pullTarget (pipeState f) f).map (·.claimed.length) = some 1 ∧ NoLease (pipeState f) := by
  unfold Runs ReadyMi NoLease; decide +kernel

/-- A MAP under SHARED over 4 elements on benches 0 and 1 of panel 0, before its first panel tile is dealt and after; and one that bench 0
has taken. -/
def sharedMi (panels : List (Nat × Nat)) (tiles : List (Nat × Nat × Nat)) : Flight :=
  { mi 0x08 .issued with word := [0x08, 0x40] ++ List.replicate 62 0, mask := 1, roster := [(0, [0, 1])], panelDeals := panels, deals := tiles
                         descs := [plain 0, none, none, plain 64, none] }

theorem witness_Deals :
    let a := sharedMi [] []
    let b := sharedMi [(0, 0)] []
    let c := sharedMi [(0, 0)] [(0, 0, 0)]
    (∀ f ∈ [a, b, c], Runs (flying f) 1 f ∧ miShared f.word = true ∧ 0 ∈ panelsOf f ∧ f.phase = .issued ∧ 1 ∈ dealtBenches f 0 ∧
      (∀ x ∈ f.waiters, x.1 ≠ 0)) ∧ (flying b).retention = [] ∧
    a.panelDeals.length < (tilePlan (flying a) a).length ∧ heldPanelTiles (flying a) a 0 < (dealLimits (flying a) a 0).2 ∧
    heldTiles b 0 1 < (dealLimits (flying b) b 0).1 ∧ ((readyTiles (flying b) b 0).head?).isSome = true ∧
    heldTiles c 0 1 < (dealLimits (flying c) c 0).1 ∧ readyTiles (flying c) c 0 = [] ∧
    -- a bench that holds as many tiles as it may, and a panel
    (let d := { c with deals := List.replicate 64 (0, 0, 0), panelDeals := List.replicate 64 (0, 0) }
     (dealLimits (flying d) d 0).1 ≤ heldTiles d 0 0 ∧ (dealLimits (flying d) d 0).2 ≤ heldPanelTiles (flying d) d 0) := by
  unfold Runs; decide +kernel

/-! ## Collectives, combiners and sums -/

/-- A COLL of an OP in context 5, over plain operands. -/
def coll (op : Nat) : Flight :=
  { mi 0x20 .issued [op, 0, 5, 0] with descs := [plain 0, none, none, plain 64, plain 128], deadline := 9 }

/-- The move list of PERMUTE: one entry, from rank 0 to rank 1, of one byte. -/
def collState (op : Nat) : State := { flying (coll op) retaining with mem := Memory.write [] 0 [0, 0, 1, 0, 0, 0, 0, 0, 0, 0, 0, 0, 1] }

theorem witness_Collectives :
    (∀ op < 6, findFlight (collState op) 1 = some (coll op) ∧ awake (collState op) = true ∧
      ReadyMi (coll op) [0] ∧ miOpcode (coll op).word = 0x20 ∧ collOp (coll op) = op ∧
      commOf (collState op) (coll op) = some { c := 5, size := 2, rank := 0, limit := 655360000 } ∧
      (allArrived (neededRanks (collState op) { c := 5, size := 2, rank := 0, limit := 655360000 } (coll op)) [] = false) ∧
      allArrived (neededRanks (collState op) { c := 5, size := 2, rank := 0, limit := 655360000 } (coll op)) [{ rank := 1, op := 9 }] = true ∧
      matched (coll op) [{ rank := 1, op := 9 }] = false ∧ (coll op).puts = [] ∧ waitsMembers (coll op) = true) := by
  unfold ReadyMi; decide +kernel

/-- An MMA over two blocks of 32: its combiner has the first block, or nothing. -/
def mma : Flight :=
  { mi 0x02 .waiting with descs := [some { extents := [64, 1, 1, 1, 1], tier := 2 }, some { extents := [64, 1, 1, 1, 1], tier := 2 }, none, plain 64, none] }
def combining : State := { flying mma with jig := { (flying mma).jig with combs := [{ mi := 1, nb := 2, partials := [{ count := 1 }] }] } }

theorem witness_Combiners :
    findFlight combining 1 = some mma ∧ miOpcode mma.word = 0x02 ∧ (mma.phase = .issued ∨ mma.phase = .waiting) ∧
    (findComb combining 1).isSome = true ∧ findComb (flying mma) 1 = none ∧ combBlocks (flying mma) mma = 2 ∧
    (slotDesc mma 0).isSome = true ∧ (slotDesc mma 1).isSome = true ∧ (slotDesc mma 3).isSome = true ∧
    -- a second first block, a block beyond the last, a count of 0
    partialsOverlap { count := 1 } { count := 1 } = true ∧ (2 < 2 + 1) ∧ ({ count := 0 } : Partial).count = 0 ∧
    -- the second block completes the combiner; the first leaves it open, and its last flag ends the MI
    (let p : Partial := { first := 1, count := 1 }
     p.count ≠ 0 ∧ p.first + p.count ≤ 2 ∧ partialsOverlap p { count := 1 } = false ∧
      combComplete { mi := 1, nb := 2, partials := [{ count := 1 }, p] } 1 1 = true ∧
      (∀ last, combComplete { mi := 1, nb := 2, partials := [{ p with last := last }] } 1 1 = false)) := by
  decide +kernel

theorem witness_NarrowBlocks (v w : Val × Val) : [v, w].Perm [w, v] := List.Perm.swap ..

/-- Three blocks of the tree in the parts 2 and 1, in the order of their arrival. -/
theorem witness_CombinerIsTheTree (a b c : Acc) :
    coverageOk 3 ([(2, 1, c), (0, 2, treeRoot [a, b])].map fun e => (e.1, e.2.1)) = true ∧
    ∀ e ∈ [(2, 1, c), (0, 2, treeRoot [a, b])], isNodeRange 3 e.1 e.2.1 (rangeAligned e.1 e.2.1) = true ∧
      e.2.2 = treeRoot (([a, b, c].drop e.1).take e.2.1) := by
  have h2 : isNodeRange 3 2 1 (rangeAligned 2 1) = true ∧ isNodeRange 3 0 2 (rangeAligned 0 2) = true := by decide +kernel
  refine ⟨by simp only [List.map]; decide +kernel, fun e h => ?_⟩
  simp only [List.mem_cons, List.not_mem_nil, or_false] at h
  rcases h with rfl | rfl
  · exact ⟨h2.1, rfl⟩
  · exact ⟨h2.2, rfl⟩

/-! ## Drawers, DRAM, retention, translations, check units -/

theorem quiet_none (s : State) (h : gnum s .faultRing = 0) : QuietRecord s none := ⟨h, fun _ e => by cases e⟩

theorem quiet_some (s : State) (p : Nat) (h : gnum s .faultRing = 0 ∧ ringCtx s p 0 = none) : QuietRecord s (some p) :=
  ⟨h.1, fun _ e => by cases e; exact h.2⟩

/-- Port B's beat of 256 bytes covers the word 7 of port A. -/
theorem witness_PortCollision :
    sharedWord (8 * 7) 8 0 256 = some 56 ∧ findFlight (flying (mi 1 .issued)) 1 = some (mi 1 .issued) ∧
    CanonicalMemory (flying (mi 1 .issued)) ∧ poisonFree (flying (mi 1 .issued)) (drawerBase 15 33 + 56) 8 = true ∧
    poisonFree (flying (mi 1 .issued)) (drawerBase 15 33) 256 = true ∧
    rbit (flying (mi 1 .issued)) (benchReg .drwCollide 15 33 0) 63 = false := by
  unfold CanonicalMemory; decide +kernel

theorem witness_BuntingParity : findFlight (flying (mi 1 .issued)) 1 = some (mi 1 .issued) ∧
    QuietRecord (flying (mi 1 .issued)) (some (mi 1 .issued).part) :=
  ⟨by decide +kernel, quiet_some _ _ (by decide +kernel)⟩

/-- A slice that nobody holds, and an unmapped address. -/
theorem witness_RegionRefusal :
    physRefusal (flying (mi 1 .issued)) { part := some 1, master := 2 } (sideboardBase 15) 4 true = some (2, 0x0100) ∧
    physRefusal (flying (mi 1 .issued)) { part := some 1, master := 1 } (drawerBase 3 4) 4 true = some (1, 0x0100) ∧
    findFlight (flying (mi 1 .issued)) 1 = some (mi 1 .issued) ∧ (∀ p b, regionOf (sideboardBase 15) ≠ .drawer p b) ∧
    QuietRecord (flying (mi 1 .issued)) (some 1) := by
  refine ⟨by decide +kernel, by decide +kernel, by decide +kernel, fun p b => ?_, quiet_some _ _ (by decide +kernel)⟩
  have e : regionOf (sideboardBase 15) = .sideboard 15 := by decide +kernel
  rw [e]; exact nofun

theorem witness_HotBank :
    gnum { owned with hal := { owned.hal with mgmt := { owned.hal.mgmt with dict := [obj .memHotbankEnable 0 1 0] } } } .memHotbankEnable = 0 ∧
    gnum owned .memHotbankEnable ≠ 0 ∧ (dramChanOf owned 0).isSome = true ∧ (dramChanOf owned 0x010000000000).isSome = true ∧
    gnum owned .faultRing = 0 ∧ rbit owned (edgeReg .lpxHot 3 0) 63 = false ∧ (hotPlace owned 0).isSome = true ∧
    (hotPlace owned 0x010000000000).isSome = true ∧ (∀ ch, (hotWindow owned ch).1 + hotThreshold owned ≤ 65536) ∧
    (∀ ch, (hotWindow owned ch).2 = []) ∧ 0 < hotThreshold owned := by
  refine ⟨by decide +kernel, by decide +kernel, by decide +kernel, by decide +kernel, by decide +kernel, by decide +kernel,
    by decide +kernel, by decide +kernel, fun ch => ?_, fun _ => rfl, by decide +kernel⟩
  show 0 + hotThreshold owned ≤ 65536
  decide +kernel

theorem witness_DramErrors :
    (∃ ch, dramChanOf (flying (mi 1 .issued)) (granule 0x1003F) = some ch) ∧
    (frameOf (granule 0x1003F)).bind (frameOwner (flying (mi 1 .issued))) = some 1 ∧ QuietRecord (flying (mi 1 .issued)) (some 1) ∧
    findFlight (flying (mi 1 .issued)) 1 = some (mi 1 .issued) ∧ (∀ d ∈ (mi 1 .issued).descs, ∀ e, d = some e → e.comp = 0) ∧
    isPoison (flying (mi 1 .issued)) (granule 0x1003F) = false ∧
    (∀ x ∈ [(Region.hbm, 0, 0, Decoded.clean), (.hbm, 3, 0, .corrected), (.hbm, 4, 0, .uncorrectable), (.hbm, 3, 1, .uncorrectable),
      (.hbm, 6, 0, .beyond), (.lpddr, 0, 0, .clean), (.lpddr, 1, 0, .corrected), (.lpddr, 3, 0, .uncorrectable), (.lpddr, 4, 0, .beyond)],
      decodeOutcome x.1 x.2.1 x.2.2.1 = x.2.2.2) ∧ CanonicalMemory (flying (mi 1 .issued)) :=
  ⟨Option.isSome_iff_exists.mp (by decide +kernel), by decide +kernel, quiet_some _ _ (by decide +kernel), by decide +kernel, nofun,
    by decide +kernel, by decide +kernel, rfl⟩

/-- Bench 33 and slice 15 of panel 15 are wanted in retention, and held, and waking. -/
def wanted : State := rset State.reset (panelReg .pwrRet 15 0) (2 ^ 31 + 2 ^ 51)
def heldUnits (ph : RetPhase) : State := { wanted with retention := [(15, .bench 31, ph), (15, .slice 15, ph)] }
def busyBench : State := flying { mi 1 .issued with mask := 1, roster := [(0, [0, 1])] }

theorem witness_Retention :
    (∀ u ∈ [RetUnit.bench 31, .slice 15], rbit wanted (panelReg .pwrRet 15 0) (retBit u) = true ∧ wanted.retention = [] ∧
      unitIdle wanted 15 u = true ∧
      ((heldUnits .held).retention.find? fun e => e.1 == 15 && e.2.1 == u) = some (15, u, .held) ∧
      ((heldUnits .entering).retention.find? fun e => e.1 == 15 && e.2.1 == u) = some (15, u, .entering) ∧
      unitIdle (heldUnits .entering) 15 u = true ∧ (15, u, .waking) ∈ (heldUnits .waking).retention) ∧
    unitIdle busyBench 0 (.bench 1) = false ∧ Reaches (heldUnits .held) (.pf 0) (panelReg .pwrRet 15 0) ∧
    bit (2 ^ 51) (retBit (.slice 15)) = true ∧ bit (2 ^ 51) (retBit (.bench 31)) = false := by
  unfold Reaches; decide +kernel

theorem witness_Invalidation :
    Reaches owned (.pf 0) (halReg .prtMmuinv) ∧ bit (3 + 256) 0 = true ∧ owned.mmu.inval = none ∧
    ({ owned with mmu := { owned.mmu with inval := some { all := false, part := 1, addr := 0 } } } : State).mmu.inval ≠ none := by
  unfold Reaches; decide +kernel

theorem witness_CheckUnits :
    ∀ id ∈ [RegId.chkCtl, .chkState, .chkCnt], Reaches (checking .issued) (.pf 0) (panelReg id 15 3) ∧
      unitBound (checking .issued) 15 3 = false ∧ Reaches (checking .issued) (.pf 0) (panelReg id 0 0) ∧
      unitBound (checking .issued) 0 0 = true := by
  unfold Reaches; decide +kernel

/-! ## Media dies and the ingest pipeline -/

/-- A context block: 8 by 8 pixels, 16 jobs at 0x10000, 16 records at 0x20000, two slots (or 64 KiB) at 0x30000. -/
def ctxBlock (encode : Bool) : List Nat :=
  [if encode then 1 else 0, 0, 0, 1] ++ leBytes 2 8 ++ leBytes 2 8 ++ leBytes 4 1 ++ leBytes 4 1 ++ leBytes 6 0x10000 ++ [4, 4] ++
  leBytes 6 0x20000 ++ leBytes 6 0 ++ leBytes 6 0x30000 ++ [if encode then 16 else 1] ++ List.replicate 21 0

def medWord : Nat := 1 + 256 + 0x40 * 65536
def medMem : State := { owned with mem := Memory.write [] 0x1000 (ctxBlock false) }

theorem witness_MediaContexts :
    let a := medReg .medCtx 1 31
    let g := partGet (enabling medMem (.pf 0) a medWord) (medReq 1) 1 0x1000 64
    NoLease medMem ∧
    bits medWord 15 8 = 1 ∧ bits medWord 57 16 * 64 = 0x1000 ∧ Reaches medMem (.pf 0) a ∧ bit medWord 0 = true ∧
    g.cond = none ∧ ctxBlockOk 31 g.bytes = true ∧ ctxAreasOk g.s 1 g.bytes = true ∧ dieSumsOk (g.bytes :: []) = true ∧
    medMem.retention = [] ∧ medMem.med.ctxs = [] ∧
    -- a block of zeros is refused
    ctxBlockOk 31 (partGet (enabling owned (.pf 0) a medWord) (medReq 1) 1 0x1000 64).bytes = false ∧
    bit 256 0 = false ∧ Reaches medMem (.pf 0) (medReg .medCptr 1 47) := by
  unfold Reaches NoLease; decide +kernel

/-- Context 31, or the encoder 47, of die 1 with a job read, or waiting. -/
def medCtx (encode : Bool) (held : Option (Picture × Nat)) : MedCtx :=
  { die := 1, c := if encode then 47 else 31, block := ctxBlock encode, jobs := [(1, 5)], held := held }
def medState (m : MedCtx) (s : State := owned) : State :=
  { rset (rset s (medReg .medCtx 1 m.c) (1 + 256)) (medReg .medCptr 1 m.c) 1 with med := { ctxs := [m] } }
/-- The bitstream job of the encoder lies at 0x10000. -/
def picture : Picture := { width := 8, height := 8, samples := List.replicate 96 1 }

theorem recordHere (s : State) (m : MedCtx) (pa : Nat)
    (h : medRoom s m ≠ 0 ∧ cbRecs m.block ≤ 4096 ∧
      (cbOutRing m.block + 32 * (rfield s (medReg .medCptr m.die m.c) 63 48 % cbRecs m.block)) % 0x10000 + 32 ≤ 0x10000 ∧
      translates s (medPart s m) (cbOutRing m.block + 32 * (rfield s (medReg .medCptr m.die m.c) 63 48 % cbRecs m.block)) true pa = true ∧
      regionOf pa ≠ .neighbor ∧ physRefusal s (medReq (medPart s m)) pa 32 true = none ∧ poisonFree s pa 32 = true ∧ s.retention = [] ∧
      (m.irq = true ∨ cbMsix m.block < msixVectors (partFn s (medPart s m)))) : RecordHere s s m pa :=
  ⟨h.1, h.2.1, h.2.2.1, translates_maps _ _ _ _ _ h.2.2.2.1, h.2.2.2.2⟩

theorem witness_DecodeEvents :
    let m := medCtx false none
    findMed (medState m) 1 31 = some m ∧ cbEncode m.block = false ∧ m.held = none ∧ m.jobs[0]? = some (1, 5) ∧ m.refused = false ∧
    bit 1 0 = true ∧ RecordHere (medState m) (medState m) m 0x20000 := by
  exact ⟨by decide +kernel, by decide +kernel, rfl, rfl, rfl, rfl, recordHere _ _ _ (by decide +kernel)⟩

theorem witness_DecodedPictures :
    let m := medCtx false none
    let p : Picture := { concealed m.block picture with ref := none, mvs := [] }
    let h := medCtx false (some (p, 5))
    let w := writeFrame (medState h) h 0 p
    findMed (medState m) 1 31 = some m ∧ findMed (medState h) 1 31 = some h ∧ cbEncode m.block = false ∧ cbToIngest m.block = false ∧
    picture.width ≤ cbWidth m.block ∧ picture.height ≤ cbHeight m.block ∧ m.last = none ∧ m.outIndex % 2 ^ cbAreaLog2 m.block = 0 ∧
    medRoom (medState h) h ≠ 0 ∧ m.recs.contains (some 0) = false ∧ RecordHere w w h 0x20000 ∧
    -- a full ring, and a slot whose record is not consumed
    medRoom (rset (medState h) (medReg .medCptr 1 31) (15 * 2 ^ 48)) h = 0 ∧ [some 0, none].contains (some 0) = true := by
  refine ⟨by decide +kernel, by decide +kernel, by decide +kernel, by decide +kernel, by decide +kernel, by decide +kernel, rfl,
    by decide +kernel, by decide +kernel, by decide +kernel, recordHere _ _ _ (by decide +kernel), by decide +kernel, by decide +kernel⟩

theorem witness_EncodedPictures :
    let m := medCtx true none
    let j := nextJob (medState m) m
    let w := writeChunk (partGet (j.map (·.1)).get! (medReq 1) 1 0 (slotPicBytes m.block)).s m [1, 2]
    (medState m).fab.asks = [] ∧ NoLease (medState m) ∧ findMed (medState m) 1 47 = some m ∧ cbEncode m.block = true ∧ j.isSome = true ∧ leAt ((j.map (·.2)).getD []) 0 6 = 0 ∧
    medPart (medState m) m = 1 ∧ medRoom (medState m) m ≠ 0 ∧ cbSubframe m.block = false ∧ [[1], [2]].flatten = [1, 2] ∧
    RecordHere (j.map (·.1)).get! (j.map (·.1)).get! m 0x20000 ∧ RecordHere w w m 0x20000 := by
  refine ⟨rfl, by unfold NoLease; decide +kernel, by decide +kernel, by decide +kernel, by decide +kernel, by decide +kernel,
    by decide +kernel, by decide +kernel, by decide +kernel, rfl, recordHere _ _ _ (by decide +kernel), recordHere _ _ _ (by decide +kernel)⟩

/-- A pipe block: one level of 1 by 1 from 2 by 2 pictures read from memory, two slots of 64 bytes in slice 0 of panel 0. -/
def pipeBlock : List Nat :=
  [36, 0, 0, 1] ++ leBytes 2 2 ++ leBytes 2 2 ++ leBytes 2 1 ++ leBytes 2 1 ++ [1, 1, 1, 255] ++ leBytes 6 0x8000 ++ leBytes 6 0 ++
  [1, 4, 4, 0] ++ leBytes 4 64 ++ leBytes 2 1 ++ leBytes 4 0 ++ leBytes 6 0x4000 ++ leBytes 6 0x5000 ++ leBytes 2 1 ++ leBytes 6 0x6000 ++
  List.replicate 66 0

def pipeWord : Nat := 1 + 256 + 0x40 * 65536
def pipeMem : State := { sliced with mem := Memory.write [] 0x1000 pipeBlock }

theorem witness_PipeEnable :
    let a := ingReg .ingPipe 15
    let g := partGet (enabling pipeMem (.pf 0) a pipeWord) (ingReq 1) 1 0x1000 128
    NoLease pipeMem ∧
    bits pipeWord 15 8 = 1 ∧ bits pipeWord 57 16 * 64 = 0x1000 ∧ Reaches pipeMem (.pf 0) a ∧ bit pipeWord 0 = true ∧ g.cond = none ∧
    pipeBlockOk g.bytes = true ∧ slotsGranted g.s 1 g.bytes = true ∧
    (partGet g.s (ingReq 1) 1 (ppParams g.bytes) 12428).cond = none ∧ findPipe pipeMem 15 = none ∧
    NoRequestWaits pipeMem { n := 15, block := g.bytes } ∧ pipeMem.retention = [] ∧
    -- a block of zeros, and slots in a slice of nobody
    pipeBlockOk (List.replicate 128 0) = false ∧ slotsGranted owned 1 pipeBlock = false := by
  unfold Reaches NoRequestWaits NoLease; decide +kernel

/-- A request in hand for a picture in memory, with the X0 of its box. -/
def req (tries x0 : Nat) : IngReq :=
  { index := 3, id := 9, tries := tries, bytes := leBytes 8 9 ++ [1, 0] ++ leBytes 6 0x9000 ++ leBytes 4 x0 ++ List.replicate 12 0 }
def pipeWith (r : List IngReq) : IngPipe := { n := 15, block := pipeBlock, reqs := r, nextIndex := 4 }
def piped (r : List IngReq) (s : State := sliced) : State :=
  { rset s (ingReg .ingPipe 15) (1 + 256) with med := { pipes := [pipeWith r] } }

theorem witness_Requests :
    let s := piped []
    let ptr := ingReg .ingRptr 15
    NoLease s ∧ Reaches s (.pf 0) ptr ∧ findPipe s 15 = some (pipeWith []) ∧ pipeStopped s 15 = false ∧ (pipeWith []).reqs.length < 16 ∧
    ppReqs pipeBlock ≤ 4096 ∧ (rfield s ptr 31 16 + 1) % ppReqs pipeBlock = 1 % ppReqs pipeBlock ∧
    rfield s ptr 31 16 % ppReqs pipeBlock ≠ 1 % ppReqs pipeBlock ∧
    (partGet (plainWrite s ptr 1) (ingReq (pipePart s 15)) (pipePart s 15) (ppReqRing pipeBlock) 32).cond = none ∧
    Reaches s (.pf 0) (ingReg .ingQstat 15) ∧ bit (2 ^ 33) 33 = true ∧ NoRequestWaits s (pipeWith []) := by
  unfold Reaches NoRequestWaits NoLease; decide +kernel

theorem witness_SampleReady :
    let s := piped [req 0 0]
    let p := pipeWith [req 0 0]
    NoLease s ∧ s.fab.asks = [] ∧ findPipe s 15 = some p ∧ NoRequestWaits s p ∧ p.reqs.find? (·.index == 3) = some (req 0 0) ∧ slotFor p (req 0 0) = some 0 ∧
    pipeStopped s 15 = false ∧ reqComplete p (req 0 0) = true ∧ (skipReason s p (req 0 0)).1 = none ∧
    slotRefused s (pipePart s 15) p.block 0 = none ∧ s.retention = [] ∧
    (∀ x ∈ sampleImage p.block p.params (req 0 0).bytes (reqPictures s p (req 0 0)).pics,
      x.2 ≠ [] ∧ x.1 + x.2.length ≤ ppSlotBytes p.block) ∧ ppLowWater p.block + ppHyst p.block ≤ 0 := by
  unfold NoRequestWaits NoLease; decide +kernel

/-- Requests whose box is not finite, before the first spare and after the third; and a pipe whose slots nobody grants. -/
theorem witness_SampleSkip :
    (∀ tries ∈ [2, 3], let r := req tries 0x7F800000
      let s := piped [r]
      NoLease s ∧ s.fab.asks = [] ∧ findPipe s 15 = some (pipeWith [r]) ∧ NoRequestWaits s (pipeWith [r]) ∧ (pipeWith [r]).reqs.find? (·.index == 3) = some r ∧
      pipeStopped s 15 = false ∧ ringCtx s (pipePart s 15) 0 = none ∧ s.retention = [] ∧ skipReason s (pipeWith [r]) r = (some 3, s) ∧
      ppSpares pipeBlock ≠ 0 ∧ (partGet s (ingReq 1) 1 (ppSpareList pipeBlock) 32).cond = none ∧ pipePart s 15 = 1 ∧
      (partPut (partGet s (ingReq 1) 1 (ppSpareList pipeBlock) 32).s (ingReq 1) 1 (ppSkipLog pipeBlock) (List.replicate 32 0)).cond = none) ∧
    (let r := req 0 0
     let s := piped [r] owned
     slotFor (pipeWith [r]) r = some 0 ∧ (slotRefused s (pipePart s 15) pipeBlock 0).isSome = true ∧ reqComplete (pipeWith [r]) r = true ∧
      (skipReason s (pipeWith [r]) r).1 = none ∧ gnum s .faultRing = 0 ∧ ringCtx s 1 0 = none) := by
  unfold NoRequestWaits NoLease; decide +kernel

/-! ## The fabric -/

/-- The device has address 3; its ports are UP with partners; the route to address 4 is port 5, and there is none to address 6. -/
def onFabric (v : Port := { state := 2, lanes := 8, nbrValid := true, credits := [(1, 4)] }) : State :=
  { owned with
    hal := { owned.hal with mgmt := { owned.hal.mgmt with dict := owned.hal.mgmt.dict ++
      [obj .fabAddress 0 2 3, ({ id := .fabRouteBlockB }, [255, 255, 245, 255]), obj .fabManagerEnable 0 1 1] } }
    fab := { owned.fab with ports := List.replicate 12 v } }

/-- A packet from address 4 to this device with a good CRC. -/
def sealed (k : Packet) : Packet := { k with crc := packetCrc k }
def packet (op : Nat) (payload : List Nat := []) (addr : Nat := 0x100) (len : Nat := 4) : Packet :=
  sealed { dst := 3, src := 4, vc := 1, op := op, tag := 7, addr := addr, len := len, payload := payload }

/-- A good flit of a SEQ with two credits for VC 1. -/
def goodFlit (seq : Nat) : List Nat := flitBytes 1 seq 0 false 1 2 []

theorem witness_Flits :
    (∀ p ∈ [0, 11], Trained (onFabric) p) ∧
    crc 1 (((0x55 :: (goodFlit 0).drop 1)).take 252) ≠ leAt (0x55 :: (goodFlit 0).drop 1) 252 4 ∧
    (∀ seq ∈ [0, 2048, 4095], crc 1 ((goodFlit seq).take 252) = leAt (goodFlit seq) 252 4) ∧
    (portAt onFabric 11).rxSeq = 0 ∧ 2048 ≤ seqAhead 0 (bits (leAt (goodFlit 2048) 0 8) 15 4) ∧
    2048 ≤ seqAhead 0 (bits (leAt (goodFlit 4095) 0 8) 15 4) ∧ bits (leAt (goodFlit 0) 0 8) 15 4 = 0 ∧
    bits (leAt (goodFlit 0) 0 8) 3 0 ≠ 0 ∧ bits (leAt (goodFlit 0) 0 8) 28 28 = 0 ∧ (portAt onFabric 11).queue = [] ∧
    (portAt onFabric 11).ctl = [] := by
  unfold Trained; decide +kernel

theorem witness_Naks :
    ∀ n ∈ [0, 6, 7], let v : Port := { state := 2, replay := [{ seq := 4095, kind := 1, body := [] }], replayed := (4095, n) }
      Trained (onFabric v) 11 ∧ (portAt (onFabric v) 11).replay.findIdx? (fun e => e.seq == 4095) = some 0 ∧
      ((portAt (onFabric v) 11).replayed.1 = 4095 ∧ 7 ≤ (portAt (onFabric v) 11).replayed.2 ↔ n = 7) ∧ gnum (onFabric v) .faultRing = 0 ∧
      (portAt (onFabric v) 11).queue = [] ∧ (portAt (onFabric v) 11).ctl = [] := by
  unfold Trained; decide +kernel

theorem witness_PortStates :
    ∀ st ∈ [0, 2, 3], let s := onFabric { state := st }
      11 < s.fab.ports.length ∧ awake s = true ∧ (portAt s 11).queue = [] ∧ (portAt s 11).ctl = [] ∧ NoLease s ∧
      (portAt s 11).state = st ∧ gnum s .faultRing = 0 := by
  unfold NoLease; decide +kernel

theorem witness_Hellos :
    Trained onFabric 11 ∧ gnum onFabric .faultRing = 0 ∧ (managerPair onFabric).isSome = true ∧ selfAddr onFabric = 3 ∧
    (3 : Nat) ≠ 0xFFFF ∧ (4 : Nat) ≠ selfAddr onFabric ∧ (portAt onFabric 11).nbrValid = true ∧
    Config.serial + 1 ≠ Config.serial := by
  refine ⟨by unfold Trained; decide +kernel, by decide +kernel, ?_, by decide +kernel, by decide, by decide +kernel, by decide +kernel,
    by omega⟩
  decide +kernel

theorem arrives (s : State) (p : Nat) (k : Packet) (h : p < s.fab.ports.length ∧ 2 ≤ (portAt s p).state ∧ addressed s k = true ∧
    k.dst ≠ 0xFFFF ∧ routeTo s k = .here ∧ k.crc = packetCrc k) : ArrivesHere s p k :=
  ⟨⟨h.1, h.2.1⟩, h.2.2⟩

/-- A request that was served before. -/
def servedState (k : Packet) : State := { onFabric with fab := { (onFabric).fab with served := [(k, {})] } }

/-- An active lease of partition 1, whose addresses from 0x400000 on lie in its window. -/
def borrowing : State := { onFabric with
  hal := { (onFabric).hal with mgmt := { (onFabric).hal.mgmt with dict := (onFabric).hal.mgmt.dict ++
    [objAt .leaseState 255 0 1 3, objAt .leaseLender 255 0 2 4, objAt .leaseId 255 0 4 6, objAt .leasePartition 255 0 1 1,
      objAt .leaseSize 255 0 8 0x200000] } }
  mmu := { tlb := { part := 1, va := 0x400000, size := 0x200000, pa := 0x800000000000, read := true, write := true } :: owned.mmu.tlb }
  fab := { (onFabric).fab with leases := [{ side := .borrower, slot := 255, peer := 4, remoteBase := 0, notice := 5, alive := 0 }] } }

theorem witness_Requests_served :
    (∀ k ∈ [packet 0, packet 0 [] 0xFFC 4, packet 0 [] 0xFFD 4, packet 2 [1, 2], packet 2 [1, 2] 0xFFF, packet 4 [1, 0, 0, 0],
        packet 6 [1]], ArrivesHere onFabric 11 k ∧ k.order = false ∧ k.lease = 0 ∧ k.vc < 256 ∧ servedBefore onFabric k = none) ∧
    (onFabric).fab.jobs = [] ∧ crosses 0xFFC 4 = false ∧ crosses 0xFFD 4 = true ∧ crosses 0xFFF 2 = true ∧ crosses 0x100 2 = false ∧
    (let k := packet 0 [] 0xFFC 4
     (wholeGet (noAsks (bufferFreed onFabric 11 k)) { part := some 1 } 1 0xFFC 4).s.fab.asks = []) ∧
    (let k := packet 2 [1, 2]
     jobAwaits (wholePut (bufferFreed onFabric 11 k) { part := some 1, job := some 0 } 1 0x100 [1, 2]).s 0 = false) ∧
    (let k := packet 0 [] 0x400000 4
     ArrivesHere borrowing 11 k ∧ crosses k.addr k.len = false ∧
      (wholeGet (noAsks (bufferFreed borrowing 11 k)) { part := some 1 } 1 0x400000 4).s.fab.asks ≠ []) ∧
    (∀ x ∈ [(0, 4, 4), (1, 8, 8), (2, 8, 8), (3, 16, 8)], (List.replicate x.2.1 1).length = [4, 8, 8, 16].getD x.1 0 ∧
      let k := sealed { packet 4 (List.replicate x.2.1 1) with aop := x.1 }
      let g := wholeGet (noAsks (bufferFreed onFabric 11 k)) { part := some 1 } 1 k.addr x.2.2
      ArrivesHere onFabric 11 k ∧ g.cond = none ∧ g.s.fab.asks = []) ∧
    (let k := sealed { packet 2 [1, 2] with lease := 9 }
     ArrivesHere onFabric 11 k ∧ lentFor onFabric k 2 = false ∧ servedBefore onFabric k = none ∧ jobAwaits onFabric 0 = false) ∧
    (∀ k ∈ [packet 2 [1, 2], packet 4 [1, 0, 0, 0]], ArrivesHere (servedState k) 11 k ∧ servedBefore (servedState k) k = some {}) ∧
    packetCrc (packet 2 [1]) + 1 ≠ packetCrc (packet 2 [1]) := by
  unfold ArrivesHere Trained; decide +kernel

theorem witness_FlowOrder :
    ∀ n ∈ [0, 1, 255, 256, 65279], let k := sealed { packet 2 [1] with order := true, fseq := n }
      ArrivesHere onFabric 11 k ∧ k.order = true ∧ k.op = 2 ∧ (k.fseq + 65536 - dueFseq onFabric k) % 65536 = n ∧
      (onFabric).fab.reseq = [] := by
  unfold ArrivesHere Trained; decide +kernel

/-- Packets for address 4, with hops and credits left or not, and for address 6; a source-routed message with one device to go. -/
theorem witness_Forwarding :
    (∀ x ∈ [(4, 1, 2, true), (4, 1, 1, true), (4, 2, 2, false)],
      let k := sealed { dst := x.1, src := 9, vc := x.2.1, op := 1, hopsLeft := x.2.2.1 }
      Trained onFabric 0 ∧ addressed onFabric k = true ∧ k.dst ≠ 0xFFFF ∧ routeTo onFabric k = .port 5 ∧
      routeTo onFabric (nextHop k k.addr) = .port 5 ∧ canSend (bufferFreed onFabric 0 k) 5 (nextHop k k.addr) = x.2.2.2 ∧ (portAt onFabric 5).queue = []) ∧
    (let k := sealed { dst := 6, src := 9, vc := 1, op := 1 }
     routeTo onFabric k = .nowhere ∧ routeTo onFabric (nextHop k k.addr) = .nowhere ∧ addressed onFabric k = true) ∧
    (let k := sealed { dst := 0xFFFF, vc := 256, op := 6, addr := 2 ^ 32 + 11 }
     addressed State.reset k = true ∧ bits k.addr 39 32 ≠ 0 ∧ bits k.addr 3 0 = 11 ∧ 1 < k.hopsLeft ∧ k.crc = packetCrc k) := by
  unfold Trained; decide +kernel

/-- A request with TAG 7 of MI 1 to address 4, resent `n` times. -/
def request (op n : Nat) : Request := { tag := 7, pkt := { dst := 4, src := 3, op := op, len := 4 }, mi := some 1, va := 5, sent := 0, resends := n }
def asking (op n : Nat) : State :=
  let s := flying (mi 1 .waiting) onFabric
  { s with fab := { s.fab with requests := [request op n] } }

theorem witness_Answers :
    (∀ x ∈ [(1, 0), (3, 2), (5, 4), (7, 6), (9, 0), (8, 6)], ∀ n ∈ [0, 2, 3], ∀ st ∈ [0, 2, 6],
      let k := sealed { dst := 3, src := 4, vc := 1, op := x.1, tag := 7, status := st, payload := [1, 2, 3, 4] }
      ArrivesHere (asking x.2 n) 11 k ∧ findRequest (asking x.2 n) 7 = some (request x.2 n) ∧ (request x.2 n).pkt.dst = k.src ∧
      findFlight (asking x.2 n) 1 = some (mi 1 .waiting) ∧ routeTo (asking x.2 n) (request x.2 n).pkt = .port 5 ∧
      (asking x.2 n).fab.backlog = [] ∧
      addressed (asking x.2 n) (request x.2 n).pkt = true ∧ ∀ r ∈ (asking x.2 n).fab.requests, r.mi = some 1 → r.tag = 7) ∧
    miOpcode (mi 1 .waiting).word ≠ 0x40 ∧ miOpcode (mi 1 .waiting).word ≠ 0x42 := by
  unfold ArrivesHere Trained; decide +kernel

theorem witness_Routes :
    routeTo onFabric { dst := 4 } = .port 5 ∧
    let s := (List.range 12).foldl (fun s p => rset s (portReg .azfPcfg p) (2 ^ 24)) onFabric
    routeTo s { dst := 4 } = .port 5 ∧ ∀ p < 12, rbit s (portReg .azfPcfg p) 24 = true := by
  decide +kernel

/-- A schedule of slots of 1 µs with G 100 ns and 3 slots, in the dictionary and in force. -/
def plan : SchedPlan := { len := 1000, guard := 100, period := 3, origin := 50, maps := [[1]] }
def scheduled (st offset : Nat) : State :=
  { onFabric with
    hal := { (onFabric).hal with mgmt := { (onFabric).hal.mgmt with dict := (onFabric).hal.mgmt.dict ++
      [obj .fabSchedSlotLen 0 2 1, obj .fabSchedPeriod 0 2 3, obj .penAsymAllow 0 2 0] } }
    fab := { (onFabric).fab with sched := st, plan := some plan }
    pen := { (onFabric).pen with offsets := [offset] } }

theorem witness_Schedules :
    (∀ x ∈ [(1, 0), (2, 51), (3, 25)], (∀ v ∈ (scheduled x.1 x.2).fab.ports, v.queue = [] ∧ v.ctl = [] ∧ v.replay.length < 2048) ∧ (scheduled x.1 x.2).fab.ports.length = 12 ∧
      0 < (dictPlan (scheduled x.1 x.2)).len ∧ 0 < (dictPlan (scheduled x.1 x.2)).period ∧ gnum (scheduled x.1 x.2) .faultRing = 0 ∧
      timeError (scheduled x.1 x.2) = x.2 ∧ (scheduled x.1 x.2).fab.enterAt = none ∧ Trained (scheduled x.1 x.2) 11) ∧
    plan.guard / 2 < 51 ∧ 25 ≤ plan.guard / 4 ∧ 0 < plan.len ∧ 0 < plan.period ∧
    (portAt (onFabric { state := 2, exited := true }) 11).exited = true := by
  unfold Trained; decide +kernel

theorem witness_HeldRoutes :
    let s := { owned with fab := { owned.fab with copying := true, heldRoutes := [({ id := .fabRouteBlockB }, [1]), ({ id := .fabRouteBlockB, i := 127 }, [2])] } }
    s.fab.copying = true ∧ ∀ x ∈ s.fab.heldRoutes, ∀ y ∈ s.fab.heldRoutes, x.1 = y.1 → x = y := by
  decide +kernel

/-! ## The pennant line -/

/-- A frame with a good CRC. -/
def frame (type origin : Nat) (body : List Nat) : PenFrame :=
  let bs := [type, origin, 0, 0, 0, 0] ++ (body ++ List.replicate 8 0).take 8
  { bytes := bs, crc := crc 3 bs }

/-- The module at position 2 of an open ring, master or not, its time adopted or not. -/
def inRing (master adopted : Bool) : State :=
  { owned with pen := { bypassOpen := true, position := 2, master := master, adopted := adopted } }

theorem witness_PennantFrames :
    (frame 1 3 [1]).crc + 1 ≠ crc 3 (frame 1 3 [1]).bytes ∧ gnum owned .faultRing = 0 ∧
    (∀ type < 8, ∀ origin ∈ [2, 3], (frame type origin [1]).crc = crc 3 (frame type origin [1]).bytes ∧
      penType (frame type origin [1]) = type ∧ penOrigin (frame type origin [1]) = origin) ∧
    (∀ m a, (inRing m a).pen.position = 2 ∧ (inRing m a).pen.master = m ∧ (inRing m a).pen.adopted = a ∧ (inRing m a).pen.bypassOpen = true) ∧
    -- offsets of 1,000 ns and 1,001 ns
    (∀ n ∈ [1000, 1001], ((16 * (penBody (frame 1 3 (leBytes 8 n)) 0 8 : Int) + penCorr (frame 1 3 (leBytes 8 n)) +
      (inRing false true).pen.delay + trim16 (inRing false true)) / 16 - (inRing false true).time).natAbs = n) := by
  decide +kernel

/-- Participants of this module that wait in group 5, ID 7. -/
def penBarrier (withdrawing : Bool) : Flight :=
  { mi 0x42 .waiting [7, 2, 0, 1] with data := if withdrawing then [5, 1] else [5] }
def penCounts (cs : List PenCount) : State := { inRing true true with pen := { (inRing true true).pen with counts := cs } }

theorem witness_BarrierFrames :
    let f (type : Nat) (n count : Nat) := frame type 3 (barBody 5 7 2 n count)
    (∀ type ∈ [2, 3, 4, 5], (f type 1 2).crc = crc 3 (f type 1 2).bytes ∧ penOrigin (f type 1 2) ≠ (penCounts []).pen.position ∧
      penType (f type 1 2) = type ∧ penBody (f type 1 2) 0 2 = 5 ∧ penBody (f type 1 2) 2 1 = 7 ∧
      penBody (f type 1 2) 3 1 = (penCounts []).pen.position ∧ penBody (f type 1 2) 4 2 = 1 ∧ penBody (f type 1 2) 6 2 = 2) ∧
    (penCounts []).pen.master = true ∧ (∀ c ∈ (penCounts []).pen.counts, ¬(c.group = 5 ∧ c.id = 7)) ∧
    (∃ c ∈ (penCounts [{ group := 5, id := 7, need := 2, origins := [3] }]).pen.counts,
      c.group = 5 ∧ c.id = 7 ∧ c.origins = [penOrigin (f 3 1 0)]) ∧
    penWaiting (flying (penBarrier false)) 5 7 = [penBarrier false] ∧ penWaiting (flying (penBarrier true)) 5 7 = [penBarrier true] ∧
    (penBarrier true).data.length = 2 := by
  decide +kernel

theorem witness_Ring :
    gnum owned .penBypass = 0 ∧ owned.pen.bypassOpen = false ∧ owned.pwr.stage = 6 ∧ BypassCause.lockLoss ≠ .write ∧
    gnum { owned with hal := { owned.hal with mgmt := { dict := [obj .penBypass 0 1 1] } } } .penBypass = 1 ∧
    (inRing false true).pen.bypassOpen = true ∧ (inRing false true).pen.master = false ∧ gnum (inRing false true) .penMasterEnable = 1 := by
  decide +kernel

/-! ## Clocks, power, pins -/

def onClock (source : Nat) (a b : Bool) (dict : List (ObjAddr × List Nat) := []) : State :=
  { owned with clk := { source := source, aGood := a, bGood := b }
               hal := { owned.hal with mgmt := { owned.hal.mgmt with dict := dict ++ owned.hal.mgmt.dict } } }

theorem witness_References :
    (∀ b, refGood (onClock 0 true b) .a = true ∧ (onClock 0 true b).clk.source = refSource .a ∧ gnum (onClock 0 true b) .faultRing = 0 ∧
      refGood (onClock 1 b true) .b = true ∧ (onClock 1 b true).clk.source = refSource .b) ∧ 30000 < (-30001 : Int).natAbs ∧
    refGood (onClock 2 false true) .a = false ∧ (onClock 2 false true).clk.source = 2 ∧ (onClock 1 false true).clk.source ≠ 2 ∧
    gnum (onClock 1 true true [obj .clkRevert 0 1 1]) .clkRevert = 1 ∧ prefRef (onClock 1 true true) = .a ∧
    (onClock 1 true true).clk.source ≠ refSource .a := by
  decide +kernel

theorem witness_PanelClocks :
    let s := onClock 0 true true [objAt .clkPclkMhzP 15 0 2 1200, obj .powerLimitW 0 2 2000]
    pclkNow s 15 ≠ pclkGoal s 15 ∧ (105000 : Nat) ≤ 105000 ∧ (95000 : Nat) ≤ 104999 ∧ (94999 : Nat) < 95000 ∧ gnum s .powerLimitW < 2001 ∧
    2000 ≤ gnum s .powerLimitW ∧ s.jig.flights.any (dealtOn · 15) = false := by
  decide +kernel

/-- The conditions meet at their limits: 36,999 mV for 200 µs, 63,001 mV for 100 µs, 90,001 mA for 1 ms; 115 °C, 105 °C. -/
theorem witness_PowerOff :
    owned.pwr.rails = .on ∧ (36999 : Nat) < 37000 ∧ (63000 : Nat) < 63001 ∧ (90000 : Nat) < 90001 ∧ wfSite (.panel 15) = true ∧
    wfSite (.hbm 7) = true := by decide +kernel

def powered (pw : Power) : State := { owned with pwr := pw }

theorem witness_PowerOn :
    (let s := powered { rails := .off, stage := 0, vinStable := true, pwrEn := false }
     s.pwr.rails = .off ∧ s.pwr.tripped = false ∧ s.pwr.vinStable = true ∧ s.pwr.offHold = false) ∧
    (let s := powered { rails := .off, stage := 0, vinStable := false, pwrEn := true, offHold := false }
     s.pwr.rails = .off ∧ s.pwr.tripped = false ∧ s.pwr.pwrEn = true ∧ s.pwr.offHold = false) ∧
    (let s := powered { rails := .off, stage := 0, vinStable := true, pwrEn := true, offHold := true }
     s.pwr.rails = .off ∧ s.pwr.tripped = false ∧ s.pwr.pwrEn = true ∧ s.pwr.vinStable = true) ∧
    (let s := powered { stage := 1, links := [] }
     s.pwr.stage = 1 ∧ s.pwr.rails = .on ∧ s.pwr.forceRetain = false ∧ s.hal.savedCal = [] ∧ ({} : BootReport).activeOk = true) := by
  decide +kernel

theorem witness_Pins :
    awake owned = true ∧
    (∀ x ∈ [(1, true, false), (2, false, true), (1, false, false)], let s := powered { state := x.1, entering := x.2.1, forceRetain := x.2.2 }
      s.pwr.state = x.1 ∧ s.pwr.entering = x.2.1 ∧ s.pwr.exitAfter = false ∧ s.pwr.forceRetain = x.2.2 ∧ s.jig.flights = [] ∧
      s.fab.leases = []) ∧ owned.pwr.stage = 6 ∧ owned.pwr.state = 0 := by
  decide +kernel

/-! ## Management -/

/-- A request that names an object by its place in the dictionary. -/
def ask (path : MgmtPath) (id : ObjId) (i part : Nat) (body : List Nat) : MgmtReq :=
  let n := objectName { id := id, i := i }
  { path := path, index := n.1, sub := n.2, part := part, body := body }

def ownerAsk (id : ObjId) (i part : Nat) (body : List Nat) : MgmtReq := ask (.port 1) id i part body

/-- The device serves a request anew, of a role without a token: `Served` for the state itself. -/
def serves (s : State) (r : MgmtReq) (answers : Bool) : Bool :=
  requestPart s r == some r.part && pathOpen s r.path && answers && r.version == 1 &&
  s.hal.mgmt.kept.all (fun k => !(k.path == r.path && k.reqId == r.reqId)) && pathRole r.path != .tenant

theorem serves_served {s : State} {r : MgmtReq} {answers : Bool} (h : serves s r answers = true) : Served s s r answers r.part := by
  simp only [serves, Bool.and_eq_true, beq_iff_eq, bne_iff_ne, ne_eq, List.all_eq_true, Bool.not_eq_true',
    Bool.and_eq_false_imp] at h
  obtain ⟨⟨⟨⟨⟨h1, h2⟩, h3⟩, h4⟩, h5⟩, h6⟩ := h
  exact ⟨h1, h2, h3, h4, fun k m e => by simpa [e.2] using h5 k m e.1, .inl ⟨h6, rfl⟩⟩

/-- The request writes one object that its role writes, with an admitted value. -/
def writes (s : State) (r : MgmtReq) (id : ObjId) (staged : Bool) : Bool :=
  match findObject r.index r.sub r.part with
  | some (row, o) => serves s r (stageAnswers s (pathRole r.path) r.index r.sub true) && decide (o.id = id) &&
      row.write.contains (pathRole r.path) && typeOk row r.body && rangeOk s row o r.body && row.staged == staged
  | none => false

theorem writes_written {s : State} {r : MgmtReq} {id : ObjId} (h : writes s r id false = true) :
    ∃ row o, Written s s r r.part row o ∧ o.id = id := by
  unfold writes at h
  split at h
  · next row o e =>
    simp only [Bool.and_eq_true, decide_eq_true_eq, beq_iff_eq] at h
    exact ⟨row, o, ⟨serves_served h.1.1.1.1.1, e, h.1.1.1.2, h.1.1.2, h.1.2, h.2⟩, h.1.1.1.1.2⟩
  · cases h

/-- A PEER does not read partition.state; a HOST does not write lend.enable; a TENANT does not read lent.state, and has a token. -/
theorem witness_Roles :
    (let r := ask (.fabric 4) .partitionState 0 1 []
     serves owned r (stageAnswers owned .peer r.index r.sub false) = true ∧
      ((findObject r.index r.sub 1).map fun x => x.1.read.contains (pathRole r.path)) = some false) ∧
    (let r := { ask (.fabric 4) .partitionState 0 1 [] with body := [0, 0x20, 1, 1] }
     r.body.length = 4 ∧ leAt r.body 0 2 = r.index ∧ r.body.getD 2 0 = r.sub ∧ r.body.getD 3 0 = 1) ∧
    (let r := ask (.mailbox (.pf 0)) .lendEnable 0 0 [1]
     serves owned r (stageAnswers owned .host r.index r.sub true) = true ∧
      ((findObject r.index r.sub 0).map fun x => x.1.write.contains (pathRole r.path)) = some false) ∧
    (let r := ask (.mailbox (.vf 0 1)) .lentState 0 0 []
     requestPart owned r = some 1 ∧ pathOpen owned r.path = true ∧ pathRole r.path = .tenant ∧ (bucketNow owned 1).1 ≠ 0 ∧
      stageAnswers owned .tenant r.index r.sub false = true ∧ owned.hal.mgmt.kept = [] ∧
      ((findObject r.index r.sub 1).map fun x => x.1.read.contains .tenant) = some false) := by
  decide +kernel

/-- A staged value of partition.benches of partition 1, with a session of the OWNER. -/
def staging : State := { owned with hal := { owned.hal with mgmt := { owned.hal.mgmt with
  staged := [obj .partitionBenches 1 32 3], session := some { src := .port 1, role := 0, last := 0 } } } }

theorem witness_Reads :
    let r := ownerAsk .partitionBenches 0 1 []
    serves staging r (stageAnswers staging .owner r.index r.sub false) = true ∧
    (∃ x ∈ (findObject r.index r.sub 1).toList, x.2 = { id := .partitionBenches, part := 1 } ∧ Role.owner ∈ x.1.read) ∧
    (objectValue staging none { id := .partitionBenches, part := 1 }).map leVal = some 1 ∧
    staging.hal.mgmt.staged.find? (·.1 == { id := .partitionBenches, part := 1 }) = some (obj .partitionBenches 1 32 3) ∧
    owned.hal.mgmt.staged.find? (·.1 == { id := .partitionBenches, part := 1 }) = none ∧
    roundUp ((objectValue staging none { id := .partitionBenches, part := 1 }).getD []).length 4 ≤ 1028 := by
  decide +kernel

theorem witness_WriteChecks :
    (let r : MgmtReq := { path := .port 1, index := 0xFFFF, sub := 1 }
     findObject r.index r.sub 0 = none ∧ serves owned r (stageAnswers owned .owner r.index r.sub false) = true ∧
      serves owned r (stageAnswers owned .owner r.index r.sub true) = true) ∧
    -- a type and a range that a value misses
    (let r := ownerAsk .powerState 0 0 [1]
     serves owned r (stageAnswers owned .owner r.index r.sub true) = true ∧
      ((findObject r.index r.sub 0).map fun x => typeOk x.1 r.body) = some false) ∧
    (let r := ownerAsk .memHbmRetire 0 0 [0, 8]
     serves owned r (stageAnswers owned .owner r.index r.sub true) = true ∧
      ((findObject r.index r.sub 0).map fun x => (typeOk x.1 r.body, rangeOk owned x.1 x.2 r.body)) = some (true, false)) ∧
    -- a repeated REQ_ID, another version, a TENANT without a token
    (let s := { owned with hal := { owned.hal with mgmt := { owned.hal.mgmt with kept := [{ path := .port 1, reqId := 0, bytes := [1] }] } } }
     requestPart s (ownerAsk .powerState 0 0 []) = some 0 ∧ pathOpen s (.port 1) = true ∧
      (s.hal.mgmt.kept.find? fun k => k.path == .port 1 && k.reqId == 0).isSome = true ∧ stageAnswers s .owner 0x3200 1 true = true) ∧
    pathOpen owned (.port 1) = true ∧ owned.hal.mgmt.kept = [] ∧
    (let s := { owned with hal := { owned.hal with buckets := [(1, 0, 0)] } }
     (bucketNow s 1).1 = 0 ∧ requestPart s { path := .mailbox (.vf 0 1) } = some 1 ∧ pathOpen s (.mailbox (.vf 0 1)) = true) := by
  decide +kernel

theorem witness_StagedWrites :
    let r := ownerAsk .fabRouteBlockB 127 0 (List.replicate 256 0xCC)
    let pending := { staging with hal := { staging.hal with mgmt := { staging.hal.mgmt with commit := some { n := 1, tick := 0, pending := true } } } }
    let other := { staging with hal := { staging.hal with mgmt := { staging.hal.mgmt with session := some { src := .fabric 4, role := 0, last := 0 } } } }
    writes staging r .fabRouteBlockB true = true ∧ staging.fab.copying = false ∧ staging.hal.mgmt.commit = none ∧
    writes pending r .fabRouteBlockB true = true ∧ writes other r .fabRouteBlockB true = true ∧
    writes owned (ownerAsk .fabAdaptiveEnable 0 0 [1]) .fabAdaptiveEnable false = true ∧
    writes owned (ownerAsk .telemObjects 7 1 []) .telemObjects false = true := by
  decide +kernel

/-- Partition 2 claims the pair of partition 1; or partition 1, which runs, gives its pair up; or the tick is too early. -/
def committing (staged : ObjAddr × List Nat) (c : CommitReq) : State := { owned with hal := { owned.hal with mgmt := { owned.hal.mgmt with
  staged := [staged], session := some { src := .port 1, role := 0, last := 0 }, commit := some c } } }

theorem witness_Commits :
    (let r := ownerAsk .commitSeq 0 0 (leBytes 4 1)
     writes staging r .commitSeq false = true ∧ staging.hal.mgmt.commit = none ∧ leVal r.body = (gnum staging .commitSeq + 1) % 2 ^ 32 ∧
      (∃ x ∈ staging.hal.mgmt.session.toList, x.src = r.path)) ∧
    writes staging (ownerAsk .commitSeq 0 0 (leBytes 4 2)) .commitSeq false = true ∧
    writes staging (ownerAsk .commitAbort 0 0 [1]) .commitAbort false = true ∧
    (let s := committing (obj .partitionBenches 2 32 1) { n := 1, tick := 0 }
     (checkResult s { n := 1, tick := 0 }).isSome = true ∧ bit (pnum (merged s) .partitionBenches 2) 0 = true ∧
      bit (pnum (merged s) .partitionBenches 1) 0 = true ∧ pnum (merged s) .partitionTsliceGroup 2 = 0) ∧
    (let s := committing (obj .partitionBenches 1 32 0) { n := 1, tick := 0 }
     2 ≤ pnum s .partitionState 1 ∧ bit (pnum s .partitionBenches 1) 0 = true ∧ bit (pnum (merged s) .partitionBenches 1) 0 = false) ∧
    (let s := committing (obj .partitionBenches 2 32 2) { n := 1, tick := 0 }
     checkResult s { n := 1, tick := 0 } = none) ∧
    (let s := committing (obj .partitionBenches 2 32 2) { n := 1, tick := 99999 }
     (99999 : Nat) < s.time + 100000 ∧ (s.hal.mgmt.commit.map (·.pending)) = some false) := by
  decide +kernel

theorem witness_CommitTick :
    let s := committing (obj .partitionBenches 2 32 2) { n := 1, tick := 0, at' := 7, pending := true, armed := true }
    (s.hal.mgmt.commit.map fun c => (c.pending, c.armed)) = some (true, true) ∧ s.hal.mgmt.staged.Pairwise (fun a b => a.1 ≠ b.1) := by
  decide +kernel

/-- Stream 7 of partition 1 writes records of 16 bytes from 0x2000 on. -/
def streaming : State := { owned with hal := { owned.hal with
  mgmt := { owned.hal.mgmt with dict := owned.hal.mgmt.dict ++ [objAt .telemRing 7 1 6 0x2000, objAt .telemRingLog2 7 1 1 4] }
  telem := [(1, 7, 18, .owner)] } }

theorem witness_KeysAndStreams :
    (∀ x ∈ [(ObjId.keySlot0Xts, 64), (.keySlot0Tag, 32), (.keySlot1Xts, 64), (.keySlot1Tag, 32)],
      writes owned (ownerAsk x.1 0 1 (List.replicate x.2 5)) x.1 false = true) ∧
    writes owned (ownerAsk .keyGenerate 0 1 [1]) .keyGenerate false = true ∧ writes owned (ownerAsk .keyGenerate 0 1 [2]) .keyGenerate false = true ∧
    (∀ v ∈ [0, 1], writes owned (ownerAsk .telemEnable 7 1 [v]) .telemEnable false = true) ∧
    dget owned { id := .telemObjects, i := 7, part := 1 } = [] ∧
    -- a TENANT's stream that names fab.address of the device and lent.state, which it does not read
    ((findObject 0x5500 1 1).map fun x => x.1.read.contains .tenant) = some false ∧
    (∃ e ∈ objectList [0, 0x55, 1, 0], e = (0x5500, 1, 0)) ∧
    awake streaming = true ∧ streaming.retention = [] ∧
    streaming.hal.telem.find? (fun t => t.1 == 1 && t.2.1 == 7) = some (1, 7, 18, .owner) ∧
    dget streaming { id := .telemObjects, i := 7, part := 1 } = [] ∧
    (0x2020 : Nat) % 0x10000 ≤ 0xFFF0 ∧ regionOf 0x2020 ≠ .neighbor ∧
    leVal (dget streaming { id := .telemRing, i := 7, part := 1 }) + 18 % 2 ^ leVal (dget streaming { id := .telemRingLog2, i := 7, part := 1 }) * 16 = 0x2020 ∧
    translates streaming 1 0x2020 true 0x2020 = true ∧ physRefusal streaming { part := some 1 } 0x2020 16 true = none ∧
    poisonFree streaming 0x2020 16 = true := by
  decide +kernel

/-- No partition runs and nothing is lent in the reset state; partition 1 runs in `owned`; `retained` is in retain. -/
theorem witness_Resets :
    writes State.reset (ownerAsk .powerState 0 0 [2]) .powerState false = true ∧
    (∀ k < 64, leaseOn (lentState State.reset k) = false) ∧ awake State.reset = true ∧ (∀ q, pnum State.reset .partitionState q < 2) ∧
    writes owned (ownerAsk .powerState 0 0 [2]) .powerState false = true ∧ 2 ≤ pnum owned .partitionState 1 ∧
    (let s := powered { state := 2 }
     writes s (ownerAsk .powerState 0 0 [0]) .powerState false = true ∧ s.pwr.state = 2) ∧
    (∀ v ∈ [1, 2], writes owned (ownerAsk .devReset 0 0 [v]) .devReset false = true) ∧
    writes owned (ownerAsk .partitionReset 0 1 [1]) .partitionReset false = true := by
  refine ⟨by decide +kernel, by decide +kernel, by decide +kernel, fun q => ?_, by decide +kernel, by decide +kernel, by decide +kernel,
    by decide +kernel, by decide +kernel⟩
  show 0 < 2
  decide

/-- An image of one chunk; whether it is signed is open. -/
def withImage : State := { owned with hal := { owned.hal with flash := { owned.hal.flash with image := [(0, List.replicate 1024 0)] } } }

theorem witness_SignedImage (h : Config.imageSigned (List.replicate 1024 0) = true) :
    verifiedImage withImage = some (List.replicate 1024 0) := by
  have e : imageFrom withImage.hal.flash.image 1 0 = List.replicate 1024 0 := by decide +kernel
  have l : withImage.hal.flash.image.isEmpty = false ∧ withImage.hal.flash.image.length = 1 ∧ withImage.hal.flash.security = 0 :=
    ⟨rfl, rfl, rfl⟩
  simp only [verifiedImage, l.1, l.2.1, l.2.2, e, h]
  simp only [List.length_replicate]
  rfl

theorem witness_Updates :
    writes owned (ownerAsk .updateChunk 0 0 (List.replicate 1024 1)) .updateChunk false = true ∧
    (∀ v ∈ [1, 2], writes owned (ownerAsk .updateStart 0 0 [v]) .updateStart false = true ∧
      writes withImage (ownerAsk .updateStart 0 0 [v]) .updateStart false = true) ∧ verifiedImage owned = none ∧
    standbyOk withImage = true ∧ standbyOk { withImage with hal := { withImage.hal with outB := true } } = false ∧
    gnum withImage .faultRing = 0 ∧ gnum withImage .updateState ≠ 3 ∧
    writes owned (ownerAsk .moduleAlertAck 0 0 [1]) .moduleAlertAck false = true ∧ owned.pwr.stage = 6 ∧ owned.hal.outA = false ∧
    writes owned (ownerAsk .penBypass 0 0 [1]) .penBypass false = true := by
  refine ⟨by decide +kernel, by decide +kernel, rfl, by decide +kernel, by decide +kernel, by decide +kernel, by decide +kernel,
    by decide +kernel, by decide +kernel, by decide +kernel, by decide +kernel⟩

theorem witness_TestAccess :
    owned.pwr.stage = 6 ∧ linkUp owned (.pf 1) = true ∧ (mailboxOf owned (.pf 1)).1 = (mailboxOf owned (.pf 1)).2 ∧
    (let s := { owned with hal := { owned.hal with mailbox := [(.pf 1, 2, 1)] } }
     linkUp s (.pf 1) = true ∧ (mailboxOf s (.pf 1)).1 ≠ (mailboxOf s (.pf 1)).2) ∧ pathOpen owned (.port ownIid) = true ∧
    owned.pwr.rails ≠ .off ∧ gnum owned .debugJtag ≠ 1 ∧ owned.tap.ir = 1 ∧
    ({ owned with tap := { ir := 0, shift := [true, false] } } : State).tap.shift = true :: [false] := by
  decide +kernel

/-! ## Leases -/

/-- Slot 255 of the borrower, and slot 63 of the lender, in given states: window of 2 MiB, lender 9, ID 6, partition 1. -/
def leased (borrow lent : Nat) : State := { owned with
  hal := { owned.hal with mgmt := { owned.hal.mgmt with dict := owned.hal.mgmt.dict ++
    [objAt .leaseState 255 0 1 borrow, objAt .leaseLender 255 0 2 9, objAt .leaseId 255 0 4 6, objAt .leasePartition 255 0 1 1,
      objAt .leaseSize 255 0 8 0x200000, objAt .lentState 63 0 1 lent, obj .lendEnable 0 1 1, obj .lendSize 0 8 0x400000] } }
  fab := { owned.fab with leases := [{ side := .borrower, slot := 255, peer := 9, remoteBase := 0, notice := 5, alive := 0 },
    { side := .lender, slot := 63, peer := 9, remoteBase := 0, notice := 5, alive := 0, deadline := 5 }] } }

theorem witness_LeaseGrants :
    (∀ st ∈ [0, 5, 6, 2, 3, 4], writes (leased st 0) (ownerAsk .leaseState 255 0 [1]) .leaseState false = true ∧ borrowState (leased st 0) 255 = st) ∧
    dnum (leased 2 0) .leaseLender 255 0 = 9 ∧ lendable (leased 0 0) 63 6 0x200000 0x200000 2 = true ∧
    lendable (leased 0 0) 63 6 0x400000 0x200000 2 = false ∧ lendable (leased 0 3) 63 6 0x200000 0x200000 2 = false := by
  decide +kernel

theorem witness_LeaseLives :
    (∀ st ∈ [3, 4], awake (leased st st) = true ∧ sideOn (leased st st) .borrower 255 = true ∧ sideOn (leased st st) .lender 63 = true ∧
      (findLease (leased st st) .borrower 255).isSome = true ∧ (findLease (leased st st) .lender 63).isSome = true ∧
      writes (leased st st) (ownerAsk .lentState 63 0 [9]) .lentState false = true ∧ lentState (leased st st) 63 = st ∧
      borrowState (leased st st) 255 = st ∧ dnum (leased st st) .leaseId 255 0 = 6) ∧
    (let s := { leased 0 8 with mmu := { owned.mmu with scrubs := [{ id := 1, kind := .lent, first := 63 }, { id := 2, kind := .pair, first := 0 }] } }
     awake s = true ∧ s.mmu.scrubs.find? (·.id == 1) = some { id := 1, kind := .lent, first := 63 } ∧
      s.mmu.scrubs.find? (·.id == 2) = some { id := 2, kind := .pair, first := 0 }) := by
  decide +kernel

/-! ## Recovery -/

theorem no_ring (q : Nat) : ringCtx State.reset q 0 = none := rfl

/-- Both spares of panel 15 are gone, or spare 33 takes over logical bench 31. -/
def noSpares : State := { State.reset with retiredBench := [(15, 32), (15, 33)] }
def takingOver : State := { State.reset with takingOver := [(15, 33, 31)] }

theorem witness_Benches :
    servedBy State.reset 15 31 = some 31 ∧ spareOf State.reset 15 = some 32 ∧ NoFaultRing State.reset ∧
    (∀ q, ringCtx State.reset q 0 = none) ∧ benchState State.reset 15 31 = 0 ∧ servedBy noSpares 15 31 = some 31 ∧
    spareOf noSpares 15 = none ∧ benchState noSpares 15 33 = 3 ∧ benchState State.reset 15 33 = 1 ∧ noSpares.jig.flights = [] ∧
    (∀ b ∈ [31, 33], writes State.reset (ownerAsk .computeRetireBench 0 0 [b, 15]) .computeRetireBench false = true ∧
      writes noSpares (ownerAsk .computeRetireBench 0 0 [b, 15]) .computeRetireBench false = true) ∧
    leVal [33, 15] = 256 * 15 + 33 ∧ takingOver.takingOver.find? (fun e => e.1 == 15 && e.2.1 == 33) = some (15, 33, 31) ∧
    physOf takingOver 15 31 = some 31 ∧ takingOver.dram.retired = [] ∧ takingOver.dram.fenced = [] := by
  refine ⟨by decide +kernel, by decide +kernel, by unfold NoFaultRing; decide +kernel, no_ring, by decide +kernel, by decide +kernel,
    by decide +kernel, by decide +kernel, by decide +kernel, rfl, by decide +kernel, rfl, by decide +kernel, by decide +kernel, rfl, rfl⟩

/-- Eight channels are retired, or none; channel 31 of stack 7 is in service. -/
def retiredState (n : Nat) : State :=
  { State.reset with dram := { State.reset.dram with retired := (List.range n).map fun c => (0, c, true, true) } }

theorem witness_Channels :
    (∀ n ∈ [0, 1, 8], hbmOut (retiredState n) 7 31 = false ∧ gnum (retiredState n) .faultRing = 0 ∧
      corrections (retiredState n) 7 31 ≤ 4096) ∧ hbmOut (retiredState 1) 0 0 = true ∧
    ((retiredState 1).dram.retired.length < 8 ∧ 800 * ((retiredState 1).dram.retired.length + 1) ≤ gnum (retiredState 1) .memHbmSpareFrames) ∧
    ¬((retiredState 8).dram.retired.length < 8) ∧
    (∀ x ∈ [(7, 31), (0, 0)], writes (retiredState 1) (ownerAsk .memHbmRetire 0 0 [x.2, x.1]) .memHbmRetire false = true ∧
      leVal [x.2, x.1] = 256 * x.1 + x.2) ∧
    gnum State.reset .faultRing = 0 ∧ findFlight (flying (mi 1 .issued)) 1 = some (mi 1 .issued) ∧
    ringCtx (flying (mi 1 .issued)) (mi 1 .issued).part 0 = none ∧ gnum (flying (mi 1 .issued)) .faultRing = 0 ∧
    regionOf (drawerBase 15 33) = .drawer 15 33 ∧ regionOf (sideboardBase 15) = .sideboard 15 := by
  decide +kernel

/-- 4,097 corrections of one channel within the last hour. -/
theorem witness_SoftRetirement :
    4096 < corrections { State.reset with dram := { State.reset.dram with corrs := List.replicate 4097 (.hbm 7 31 0, 0) } } 7 31 := by
  decide +kernel

theorem witness_Cores :
    standbyOk owned = true ∧ owned.hal.copying = none ∧ owned.pwr.rails ≠ .off ∧ owned.hal.mirror.commit = none ∧
    (let s := { owned with hal := { owned.hal with copying := some { commit := some { n := 1, tick := 0, pending := true } }, epoch := 2
                                                   mgmt := { commit := some { n := 1, tick := 0, pending := true } }
                                                   held := [(2, .port 1, [1]), (3, .port 1, [2])] } }
     s.hal.copying.isSome = true ∧ (∃ h ∈ s.hal.held, h.1 ≤ s.hal.epoch)) ∧
    (let s := { owned with hal := { owned.hal with outB := true } }
     (s.hal.outA != s.hal.outB) = true ∧ s.pwr.rails ≠ .off ∧ gnum s .updateState ≠ 2) ∧ 0 ∉ owned.hal.linksDown ∧
    2 ∈ ({ owned with hal := { owned.hal with linksDown := [2] } } : State).hal.linksDown := by
  decide +kernel

/-- Partitions 1 and 2 share a time-slice group 63. -/
def slicing : State := { owned with hal := { owned.hal with mgmt := { owned.hal.mgmt with dict := owned.hal.mgmt.dict ++
  [obj .partitionTsliceGroup 1 1 63, obj .partitionTsliceGroup 2 1 63, obj .partitionState 2 1 2] } } }

theorem witness_Functions :
    awake slicing = true ∧ groupMembers slicing 63 = [1, 2] ∧ (groupMembers slicing 1).length ≤ 1 ∧
    1 ∈ owned.pwr.links ∧ (1, 127) ∉ owned.pwr.flrs ∧ linkUp owned (.pf 0) = true ∧ owned.retention = [] ∧
    jobAwaits owned owned.fab.nextJob = false ∧
    linkUp owned (.vf 0 1) = true ∧ vfPart owned (.vf 0 1) = some 1 ∧ vfPart owned (.vf 0 2) = none ∧
    (let va := (pnum owned .partitionAperture 1 + 0xFFFC) % 2 ^ 48
     va % 0x10000 + 4 ≤ 0x10000 ∧ translates (noAsks owned) 1 va false 0xFFFC = true ∧ regionOf 0xFFFC ≠ .neighbor ∧
      physRefusal (noAsks owned) { part := some 1 } 0xFFFC 4 false = none ∧ readsPoison owned 0xFFFC 4 = false) ∧
    (match translate (noAsks owned) 1 0x200000 false with
      | (.error _, w) => w.fab.asks.isEmpty && !(jobAwaits w w.fab.nextJob)
      | _ => false) = true := by
  decide +kernel

/-- The device-physical address behind BAR2 of a physical function is open: this is the case of one in HBM4. -/
theorem witness_Bar2 (off : Nat) (h : (Config.pfBar2Base 0 + off) % 2 ^ 48 = 0x1000) :
    linkUp owned (.pf 0) = true ∧ physRefusal owned {} ((Config.pfBar2Base 0 + off) % 2 ^ 48) 4 false = none ∧
    readsPoison owned ((Config.pfBar2Base 0 + off) % 2 ^ 48) 4 = false ∧
    regionOf ((Config.pfBar2Base 0 + off) % 2 ^ 48) ≠ .neighbor ∧
    physRefusal owned {} ((Config.pfBar2Base 0 + off) % 2 ^ 48) 4 true = none := by
  rw [h]; decide +kernel

/-! ## Macro-instructions that run to their end -/

/-- Partition 1 on benches 0 and 1 of panel 0 with 4 MiB of HBM4 mapped; the benches' drawers and slice 0 of the sideboard are open to
it, and the drawers have a work area. -/
def benched : State :=
  let s := { owned with mmu := { tlb := [{ part := 1, va := 0, size := 0x400000, pa := 0, read := true, write := true }] } }
  let s := [0, 1].foldl (fun s b => [0, 1, 2].foldl (fun s m => rset s (benchReg .drwRegion 0 b (8 * m)) (15 + 63 * 2 ^ 24))
    (rset s (benchReg .jigWork 0 b 0) (64 * 256))) s
  rset s (panelReg .sbdSlice 0 0) (1 + 256)

/-- A packed operand: its BASE and extents, its format, tier, scaling with its block scales at 0x5000 and the axis of its blocks. -/
def op (base : Nat) (e : List Nat) (fmt : Nat := 1) (tier : Nat := 2) (sc : Nat := 0) (axis : Nat := 0) : Option Desc :=
  let r := rowBytes ((fmtOfCode fmt).getD .fp32) (e.getD 0 1)
  some { base := base, extents := e, tier := tier, tensorId := 7, format := fmt, scaling := sc, scalePtr := 0x5000, blockAxis := axis, ndim := 5
         strides := [r, r * e.getD 1 1, r * e.getD 1 1 * e.getD 2 1, r * e.getD 1 1 * e.getD 2 1 * e.getD 3 1] }

/-- An MI on the two benches with an opcode, operands in its slots, parameters, and operands in its extended slots. -/
def run (opcode : Nat) (slots : List (Option Desc)) (params : List Nat := []) (more : List (Option Desc) := []) : Flight :=
  let w := [opcode, 0, 2, 0] ++ List.replicate 36 0 ++ params ++ List.replicate (24 - params.length) 0
  let w := (List.range 5).foldl (fun w i => if (slots.getD i none).isSome then w else (w.set (4 + 2 * i) 0xFF).set (5 + 2 * i) 0xFF) w
  let w := if more.isEmpty then w else (List.range 4).foldl (fun w i => let o := if i == 0 then 42 else 56 + 2 * i
    if (more.getD i none).isSome then w else (w.set o 0xFF).set (o + 1) 0xFF) w
  { mi opcode .issued with word := w, roster := [(0, [0, 1])], mask := 1, descs := slots ++ more }

/-- `PlainMi` for an MI that is the only one in flight, with nothing met and no cache enabled. -/
def plainRun (s : State) (f : Flight) (opcode : Nat) : Bool :=
  findFlight s 1 == some f && awake s && !(memberOut s f.part) && !(underScrub s f.part) && miOpcode f.word == opcode &&
  f.phase == .issued && f.conds.isEmpty && f.damages.isEmpty && f.tried.isEmpty && f.puts.isEmpty && f.drops.isEmpty && f.written.isEmpty &&
  f.audit == 0 && (opFaults s f []).isEmpty && s.poison.isEmpty && s.dram.retired.isEmpty && s.dram.fenced.isEmpty && s.retention.isEmpty &&
  Memory.wf s.mem && s.mmu.tlb.all (fun e => e.va % 0x10000 == 0 && e.size % 0x10000 == 0 && e.pa % 0x10000 == 0) &&
  (List.range 16).all (fun p => (List.range 8).all fun n => !(rbit s (panelReg .sbdCcfg p n) 0)) &&
  gnum s .faultRing == 0 && (ringCtx s f.part 0).isNone && decide (f.panel < 16) && !(f.roster.isEmpty) &&
  f.roster.all (fun e => decide (e.1 < 16) && !(e.2.isEmpty) && e.2.all (· < 32)) && f.deals.isEmpty &&
  (flightDescs f).all fun e => operandHere s f e.1 e.2

theorem plainRun_plainMi {s : State} {f : Flight} {opcode : Nat} (h : plainRun s f opcode = true) : PlainMi s 1 f opcode := by
  simp only [plainRun, Bool.and_eq_true, beq_iff_eq, Bool.not_eq_true', List.isEmpty_iff, List.all_eq_true, List.mem_range,
    decide_eq_true_eq, Option.isNone_iff_eq_none] at h
  obtain ⟨⟨⟨⟨⟨⟨⟨⟨⟨⟨⟨⟨⟨⟨⟨⟨⟨⟨⟨⟨⟨⟨⟨⟨⟨⟨⟨a1, a2⟩, a3⟩, a4⟩, a5⟩, a6⟩, a7⟩, a8⟩, a9⟩, a10⟩, a11⟩, a12⟩, a13⟩, a14⟩, a15⟩, a16⟩, a17⟩, a18⟩, a19⟩, a20⟩, a21⟩, a22⟩, a23⟩,
    a24⟩, a25⟩, a26⟩, a27⟩, a28⟩ := h
  refine ⟨⟨a1, a2, a3, a4⟩, a5, ⟨a6, a7, a8, a9, a10, a11, a12, a13⟩, a14, ⟨a15, a16, a17, a18, a19⟩, fun e m => ?_, fun p n hp hn e => ?_,
    ⟨a22, fun q e => by cases e; exact a23⟩, ⟨a24, fun e => by simp [e] at a25, fun e m => ?_, by simp [a27]⟩, a28⟩
  · have := a20 e m; exact ⟨this.1.1, this.1.2, this.2⟩
  · exact absurd e (by simp [a21 p hp n hn])
  · have := a26 e m
    exact ⟨this.1.1, fun x => by simp [x] at this, this.2⟩

/-- MIs of each tiled opcode: operands in DRAM and in the drawers and sideboard, spill, block scales, NMS without a bound table. -/
def tiledRuns : List (Flight × Nat) :=
  [(run 0x01 [op 0 [40, 3, 1, 1, 1] 5 2 1, op 0x80 [40, 5, 1, 1, 1] 9, none, op 0x280 [5, 3, 1, 1, 1]], 0x01),
   (run 0x01 [op 0 [40, 3, 1, 1, 1] 1 1, op 0x100 [40, 5, 1, 1, 1] 1 0, none, op 0x280 [5, 3, 1, 1, 1] 15], 0x01),
   (run 0x02 [op 0 [40, 3, 1, 1, 1], op 0x100 [40, 5, 1, 1, 1], op 0x380 [5, 3, 1, 1, 1], op 0x280 [5, 3, 1, 1, 1] 3], 0x02),
   (run 0x03 [op 0 [4, 5, 4, 1, 2], op 0x200 [4, 3, 2, 1, 6], none, op 0x400 [6, 3, 3, 1, 2] 0]
      [1, 1, 1, 1, 1, 1, 0, 0, 0, 0, 0, 0, 0, 0, 1], 0x03),
   (run 0x08 [op 0 [6, 3, 1, 1, 1], op 0x100 [6, 1, 1, 1, 1] 0, none, op 0x200 [6, 3, 1, 1, 1] 7 2 1] [4], 0x08),
   (run 0x0C [op 0 [6, 3, 1, 1, 1], none, none, op 0x201 [6, 3, 1, 1, 1] 8] ([1, 0, 0, 0] ++ leBytes 4 0x3F800000 ++ leBytes 4 0 ++ leBytes 4 0x3F800000), 0x0C),
   (run 0x09 [op 0 [6, 3, 2, 1, 1], none, none, op 0x201 [1, 3, 2, 1, 1] 0] [3], 0x09),
   (run 0x0A [op 0 [6, 3, 2, 1, 1], none, none, op 0x201 [6, 3, 2, 1, 1] 0, op 0x300 [1, 3, 2, 1, 1] 0] (leBytes 4 0x3F800000), 0x0A),
   (run 0x0B [op 0 [6, 3, 2, 1, 1], op 0x100 [6, 1, 1, 1, 1] 0, op 0x140 [6, 1, 1, 1, 1], op 0x201 [6, 3, 2, 1, 1] 0, op 0x300 [2, 3, 2, 1, 1] 0]
      ([1, 0, 0, 0] ++ leBytes 4 0x3F800000), 0x0B),
   (run 0x38 [op 0 [4, 5, 4, 1, 2], none, none, op 0x400 [4, 4, 3, 1, 2]] [0, 2, 2, 1, 1, 1, 1], 0x38),
   (run 0x39 [op 0 [4, 5, 4, 2, 1], op 0x200 [5, 3, 1, 1, 1] 0, none, op 0x400 [4, 2, 2, 3, 1]], 0x39),
   (run 0x3A [op 0 [4, 5, 2, 1, 1], op 0x200 [4, 5, 1, 1, 1] 0, none, op 0x400 [4, 5, 2, 1, 1] 0], 0x3A),
   (run 0x3B [op 0 [4, 5, 2, 1, 1] 0, op 0x200 [5, 2, 1, 1, 1] 0, none, op 0x400 [4, 2, 1, 1, 1] 0, op 0x480 [4, 2, 1, 1, 1] 0]
      ([0, 0, 3, 0] ++ leBytes 4 0x3F000000), 0x3B)]

theorem witness_TiledRuns :
    (∀ x ∈ tiledRuns, PlainMi (flying x.1 benched) 1 x.1 x.2 ∧ (x.2 = 0x02 → descTest (slotDesc x.1 2) (fun c => c.format == 0xF) = false)) := by
  have h : ∀ x ∈ tiledRuns, plainRun (flying x.1 benched) x.1 x.2 = true ∧
      (x.2 = 0x02 → descTest (slotDesc x.1 2) (fun c => c.format == 0xF) = false) := by decide +kernel
  exact fun x m => ⟨plainRun_plainMi (h x m).1, (h x m).2⟩

/-- An MMA of two own blocks onto one spill tile of 3 by 5 outputs that holds the block behind them. -/
def spillMma : Flight :=
  run 0x02 [op 0 [40, 3, 1, 1, 1], op 0x100 [40, 5, 1, 1, 1], op 0x800 [5, 3, 1, 1, 1] 15, op 0x280 [5, 3, 1, 1, 1] 0]
def spillTile : SpillTile := { tensorId := 7, first := 2, count := 1, flags := 1, rows := 3, cols := 5, values := List.replicate 15 0 }
def withSpill : State := { benched with mem := Memory.write [] 0x800 (spillBytes spillTile) }

theorem plain_work {w : Work} {s : State} {f : Flight} (h1 : w.s = s) (h2 : w.f = f) (h3 : w.blocks = []) (h4 : w.cut = false)
    (h5 : w.halt = false) (h6 : w.outs = []) : w = { s := s, f := f } := by
  cases w; cases h1; cases h2; cases h3; cases h4; cases h5; cases h6; rfl

theorem witness_SpillMma :
    let s := flying spillMma withSpill
    let f := spillMma
    PlainMi s 1 f 0x02 ∧ (slotDesc f 2).map (·.format) = some 0xF ∧ slotDesc f 0 = op 0 [40, 3, 1, 1, 1] ∧
    slotDesc f 1 = op 0x100 [40, 5, 1, 1, 1] ∧
    (∃ c ∈ (slotDesc f 2).toList, readSpills (workOf s f) c 3 5 (dealTiles f (planTiles f.word 1 3 5)) = (workOf s f, [spillTile])) ∧
    spillsBad [spillTile] 3 5 (blockCount 40) = false := by
  have h : (slotDesc spillMma 2).isSome = true ∧ ∀ c ∈ (slotDesc spillMma 2).toList,
      let r := readSpills (workOf (flying spillMma withSpill) spillMma) c 3 5 (dealTiles spillMma (planTiles spillMma.word 1 3 5))
      r.1.s = (workOf (flying spillMma withSpill) spillMma).s ∧ r.1.f = spillMma ∧ r.1.blocks = [] ∧ r.1.cut = false ∧ r.1.halt = false ∧ r.1.outs = [] ∧ r.2 = [spillTile] := by
    decide +kernel
  obtain ⟨c, hc⟩ := Option.isSome_iff_exists.mp h.1
  have e := h.2 c (by rw [hc]; exact List.mem_singleton.mpr rfl)
  refine ⟨plainRun_plainMi (by decide +kernel), by decide +kernel, by decide +kernel, by decide +kernel,
    ⟨c, by rw [hc]; exact List.mem_singleton.mpr rfl, ?_⟩, by decide +kernel⟩
  obtain ⟨e1, e2, e3, e4, e5, e6, e7⟩ := e
  exact Prod.ext (plain_work e1 e2 e3 e4 e5 e6) e7

/-- NMS with BOUND_EN 1 and a table of 3 queues behind the queue's slots. -/
def boundNms : Flight :=
  run 0x3B [op 0 [4, 5, 2, 1, 1] 0, op 0x200 [5, 2, 1, 1, 1] 0, none, op 0x400 [4, 2, 1, 1, 1] 0, op 0x480 [4, 2, 1, 1, 1] 0]
    ([0, 0x83, 3, 0] ++ leBytes 4 0x3F000000)
def withQueue : State := rset benched (panelReg .jigQbase 0 0) 0x3000

theorem witness_BoundNms :
    let s := flying boundNms withQueue
    let f := boundNms
    PlainMi s 1 f 0x3B ∧ bit (pb f 1) 7 = true ∧
    bytesHere s f.part true (boundAddr s f.panel f.q (bits (pb f 1) 5 0)) (4 * descExt ((slotDesc f 0).getD {}) 2) = true :=
  ⟨plainRun_plainMi (by decide +kernel), by decide +kernel⟩

/-- MOVEs between tiers and of spill, and MCASTs to benches 0 and 1. -/
def moves : List Flight :=
  [run 0x10 [op 0 [40, 5, 2, 1, 1] 1 0 1, none, none, op 0x400 [40, 5, 2, 1, 1] 1 2 1] [1],
   run 0x10 [(op 0 [3, 1, 1, 1, 1] 15).map ({ · with ndim := 1 }), none, none, (op 0x400 [3, 1, 1, 1, 1] 15).map ({ · with ndim := 1 })] [0]]
def mcasts : List Flight :=
  [run 0x11 [op 0 [40, 5, 2, 1, 1] 1 2 1, none, none, op 0x400 [40, 5, 2, 1, 1] 1 0 1] [1, 0, 0, 0, 3],
   run 0x11 [(op 0 [3, 1, 1, 1, 1] 15).map ({ · with ndim := 1 }), none, none, (op 0x400 [3, 1, 1, 1, 1] 15 1).map ({ · with ndim := 1 })] [1]]

theorem witness_Movers :
    (∀ f ∈ moves, PlainMi (flying f benched) 1 f 0x10 ∧ moveDenied (flying f benched) f = false) ∧
    (∀ f ∈ mcasts, PlainMi (flying f benched) 1 f 0x11 ∧ mcastNowhere f = false ∧
      ∀ d ∈ (slotDesc f 3).toList, mcastTargets (flying f benched) f d ≠ [] ∧ ∀ t ∈ mcastTargets (flying f benched) f d, t.2 = true) := by
  have h : (∀ f ∈ moves, plainRun (flying f benched) f 0x10 = true ∧ moveDenied (flying f benched) f = false) ∧
    (∀ f ∈ mcasts, plainRun (flying f benched) f 0x11 = true ∧ mcastNowhere f = false ∧
      ∀ d ∈ (slotDesc f 3).toList, mcastTargets (flying f benched) f d ≠ [] ∧ ∀ t ∈ mcastTargets (flying f benched) f d, t.2 = true) := by
    decide +kernel
  exact ⟨fun f m => ⟨plainRun_plainMi (h.1 f m).1, (h.1 f m).2⟩, fun f m => ⟨plainRun_plainMi (h.2 f m).1, (h.2 f m).2⟩⟩

/-- FLUSH with INV and ALL of panel 0, and a PREFETCH of 64 KiB in the window of cache context 7. -/
def cachedRun : State := rset (rset benched (panelReg .sbdCwin 0 7) 16) (panelReg .sbdCcfg 0 7) cacheWord

theorem witness_FlushAndPrefetch :
    let a := run 0x12 [] [6]
    let b := run 0x13 [op 0 [40, 5, 2, 1, 1]]
    Runs (flying a benched) 1 a ∧ miOpcode a.word = 0x12 ∧ bit (param a 40 1) 1 = true ∧ bit (param a 40 1) 2 = true ∧
    Runs (flying b cachedRun) 1 b ∧ miOpcode b.word = 0x13 ∧ (slotDesc b 0).isSome = true ∧ setPositions 16 b.mask = [0] ∧
    (∀ d ∈ (slotDesc b 0).toList, framesTouched (touchedRanges b.word d) = [0]) ∧ cacheCtx (flying b cachedRun) 0 1 0 = some 7 ∧
    (∀ f ∈ [a, b], f.phase = .issued ∧ f.conds = [] ∧ f.damages = [] ∧ f.tried = [] ∧ f.puts = []) := by
  unfold Runs; decide +kernel

/-- ATTN_FWD causal, with the mask of a row in X0 and a spilled state, and over the page list of pool 0; ATTN_BWD; CANTON_SELECT. Pool 0 of
partition 1 at context 0 has three pages, page 0 pinned and held once, and pages 1 and 2 on the stack. -/
def queries : List Nat := [32, 5, 1, 2, 1]
def keys : List Nat := [32, 7, 1, 1, 1]
def attnRun : Flight :=
  run 0x04 [op 0 queries, op 0x300 keys, op 0x500 keys, op 0x800 queries 0, op 0x1000 [1, 5, 1, 2, 1] 0] ([1, 0, 0, 0] ++ leBytes 4 0x3F000000)
    [none, none, none, none]
def maskedRun : Flight :=
  run 0x04 [op 0 queries, op 0x300 keys, op 0x500 keys, op 0x800 queries 15, op 0x1000 [2, 5, 1, 2, 1] 0]
    ([4, 0x10, 0, 0] ++ leBytes 4 0x3F000000) [op 0x1100 [3, 1, 1, 2, 1] 0, none, none, none]
def backRun : Flight :=
  run 0x05 [op 0 queries, op 0x300 keys, op 0x500 keys, op 0x800 queries 0, op 0x40 queries] ([1, 0, 0, 0] ++ leBytes 4 0x3F000000)
    [op 0x1000 keys, op 0x100 [1, 5, 1, 2, 1] 0, op 0x180 [1, 5, 1, 2, 1] 0, op 0x1400 keys]
def pagedRun : Flight := { (run 0x04 [op 0 queries, op 0x300 [1, 1, 1, 1, 1] 0, none, op 0x800 queries 0, op 0x1000 [1, 5, 1, 2, 1] 0]
  ([1, 1, 0, 0] ++ leBytes 4 0x3F000000) [none, none, none, none]) with data := [0] }
def cantonRun : Flight := { (run 0x1B [op 0 queries, op 0x300 [1, 1, 1, 1, 1] 0, none, op 0x800 [3, 1, 1, 2, 1] 0, op 0x1000 [1, 5, 1, 2, 1] 0]
  ([0, 0, 1, 0, 1, 0, 0, 0] ++ leBytes 4 0 ++ leBytes 4 0x3F000000)) with data := [0] }

/-- The pool, with the map entry of page 0 (PIN and REF as said), a table word at 0x300 that names page 0, and one at 0x340 that names none. -/
def withPool (pin : Nat) : State :=
  let s := rset (rset benched (panelReg .kvpPcfg 0 0) (1 + 1 * 16 + 256 + 65536 + 2 * 2 ^ 20 + 2 * 2 ^ 24)) (panelReg .kvpPbase 0 0) 0x100000
  let s := rset (rset (rset s (panelReg .kvpPmap 0 0) 0x2000) (panelReg .kvpPctn 0 0) 0x3000) (panelReg .kvpPstat 0 0) (2 + 2 ^ 24)
  let m := Memory.write (Memory.write [] 0x2000 (leBytes 8 (1 + 65536 * pin + 2 ^ 32))) 0x2018 (leBytes 4 1 ++ leBytes 4 2)
  { s with mem := Memory.write m 0x340 [255, 255, 255, 0] }

theorem witness_Attention :
    (∀ f ∈ [attnRun, maskedRun], PlainMi (flying f benched) 1 f 0x04 ∧ attnPartialIn f = false ∧ attnPaged f = false) ∧
    attnPartialOut maskedRun = true ∧ attnMask maskedRun = 4 ∧
    (∀ q ∈ (slotDesc maskedRun 0).toList, ∀ d ∈ (slotDesc maskedRun 3).toList, d.extents = q.extents) ∧
    (let p := attnPlan (flying maskedRun benched) maskedRun
     ∀ d ∈ (attnX maskedRun 0).toList, ceilDiv p.nq 64 ≤ descExt d 1 ∧ p.seqs ≤ descExt d 2 ∧ p.heads ≤ descExt d 3) ∧
    PlainMi (flying backRun benched) 1 backRun 0x05 := by
  have h : (∀ f ∈ [attnRun, maskedRun], plainRun (flying f benched) f 0x04 = true ∧ attnPartialIn f = false ∧ attnPaged f = false) ∧
    plainRun (flying backRun benched) backRun 0x05 = true := by decide +kernel
  exact ⟨fun f m => ⟨plainRun_plainMi (h.1 f m).1, (h.1 f m).2⟩, by decide +kernel, by decide +kernel, by decide +kernel, by decide +kernel,
    plainRun_plainMi h.2⟩

theorem witness_PagedAttention :
    ∀ x ∈ [(pagedRun, 0x04), (cantonRun, 0x1B)], let s := flying x.1 (withPool 1)
      PlainMi s 1 x.1 x.2 ∧ attnPartialIn pagedRun = false ∧ attnPaged pagedRun = true ∧ PinsStand s x.1 (poolAt s 0 0) := by
  have h : ∀ x ∈ [(pagedRun, 0x04), (cantonRun, 0x1B)], plainRun (flying x.1 (withPool 1)) x.1 x.2 = true ∧ attnPartialIn pagedRun = false ∧
      attnPaged pagedRun = true ∧ PinsStand (flying x.1 (withPool 1)) x.1 (poolAt (flying x.1 (withPool 1)) 0 0) := by
    unfold PinsStand PoolHere; decide +kernel
  exact fun x m => ⟨plainRun_plainMi (h x m).1, (h x m).2⟩

/-- KV_FREE of the entry at 0x300, with its page pinned or not; KV_FORK of it into 0x340; KV_APPEND of three positions there. -/
def freeRun : Flight := run 0x1A [op 0x300 [1, 1, 1, 1, 1] 0] [0]
def forkRun : Flight := { run 0x19 [op 0x300 [1, 1, 1, 1, 1] 0, none, none, op 0x340 [1, 1, 1, 1, 1] 0] [0] with lens := [200] }
def appendRun : Flight :=
  { run 0x18 [op 0 [32, 3, 1, 1, 1], op 0x100 [32, 3, 1, 1, 1], none, op 0x340 [1, 1, 1, 1, 1] 0] [0] with lens := [0] }

theorem witness_Free : ∀ pin ∈ [0, 1],
    plainRun (flying freeRun (withPool pin)) freeRun 0x1A = true ∧ PoolHere (flying freeRun (withPool pin)) freeRun (poolAt (withPool pin) 0 0) ∧
    (∃ d ∈ (slotDesc freeRun 0).toList, OneEntry (flying freeRun (withPool pin)) freeRun 0 d 0x300) ∧ freeRun.lens.getD 0 0 = 0 ∧
    pageWord (withPool pin) 0x300 = 0 ∧ (mapEntry (withPool pin) (poolAt (withPool pin) 0 0) 0).ref = 1 ∧
    (mapEntry (withPool pin) (poolAt (withPool pin) 0 0) 0).pin = pin ∧ freePages (withPool pin) (poolAt (withPool pin) 0 0) = 2 ∧
    (poolAt (withPool pin) 0 0).pages = 3 := by
  unfold PoolHere OneEntry; decide +kernel

theorem witness_Fork :
    plainRun (flying forkRun (withPool 0)) forkRun 0x19 = true ∧ PoolHere (flying forkRun (withPool 0)) forkRun (poolAt (withPool 0) 0 0) ∧
    (∃ d ∈ (slotDesc forkRun 0).toList, OneEntry (flying forkRun (withPool 0)) forkRun 0 d 0x300) ∧
    (∃ d ∈ (slotDesc forkRun 3).toList, OneEntry (flying forkRun (withPool 0)) forkRun 3 d 0x340) ∧ pageWord (withPool 0) 0x340 = noPage ∧
    pageWord (withPool 0) 0x300 = 0 ∧ (mapEntry (withPool 0) (poolAt (withPool 0) 0 0) 0).state = 1 ∧
    (mapEntry (withPool 0) (poolAt (withPool 0) 0 0) 0).ref < 0xFFFF ∧ 1 ≤ forkRun.lens.getD 0 0 ∧ forkRun.lens.getD 0 0 ≤ 256 := by
  unfold PoolHere OneEntry; decide +kernel

theorem witness_Append :
    plainRun (flying appendRun (withPool 0)) appendRun 0x18 = true ∧ PoolHere (flying appendRun (withPool 0)) appendRun (poolAt (withPool 0) 0 0) ∧
    (∃ d ∈ (slotDesc appendRun 3).toList, OneEntry (flying appendRun (withPool 0)) appendRun 3 d 0x340) ∧ appendRun.data = [] ∧
    pageWord (withPool 0) 0x340 = noPage ∧ appendRun.lens.getD 0 0 = 0 ∧
    (∃ k ∈ (slotDesc appendRun 0).toList, 1 ≤ appendCount appendRun k 0 ∧ appendCount appendRun k 0 ≤ 256) ∧
    freePages (withPool 0) (poolAt (withPool 0) 0 0) = 2 ∧
    leVal (Memory.read (withPool 0).mem ((physAddr (withPool 0) 1 (stackAddr (poolAt (withPool 0) 0 0) 1)).getD 0) 4) % 2 ^ 24 = 2 := by
  unfold PoolHere OneEntry; decide +kernel

/-- Census and ledger contexts 0 of panel 0 with 4 entries in slice 0, and a salvage context with its table at 0x2000. -/
def recording : State :=
  let s := rset (rset benched (panelReg .cenCtx 0 0) (1 + 256 + 3 * 65536)) (panelReg .ldgCtx 0 0) (1 + 256 + 3 * 65536 + 2 ^ 32)
  rset (rset s (panelReg .jigSalvb 0 0) 0x2000) (panelReg .jigSalv 0 0) (1 + 256 + 3 * 65536)
def ledgerRun : Flight := run 0x28 [] [1, 0, 1, 0, 3]
def censusRun : Flight := run 0x29 [none, none, none, (op 0x400 [16, 1, 1, 1, 1] 0).map ({ · with ndim := 1 })] [1, 0, 1, 0, 0]
def markRun : Flight :=
  run 0x4F [op 0x400 [16, 1, 1, 1, 1]] [3, 0, 2, 0, 0x40, 0, 0, 0, 0, 0, 0x80, 0, 0, 0, 0, 0, 5, 0, 1]

theorem witness_Records :
    (let s := flying ledgerRun recording
     let u := (readCensus (workOf s ledgerRun).s ledgerRun.part 1 (bit (param ledgerRun 44 1) 0)).2
     plainRun s ledgerRun 0x28 = true ∧ selEntries ledgerRun = [1] ∧ ledgerAddr u 1 1 = some (sideboardBase 0 + 0x10000 + 128) ∧
      physRefusal u (areaReq 1) (sideboardBase 0 + 0x10000 + 128) 128 true = none) ∧
    (let s := flying censusRun recording
     plainRun s censusRun 0x29 = true ∧ selEntries censusRun = [1] ∧ (slotDesc censusRun 3).map (fun d => (d.tier, d.base)) = some (2, 0x400) ∧
      bit (param censusRun 44 1) 1 = false ∧ physAddr s 1 0x400 = some 0x400) ∧
    (let s := flying markRun recording
     plainRun s markRun 0x4F = true ∧ (slotDesc markRun 0).isSome = true ∧ salvCtx s 1 = some (0, 0) ∧
      salvAddr s (0, 0) (param markRun 40 2) = some 0x20C0 ∧ bytesHere s 1 true 0x20C0 64 = true ∧ physAddr s 1 0x20C0 = some 0x20C0) := by
  decide +kernel

/-- Retain pool 0 of four frames and Mitre context 5 with two ranks, this device rank 0. -/
def collective : State :=
  rset (rset benched (panelReg .jigRetcfg 0 0) (1 + 256 + 65536 + 4 * 2 ^ 48)) (edgeReg .mitCtx 0 5) (1 + 256 + 65536)
/-- A COLL of an OP in context 5 with FIRST, COUNT and N_B. -/
def collRun (c : Nat) (slots : List (Option Desc)) (first count nb : Nat) : Flight :=
  run 0x20 slots ([c, 0, 5, 0, 0, 0, 0, 0] ++ leBytes 4 first ++ leBytes 4 count ++ leBytes 4 nb)

/-- One COLL of each OP with what comes from rank 1; the last is a PERMUTE of one entry, from rank 0 to rank 1. -/
def collRuns : List (Nat × Flight × CollArrival) :=
  let whole (b : Nat) := op b [8, 4, 1, 1, 1] 0
  let half (b : Nat) := op b [8, 2, 1, 1, 1] 0
  let sum (n : Nat) : CollArrival := { rank := 1, op := n, nb := 2, first := 1, count := 1, data := List.replicate 128 0 }
  [(0, collRun 0 [whole 0, none, none, whole 0x400] 0 1 2, { sum 0 with extents := [8, 4, 1, 1, 1] }),
   (1, collRun 1 [whole 0, none, none, half 0x400] 0 1 2, { sum 1 with extents := [8, 2, 1, 1, 1] }),
   (2, collRun 2 [half 0, none, none, whole 0x400] 0 0 0, { rank := 1, op := 2, extents := [8, 4, 1, 1, 1], data := List.replicate 64 1 }),
   (3, collRun 3 [whole 0, none, none, whole 0x400] 0 0 0, { rank := 1, op := 3, extents := [8, 4, 1, 1, 1], data := List.replicate 64 1 }),
   (4, collRun 4 [whole 0, none, none, whole 0x400] 0 0 0, { rank := 1, op := 4, extents := [8, 4, 1, 1, 1], data := List.replicate 128 1 }),
   (5, collRun 5 [op 0 [4, 1, 1, 1, 1] 0, none, none, whole 0x400, whole 0x800] 0 0 0, { rank := 1, op := 5, extents := [8, 4, 1, 1, 1] })]
def collMem : State := { collective with mem := Memory.write [] 0 [0, 0, 1, 0, 0, 0, 0, 0, 0, 0, 0, 0, 1] }
def pair : Comm := { c := 5, size := 2, rank := 0, limit := 655360000 }

theorem witness_CollRuns :
    ∀ x ∈ collRuns, let s := flying x.2.1 collMem
      PlainMi s 1 x.2.1 0x20 ∧ CollReady s x.2.1 pair x.1 [x.2.2] ∧ (x.1 ≤ 1 → PartsFit x.2.1 [x.2.2]) ∧
      (x.1 = 5 → x.2.1.data = [] ∧ (readMoves (workOf s x.2.1)).2 ≠ [] ∧ movesOk pair x.2.1 (readMoves (workOf s x.2.1)).2 = true) := by
  have h : ∀ x ∈ collRuns, plainRun (flying x.2.1 collMem) x.2.1 0x20 = true ∧ CollReady (flying x.2.1 collMem) x.2.1 pair x.1 [x.2.2] ∧
      (x.1 ≤ 1 → PartsFit x.2.1 [x.2.2]) ∧
      (x.1 = 5 → x.2.1.data = [] ∧ (readMoves (workOf (flying x.2.1 collMem) x.2.1)).2 ≠ [] ∧
        movesOk pair x.2.1 (readMoves (workOf (flying x.2.1 collMem) x.2.1)).2 = true) := by
    unfold CollReady PartsFit; decide +kernel
  exact fun x m => ⟨plainRun_plainMi (h x m).1, (h x m).2⟩

/-- KEEP, and a FETCH that misses, of KEY 9; and one that hits an entry in frame 0 of the pool. -/
def retRun (mode : Nat) : Flight := run 0x21 [op 0 [8, 2, 1, 1, 1] 0, none, none, op 0x400 [8, 4, 1, 1, 1] 0] [mode, 0, 5, 0, 9]
def shard : CollArrival := { rank := 1, op := 2, extents := [8, 4, 1, 1, 1], data := List.replicate 64 1 }
def held : Retained := { panel := 0, n := 0, key := retKey (retRun 1), step := 0, size := 128, frames := [(0, 0)] }
def holding : State := { flying (retRun 1) collective with jig := { (flying (retRun 1) collective).jig with retained := [held] } }

theorem witness_RetRuns :
    (∀ mode ∈ [0, 1], let s := flying (retRun mode) collective
      plainRun s (retRun mode) 0x21 = true ∧ retPool s 1 (retPoolNo (retRun mode)) = some (0, 0) ∧ (slotDesc (retRun mode) 3).isSome = true ∧
      commOf s (retRun mode) = some pair ∧ allArrived (otherRanks pair) [shard] = true ∧ gatherMatched (retRun mode) [shard] = true ∧
      refusedRank [shard] = none ∧ retMode (retRun mode) = mode ∧ keptBy s (0, 0) 1 = none ∧ retHit s (retRun mode) (0, 0) = none ∧
      (∀ d ∈ (slotDesc (retRun mode) 3).toList, retFits s (0, 0) [] (gatheredSize d) = true) ∧ (retRun mode).run = none) ∧
    plainRun holding (retRun 1) 0x21 = true ∧ retHit holding (retRun 1) (0, 0) = some held ∧ held.filling = none ∧
    (∀ x ∈ held.frames, regionOf (retFrameAddr holding (0, 0) x) = .sideboard 0 ∧
      physRefusal holding (areaReq 1) (retFrameAddr holding (0, 0) x) 0x10000 false = none) := by
  decide +kernel

/-! ## Single operations against the spec's worked numbers -/

/-- R385: the check values of the nine ASCII bytes "123456789", and the register that the two CHECKs of the chapter's example hand on. -/
theorem test_crc_check_values :
    let m := [0x31, 0x32, 0x33, 0x34, 0x35, 0x36, 0x37, 0x38, 0x39]
    crc 0 m = 0xE3069283 ∧ crc 1 m = 0xCBF43926 ∧ crc 2 m = 0x6C40DF5F0B497347 ∧ crc 3 m = 0x29B1 ∧
    crcRun 0 (crcRun 0 (crcInit 0) (m.take 5)) (m.drop 5) ^^^ crcXorOut 0 = 0xE3069283 := by decide +kernel

/-- R101 and R102: the worked Philox output and draw. -/
theorem test_philox_zero :
    philox (0, 0, 0, 0) (0, 0) = (0x6627E8D5, 0xE169C58D, 0xBC57AC4C, 0x9B00DBD8) ∧ srDraw 0 0 0 0 = 0x6627E8 := by decide +kernel

/-- R59 and R60: 1000.25 in FP12 under each mode, SR with the draw 0x6627E8 of the chapter's example, below the discarded part. -/
theorem test_convert_fp12 :
    let v := Val.fin false 4001 (-2)
    (convertTo .fp12 false .rne false 0 v 1).code = 0x51F ∧ (convertTo .fp12 false .rtz false 0 v 1).code = 0x51E ∧
    (convertTo .fp12 false .rdn false 0 v 1).code = 0x51E ∧ (convertTo .fp12 false .rup false 0 v 1).code = 0x51F ∧
    (convertTo .fp12 false .sr false 0x6627E8 v 1).code = 0x51F ∧ (convertTo .fp12 false .sr false 0x840000 v 1).code = 0x51E := by
  decide +kernel

/-- R77 to R79: the block register keeps 2^-32 beside 2^30 and −2^30, and the block value is exact. -/
theorem test_block_register_is_exact :
    let ps := [(Val.fin false 1 15, Val.fin false 1 15), (.fin false 1 (-16), .fin false 1 (-16)), (.fin false 1 15, .fin true 1 15)]
    blockRegister ps = 1 ∧ (convertTo .bf16 false .rne false 0 (narrowBlock ps Val.one Val.one).v 1).code = 0x2F80 := by decide +kernel

/-- R247: the bound of the chapter's example is 0x3F400006. -/
theorem test_page_bound :
    enc32 (pageBound (.fin false 1 (-3)) [.fin false 2 0, .fin true 1 0] [.fin true 1 (-1), .fin true 3 0]
      [.fin false 3 (-1), .fin false 1 0]) = 0x3F400006 := by decide +kernel

/-- 00_scope.md, its example: the drawer of physical bench 33 of panel 15. -/
theorem test_drawer_base : drawerBase 15 33 = 0x0210F8400000 := by decide +kernel

/-! ## Memory, time and steps -/

theorem witness_Memory :
    Memory.wf [] = true ∧ Memory.wf (Memory.write [] 0xFFFFFFFFFFFF [7]) = true ∧
    Memory.write (Memory.write [] 4 [1, 2]) 4 [0, 2] = Memory.write [] 5 [2] := by decide +kernel

theorem witness_EveryStepKeepsMemoryCanonical :
    CanonicalMemory State.reset ∧ CanonicalMemory eventful ∧ Answers (step State.reset) fun _ => True :=
  ⟨rfl, witness_EventWaitRoom.1, _, rfl, trivial⟩

theorem witness_GlobalTime :
    State.reset.pending = [] ∧
    ({ State.reset with pen := { State.reset.pen with adopted := true, timed := true } } : State).pen.adopted = true ∧
    ({ State.reset with pen := { State.reset.pen with adopted := true, timed := true } } : State).pen.timed = true ∧
    Answers (exec (.nop 1) State.reset) fun _ => True := ⟨rfl, rfl, rfl, _, rfl, trivial⟩

end Sys2Proof.Tests
end

/-!
PROOFS. The statements on register accesses (00_scope.md R8, R9, R13) and on a role without access (00_scope.md R15): bit fields, the
tables' fields, who reaches a register, the register map, what the posting of a record leaves, and what an answer leaves.
-/
namespace Sys2Proof.Proofs

open Sys2Proof.Machine Sys2Proof.Safety Sys2Proof.Laws

/-! Bit fields. -/

/-- Bit `i` of a field is bit `lo + i` of the word. -/
theorem testBit_bits (x hi lo i : Nat) :
    (bits x hi lo).testBit i = (decide (i < hi + 1 - lo) && x.testBit (lo + i)) := by
  rw [bits, Nat.testBit_mod_two_pow, Nat.testBit_shiftRight]

theorem bits_lt (x hi lo : Nat) : bits x hi lo < 2 ^ (hi + 1 - lo) := Nat.mod_lt _ (Nat.two_pow_pos _)

/-- A word is its part below a field, the field, and its part above. -/
theorem split_at_field (x lo w : Nat) :
    x = 2 ^ lo * (2 ^ w * (x / 2 ^ lo / 2 ^ w) + x / 2 ^ lo % 2 ^ w) + x % 2 ^ lo := by
  rw [Nat.div_add_mod, Nat.div_add_mod]

/-- Setting a field replaces the middle part of the word. -/
theorem setBits_eq (x hi lo v : Nat) :
    setBits x hi lo v =
      2 ^ lo * (2 ^ (hi + 1 - lo) * (x / 2 ^ lo / 2 ^ (hi + 1 - lo)) + v % 2 ^ (hi + 1 - lo)) + x % 2 ^ lo := by
  have split := split_at_field x lo (hi + 1 - lo)
  unfold setBits bits
  simp only [Nat.shiftRight_eq_div_pow, Nat.shiftLeft_eq]
  generalize 2 ^ (hi + 1 - lo) = W at *
  rw [Nat.mul_add] at split ⊢
  rw [Nat.mul_comm (x / 2 ^ lo % W), Nat.mul_comm (v % W)]
  omega

/-- A bit of a word after a field was set: the field's own bits are the value's, every other bit is the word's. -/
theorem testBit_setBits (x hi lo v i : Nat) :
    (setBits x hi lo v).testBit i = if lo ≤ i ∧ i < lo + (hi + 1 - lo) then v.testBit (i - lo) else x.testBit i := by
  have below : x % 2 ^ lo < 2 ^ lo := Nat.mod_lt _ (Nat.two_pow_pos _)
  have within : v % 2 ^ (hi + 1 - lo) < 2 ^ (hi + 1 - lo) := Nat.mod_lt _ (Nat.two_pow_pos _)
  rw [setBits_eq, Nat.testBit_two_pow_mul_add _ below, Nat.testBit_two_pow_mul_add _ within, Nat.testBit_mod_two_pow,
    Nat.testBit_mod_two_pow, Nat.testBit_div_two_pow, Nat.testBit_div_two_pow]
  by_cases h : i < lo
  · simp [h, Nat.not_le.2 h]
  · by_cases h' : i - lo < hi + 1 - lo
    · simp [h, h', show lo ≤ i ∧ i < lo + (hi + 1 - lo) by omega]
    · simp only [h, h', if_false, show ¬(lo ≤ i ∧ i < lo + (hi + 1 - lo)) by omega]
      congr 1
      omega

/-- A field reads as it was set. -/
theorem bits_setBits_same (x hi lo v : Nat) : bits (setBits x hi lo v) hi lo = v % 2 ^ (hi + 1 - lo) := by
  apply Nat.eq_of_testBit_eq
  intro i
  rw [testBit_bits, testBit_setBits, Nat.testBit_mod_two_pow]
  by_cases h : i < hi + 1 - lo
  · simp [h]
  · simp [h]

/-- A field that another one does not meet reads as before. -/
theorem bits_setBits_other (x hi lo v hi' lo' : Nat) (h : hi < lo' ∨ hi' < lo) :
    bits (setBits x hi lo v) hi' lo' = bits x hi' lo' := by
  apply Nat.eq_of_testBit_eq
  intro i
  rw [testBit_bits, testBit_bits, testBit_setBits]
  by_cases hw : i < hi' + 1 - lo'
  · rw [if_neg (by omega)]
  · simp [hw]

/-- A field of a register lies in its 64 bits. -/
theorem bits_mod_word (x hi lo : Nat) (h : hi < 64) : bits (x % 2 ^ 64) hi lo = bits x hi lo := by
  apply Nat.eq_of_testBit_eq
  intro i
  rw [testBit_bits, testBit_bits, Nat.testBit_mod_two_pow]
  by_cases hw : i < hi + 1 - lo
  · simp [show lo + i < 64 by omega]
  · simp [hw]

/-! The fields of a register's table. -/

/-- Some fields of a word set to values of their own: those that `g` gives one. -/
def setFields (g : FieldSpec → Option Nat) (fs : List FieldSpec) (x : Nat) : Nat :=
  fs.foldl (fun x f => match g f with | some v => setBits x f.hi f.lo v | none => x) x

/-- The value that a write of `v` gives a field, by its access code (00_scope.md R9). -/
def writtenValue (old v : Nat) (f : FieldSpec) : Option Nat :=
  match f.acc with
  | .rw => some (bits v f.hi f.lo)
  | .w1c => some (bits old f.hi f.lo - Nat.land (bits old f.hi f.lo) (bits v f.hi f.lo))
  | .w1s => some (Nat.lor (bits old f.hi f.lo) (bits v f.hi f.lo))
  | _ => none

/-- The value that a read of bits `hi` to `lo` leaves in a field: 0 in an RC field that lies wholly in them (R8, R9). -/
def clearedValue (hi lo : Nat) (f : FieldSpec) : Option Nat :=
  if f.acc == .rc && lo ≤ f.lo && f.hi ≤ hi then some 0 else none

theorem writeFields_eq (fs : List FieldSpec) (old v : Nat) : writeFields fs old v = setFields (writtenValue old v) fs old := by
  unfold writeFields setFields
  congr 1
  funext x f
  unfold writtenValue
  cases f.acc <;> rfl

theorem clearRc_eq (fs : List FieldSpec) (x hi lo : Nat) : clearRc fs x hi lo = setFields (clearedValue hi lo) fs x := by
  unfold clearRc setFields
  congr 1
  funext x f
  unfold clearedValue
  split <;> rfl

/-- The fields of every table rise without overlap in 64 bits. -/
theorem regFields_rise (id : RegId) :
    (regFields id).Pairwise (fun f g => f.hi < g.lo) ∧ ∀ f ∈ regFields id, f.lo ≤ f.hi ∧ f.hi < 64 := by
  cases id <;> decide

/-- Setting fields keeps what lies apart from them. -/
theorem bits_setFields_apart (g : FieldSpec → Option Nat) (fs : List FieldSpec) (hi lo : Nat)
    (h : ∀ f ∈ fs, f.hi < lo ∨ hi < f.lo) (x : Nat) : bits (setFields g fs x) hi lo = bits x hi lo := by
  induction fs generalizing x with
  | nil => rfl
  | cons f fs ih =>
    rw [List.forall_mem_cons] at h
    have rest := ih h.2
    unfold setFields at rest ⊢
    rw [List.foldl_cons, rest]
    cases g f with
    | none => rfl
    | some v => exact bits_setBits_other x f.hi f.lo v hi lo h.1

/-- Of fields that rise without overlap, one that is set reads its value and one that is not reads as before. -/
theorem bits_setFields (g : FieldSpec → Option Nat) (fs : List FieldSpec) (rise : fs.Pairwise fun f g => f.hi < g.lo)
    (wide : ∀ f ∈ fs, f.lo ≤ f.hi) (f : FieldSpec) (hf : f ∈ fs) (x : Nat) :
    bits (setFields g fs x) f.hi f.lo = match g f with | some v => v % 2 ^ (f.hi + 1 - f.lo) | none => bits x f.hi f.lo := by
  induction fs generalizing x with
  | nil => exact absurd hf List.not_mem_nil
  | cons k fs ih =>
    rw [List.pairwise_cons] at rise
    rw [List.forall_mem_cons] at wide
    have step : setFields g (k :: fs) x = setFields g fs (match g k with | some v => setBits x k.hi k.lo v | none => x) := rfl
    rw [step]
    rcases List.mem_cons.1 hf with rfl | hf
    · rw [bits_setFields_apart g fs f.hi f.lo (fun j hj => Or.inr (rise.1 j hj))]
      cases g f with
      | none => rfl
      | some v => exact bits_setBits_same x f.hi f.lo v
    · rw [ih rise.2 wide.2 hf]
      have kept : bits (match g k with | some v => setBits x k.hi k.lo v | none => x) f.hi f.lo = bits x f.hi f.lo := by
        cases g k with
        | none => rfl
        | some v => exact bits_setBits_other x k.hi k.lo v f.hi f.lo (Or.inl (rise.1 f hf))
      cases g f with
      | none => exact kept
      | some v => rfl

/-- The same for the fields of a register's table. -/
theorem bits_setFields_reg (g : FieldSpec → Option Nat) (id : RegId) (f : FieldSpec) (hf : f ∈ regFields id) (x : Nat) :
    bits (setFields g (regFields id) x) f.hi f.lo =
      match g f with | some v => v % 2 ^ (f.hi + 1 - f.lo) | none => bits x f.hi f.lo :=
  have ⟨rise, wide⟩ := regFields_rise id
  bits_setFields g _ rise (fun f hf => (wide f hf).1) f hf x

/-- What a write leaves in each field of a register, by its access code (00_scope.md R9). -/
theorem bits_writeFields (id : RegId) (f : FieldSpec) (hf : f ∈ regFields id) (old v : Nat) :
    bits (writeFields (regFields id) old v) f.hi f.lo = (writtenValue old v f).getD (bits old f.hi f.lo) := by
  have bound := bits_lt old f.hi f.lo
  rw [writeFields_eq, bits_setFields_reg _ id f hf]
  unfold writtenValue
  cases f.acc with
  | rw => exact Nat.mod_eq_of_lt (bits_lt v f.hi f.lo)
  | w1c => exact Nat.mod_eq_of_lt (Nat.lt_of_le_of_lt (Nat.sub_le _ _) bound)
  | w1s => exact Nat.mod_eq_of_lt (Nat.or_lt_two_pow bound (bits_lt v f.hi f.lo))
  | ro | wo | rc | rs => rfl

/-- What a read of bits `hi` to `lo` leaves in each field of a register (00_scope.md R8, R9). -/
theorem bits_clearRc (id : RegId) (f : FieldSpec) (hf : f ∈ regFields id) (x hi lo : Nat) :
    bits (clearRc (regFields id) x hi lo) f.hi f.lo = if f.acc = .rc ∧ lo ≤ f.lo ∧ f.hi ≤ hi then 0 else bits x f.hi f.lo := by
  rw [clearRc_eq, bits_setFields_reg _ id f hf]
  unfold clearedValue
  by_cases h : f.acc = .rc ∧ lo ≤ f.lo ∧ f.hi ≤ hi
  · simp [h]
  · rw [if_neg h, if_neg (by simpa [and_assoc] using h)]

/-! Stored registers. -/

/-- A field of a register reads what the register was set to. -/
theorem rfield_rset_same (s : State) (a : RegAddr) (v hi lo : Nat) (h : hi < 64) : rfield (rset s a v) a hi lo = bits v hi lo := by
  rw [rfield, rget_rset_same, bits_mod_word _ _ _ h]

/-- Setting a register keeps every other. -/
theorem sameRegsBut_rset (s : State) (a : RegAddr) (v : Nat) : SameRegsBut [a] s (rset s a v) :=
  fun off h => regStored_regStore_other s (regOffset a) off v (by simpa using h)

end Sys2Proof.Proofs

namespace Sys2Proof.Proofs

open Sys2Proof.Machine Sys2Proof.Safety Sys2Proof.Laws

/-! Which register an access reaches (00_scope.md R8, R13; 18_partitions.md R494). -/

/-- Every register lies at a multiple of 8. -/
theorem regOffset_aligned (a : RegAddr) : regOffset a % 8 = 0 := by
  have rows : ∀ r ∈ regRows, r.off % 8 = 0 ∧ r.stride % 8 = 0 := by decide +kernel
  unfold regOffset
  cases hr : regRows.find? (fun r => r.id == a.id && r.kind == locKind a.loc) with
  | none => rfl
  | some r =>
    obtain ⟨hoff, hstride⟩ := rows r (List.mem_of_find?_eq_some hr)
    have base : locBase a.loc % 8 = 0 := by
      cases a.loc <;> simp only [locBase] <;> omega
    have index : r.stride * a.i % 8 = 0 := by rw [Nat.mul_mod, hstride, Nat.zero_mul]
    simp only []
    omega

/-- A 64-bit access at the offset of a register that it may reach comes to that register. -/
theorem reachOf_whole (s : State) (src : Src) (a : RegAddr) (write : Bool) (h : Reaches s src a) :
    reachOf s src (regOffset a) 64 write = .register a := by
  obtain ⟨hvf, hlink, hreg, hhid⟩ := h
  have whole : regOffset a / 8 * 8 = regOffset a := by have := regOffset_aligned a; omega
  simp [reachOf, hvf, hlink, whole, hreg, hhid, regOffset_aligned]

/-- So does a 32-bit access at either half. -/
theorem reachOf_half (s : State) (src : Src) (a : RegAddr) (k : Nat) (write : Bool) (h : Reaches s src a) (hk : k < 2) :
    reachOf s src (regOffset a + 4 * k) 32 write = .register a := by
  obtain ⟨hvf, hlink, hreg, hhid⟩ := h
  have aligned := regOffset_aligned a
  have whole : (regOffset a + 4 * k) / 8 * 8 = regOffset a := by omega
  have half : (regOffset a + 4 * k) % 4 = 0 := by omega
  simp [reachOf, hvf, hlink, whole, half, hreg, hhid]

/-- An access that is not naturally aligned reaches no register and is refused nowhere. -/
theorem reachOf_misaligned (s : State) (src : Src) (off width : Nat) (write : Bool) (h : off % (width / 8) ≠ 0) :
    reachOf s src off width write = .nowhere ∨ reachOf s src off width write = .hole := by
  cases hl : linkUp s src with
  | false => simp [reachOf, hl]
  | true =>
    cases hv : isVf src with
    | false => simp [reachOf, hl, hv, h]
    | true => cases hp : vfPart s src <;> simp [reachOf, hl, hv, hp, h]

/-- Nobody but a VF is refused. -/
theorem reachOf_not_refused (s : State) (src : Src) (off width part : Nat) (write : Bool) (h : isVf src = false) :
    reachOf s src off width write ≠ .refused part := by
  cases hl : linkUp s src with
  | false => simp [reachOf, hl]
  | true =>
    simp only [reachOf, hl, h, Bool.not_true, Bool.false_eq_true, if_false, Bool.not_false, if_true]
    split
    · split <;> exact nofun
    · exact nofun

/-- Where no table defines a register, a function that is not a VF meets a hole (R13). -/
theorem reachOf_undefined (s : State) (src : Src) (off : Nat) (write : Bool) (hoff : off % 8 = 0) (hreg : regOf off = none)
    (hlink : linkUp s src = true) (hvf : isVf src = false) : reachOf s src off 64 write = .hole := by
  have whole : off / 8 * 8 = off := by omega
  simp [reachOf, hlink, hvf, hoff, whole, hreg]

/-- A VF that is bound to no partition reaches nothing (18_partitions.md R492). -/
theorem reachOf_unbound (s : State) (src : Src) (off width : Nat) (write : Bool) (hvf : isVf src = true)
    (hpart : vfPart s src = none) : reachOf s src off width write = .nowhere := by
  simp [reachOf, hvf, hpart]

/-- A bound VF is refused where no table defines a register (18_partitions.md R494). -/
theorem reachOf_refused (s : State) (src : Src) (off part : Nat) (write : Bool) (hoff : off % 8 = 0) (hreg : regOf off = none)
    (hlink : linkUp s src = true) (hvf : isVf src = true) (hpart : vfPart s src = some part) :
    reachOf s src off 64 write = .refused part := by
  have whole : off / 8 * 8 = off := by omega
  simp [reachOf, hlink, hvf, hpart, hoff, whole, hreg]

/-! What a write does. -/

theorem exec_registerWrite (src : Src) (off width v : Nat) (s : State) :
    exec (.registerWrite src off width v) s = .next (regWrite src off width v s) := rfl

theorem exec_registerRead (src : Src) (off width : Nat) (s : State) :
    exec (.registerRead src off width) s = .next (regRead src off width s) := rfl

/-- Noting an assignment changes nothing else. -/
theorem noteAssigned_frame (s : State) (src : Src) (a : RegAddr) (v : Nat) :
    noteAssigned s src a v = { s with mmu := { s.mmu with assigned := (noteAssigned s src a v).mmu.assigned } } := by
  unfold noteAssigned
  split
  · split <;> rfl
  · rfl

/-- A register without a rule of its own is written by its access codes alone: every branch but the last is for a register of
`ownRuleRegisters`. -/
theorem regStep_plain (s : State) (a : RegAddr) (v : Nat) (h : a.id ∉ ownRuleRegisters) : regStep s a v = plainWrite s a v := by
  unfold regStep
  split <;> simp_all [ownRuleRegisters]

/-- A write by anybody but a VF writes the value itself. -/
theorem effectiveValue_own (s : State) (src : Src) (a : RegAddr) (v : Nat) (h : isVf src = false) : effectiveValue s src a v = v := by
  simp [effectiveValue, h]

/-- A 64-bit write that reaches a register without a rule of its own sets its fields by their access codes. -/
theorem regWrite_plain (s : State) (src : Src) (a : RegAddr) (v : Nat) (h : Reaches s src a) (hid : a.id ∉ ownRuleRegisters)
    (hv : v < 2 ^ 64) : regWrite src (regOffset a) 64 v s = plainWrite (noteAssigned s src a v) a v := by
  simp only [regWrite, reachOf_whole s src a true h, Nat.mod_eq_of_lt hv, effectiveValue_own s src a v h.1,
    regStep_plain _ a v hid, BEq.rfl, if_true]

/-- A 32-bit write that no rule of 18_partitions.md R494 refuses is discarded (00_scope.md R8). -/
theorem regWrite_half (s : State) (src : Src) (off v : Nat) (h : ∀ part, reachOf s src off 32 true ≠ .refused part) :
    regWrite src off 32 v s = s := by
  unfold regWrite
  split
  · rename_i part hr
    exact absurd hr (h part)
  · rfl
  · rfl

/-- A write that is not naturally aligned is discarded (00_scope.md R8). -/
theorem regWrite_misaligned (s : State) (src : Src) (off width v : Nat) (h : off % (width / 8) ≠ 0) :
    regWrite src off width v s = s := by
  rcases reachOf_misaligned s src off width true h with hr | hr <;> simp only [regWrite, hr]

/-- What a read that reaches a register answers, and the fields that it clears (R8, R9). -/
theorem regRead_register (s : State) (src : Src) (off width : Nat) (a : RegAddr) (h : reachOf s src off width false = .register a)
    (lo : Nat) (hlo : (if width == 32 then 8 * (off % 8) else 0) = lo) :
    regRead src off width s = emit (rset s a (clearRc (regFields a.id) (rget s a) (lo + width - 1) lo))
      (.regData src off width (bits (regValue s a) (lo + width - 1) lo)) := by
  subst hlo
  simp only [regRead, h]

/-- What a read that clears RC fields leaves of the machine. -/
theorem read_clears (s : State) (a : RegAddr) (o : Out) (hi lo : Nat) :
    let t := emit (rset s a (clearRc (regFields a.id) (rget s a) hi lo)) o
    t.sent = o :: s.sent ∧
    (∀ f ∈ regFields a.id, rfield t a f.hi f.lo = if f.acc = .rc ∧ lo ≤ f.lo ∧ f.hi ≤ hi then 0 else rfield s a f.hi f.lo) ∧
    SameRegsBut [a] s t ∧ t = { s with regs := t.regs, sent := t.sent } := by
  refine ⟨rfl, fun f hf => ?_, sameRegsBut_rset s a _, rfl⟩
  have wide := (regFields_rise a.id).2 f hf
  exact (rfield_rset_same s a _ f.hi f.lo wide.2).trans (bits_clearRc a.id f hf _ hi lo)

/-- Settles O7: the access codes act field by field (`bits_writeFields`), and a narrow or misaligned write meets no register. -/
theorem registerWritesActByAccessCode : Obligations.RegisterWritesActByAccessCode := by
  unfold Obligations.RegisterWritesActByAccessCode
  refine ⟨fun s src a v hr hid hv => ?_, fun s src addr v => ⟨fun h => ?_, fun h => ?_⟩⟩
  · rw [exec_registerWrite, regWrite_plain s src a v hr hid hv]
    have same : rget (noteAssigned s src a v) a = rget s a := by rw [noteAssigned_frame]; rfl
    refine ⟨_, rfl, fun f hf => ?_, ?_, ?_⟩
    · have wide := (regFields_rise a.id).2 f hf
      rw [plainWrite, rfield_rset_same _ _ _ _ _ wide.2, bits_writeFields a.id f hf, same]
      unfold writtenValue
      cases f.acc <;> rfl
    · rw [noteAssigned_frame]
      exact sameRegsBut_rset _ a _
    · rw [noteAssigned_frame]
      rfl
  · rw [exec_registerWrite]
    rcases h with hvf | hal
    · rw [regWrite_half s src addr v fun part => reachOf_not_refused s src addr 32 part true hvf]
    · rw [regWrite_misaligned s src addr 32 v hal]
  · rw [exec_registerWrite, regWrite_misaligned s src addr 64 v h]

end Sys2Proof.Proofs

namespace Sys2Proof.Proofs

open Sys2Proof.Machine

/-! The register map is one-to-one: a register that a row of the map gives is the one at its offset (00_scope.md R13; 01_cabinet.md
R34 to R37). -/

/-- Does the block of a register exist? -/
def locExists : Loc → Bool
  | .bench p b => p < 16 && b < 34
  | .panel p => p < 16
  | .edge e => e < 4
  | .media m => m < 2
  | .ingest | .halyard => true

/-- How many indices a register has in a kind of block; none where no row of the map gives it. -/
def rowCount (id : RegId) (k : BlockKind) : Nat :=
  match regRows.find? (fun r => r.id == id && r.kind == k) with | some r => r.count | none => 0

/-- Does the map give a register: its block exists, and its index is one of its row's? -/
def inMap (a : RegAddr) : Bool := locExists a.loc && decide (a.i < rowCount a.id (locKind a.loc))

theorem inMap_panel (id : RegId) (p i n : Nat) (hn : rowCount id .panel = n) (hp : p < 16) (hi : i < n) :
    inMap (panelReg id p i) = true := by
  simp [inMap, panelReg, locExists, locKind, hn, hp, hi]

theorem inMap_edge (id : RegId) (e i n : Nat) (hn : rowCount id .edge = n) (he : e < 4) (hi : i < n) :
    inMap (edgeReg id e i) = true := by
  simp [inMap, edgeReg, locExists, locKind, hn, he, hi]

theorem inMap_halyard (id : RegId) (hn : rowCount id .halyard = 1) : inMap (halReg id) = true := by
  simp [inMap, halReg, locExists, locKind, hn]

/-- Where the registers of a kind of block lie in it: a panel's own come after its benches' blocks. -/
def blockHolds (k : BlockKind) (o : Nat) : Bool :=
  match k with
  | .bench => o < 0x10000
  | .panel => 34 * 0x10000 ≤ o && o < 0x1000000
  | _ => o < 0x1000000

/-- Every index of a row lies in its block, and no other row of the block holds it. -/
def rowApart (r : RegRow) : Bool :=
  0 < r.stride && (List.range r.count).all fun i =>
    blockHolds r.kind (r.off + r.stride * i) && regRows.find? (rowHolds r.kind (r.off + r.stride * i)) == some r

theorem rows_apart : regRows.all rowApart = true := by decide +kernel

/-- The block of a register is the first that is asked for an offset in it. -/
theorem locsOf_block (l : Loc) (o : Nat) (hl : locExists l = true) (ho : blockHolds (locKind l) o = true) :
    ∃ rest, locsOf (locBase l + o) = (l, o) :: rest := by
  cases l with
  | bench p b =>
    simp only [locExists, locKind, blockHolds, Bool.and_eq_true, decide_eq_true_eq] at hl ho
    have hn : (p * 0x1000000 + b * 0x10000 + o) / 0x1000000 = p := by omega
    have hm : (p * 0x1000000 + b * 0x10000 + o) % 0x1000000 = b * 0x10000 + o := by omega
    have hb : (b * 0x10000 + o) / 0x10000 = b := by rw [Nat.mul_comm, Nat.mul_add_div (by decide), Nat.div_eq_of_lt ho, Nat.add_zero]
    have hr : (b * 0x10000 + o) % 0x10000 = o := by rw [Nat.mul_comm, Nat.mul_add_mod, Nat.mod_eq_of_lt ho]
    simp [locsOf, locBase, hn, hm, hb, hr, hl]
  | panel p =>
    simp only [locExists, locKind, blockHolds, Bool.and_eq_true, decide_eq_true_eq] at hl ho
    have hn : (p * 0x1000000 + o) / 0x1000000 = p := by omega
    have hm : (p * 0x1000000 + o) % 0x1000000 = o := by omega
    simp [locsOf, locBase, hn, hm, hl, show ¬ o / 0x10000 < 34 by omega]
  | edge e =>
    simp only [locExists, locKind, blockHolds, decide_eq_true_eq] at hl ho
    have hn : (0x10000000 + e * 0x1000000 + o) / 0x1000000 = 16 + e := by omega
    have hm : (0x10000000 + e * 0x1000000 + o) % 0x1000000 = o := by omega
    have above : ¬ 16 + e < 16 := by omega
    have die : 16 + e < 20 := by omega
    simp [locsOf, locBase, hn, hm, above, die]
  | media m =>
    simp only [locExists, locKind, blockHolds, decide_eq_true_eq] at hl ho
    have hn : (0x20000000 + m * 0x1000000 + o) / 0x1000000 = 0x20 + m := by omega
    have hm : (0x20000000 + m * 0x1000000 + o) % 0x1000000 = o := by omega
    simp [locsOf, locBase, hn, hm, show ¬ 32 + m < 16 by omega, show ¬ 32 + m < 20 by omega,
      show m = 0 ∨ 32 + m = 33 by omega]
  | ingest =>
    simp only [locKind, blockHolds, decide_eq_true_eq] at ho
    have hn : (0x28000000 + o) / 0x1000000 = 0x28 := by omega
    have hm : (0x28000000 + o) % 0x1000000 = o := by omega
    simp [locsOf, locBase, hn, hm]
  | halyard =>
    simp only [locKind, blockHolds, decide_eq_true_eq] at ho
    have hn : (0x30000000 + o) / 0x1000000 = 0x30 := by omega
    have hm : (0x30000000 + o) % 0x1000000 = o := by omega
    simp [locsOf, locBase, hn, hm]

/-- The register at the offset of a register that the map gives is that register. -/
theorem regOf_regOffset (a : RegAddr) (h : inMap a = true) : regOf (regOffset a) = some a := by
  obtain ⟨id, l, i⟩ := a
  simp only [inMap, Bool.and_eq_true, decide_eq_true_eq] at h
  obtain ⟨hl, hi⟩ := h
  simp only [rowCount] at hi
  cases hr : regRows.find? (fun r => r.id == id && r.kind == locKind l) with
  | none => simp [hr] at hi
  | some r =>
    simp only [hr] at hi
    have named := List.find?_some hr
    simp only [Bool.and_eq_true, beq_iff_eq] at named
    obtain ⟨hid, hkind⟩ := named
    have apart := List.all_eq_true.1 rows_apart r (List.mem_of_find?_eq_some hr)
    simp only [rowApart, Bool.and_eq_true, decide_eq_true_eq, List.all_eq_true, List.mem_range, beq_iff_eq] at apart
    obtain ⟨hstride, hall⟩ := apart
    obtain ⟨hblock, hfind⟩ := hall i hi
    have offset : regOffset ⟨id, l, i⟩ = locBase l + (r.off + r.stride * i) := by
      unfold regOffset
      rw [hr]
      exact Nat.add_assoc _ _ _
    obtain ⟨rest, hlocs⟩ := locsOf_block l (r.off + r.stride * i) hl (hkind ▸ hblock)
    have index : (r.off + r.stride * i - r.off) / r.stride = i := by
      rw [Nat.add_sub_cancel_left, Nat.mul_div_cancel_left i hstride]
    rw [offset, regOf, hlocs, List.findSome?_cons]
    simp only [← hkind, hfind, Option.map_some, hid, index]

/-- Two registers of the map at one offset are one register. -/
theorem regOffset_inj (a b : RegAddr) (ha : regOf (regOffset a) = some a) (hb : inMap b = true)
    (h : regOffset a = regOffset b) : a = b := by
  rw [h, regOf_regOffset b hb] at ha
  exact (Option.some.inj ha).symm

end Sys2Proof.Proofs

namespace Sys2Proof.Proofs

open Sys2Proof.Machine Sys2Proof.Safety Sys2Proof.Laws

/-! What the posting of a record leaves as it was (20_faults.md R538, R613; 05_macro_instructions.md R160 to R162): the dictionary, the
MIs in flight, and every register but those of the rings, the translations, the controllers and the routes that a record meets. -/

/-- The registers that the posting of a record may change. -/
def postRegisters : List RegId :=
  [.prtXfault, .jigErptr, .jigErbase, .pwrRet, .pwrRetstat, .hbmEcc, .hbmEaddr, .lpxEcc, .lpxEaddr, .azfRtctl]

/-- A register of the map that the posting of a record may change. -/
structure PostRegister (b : RegAddr) : Prop where
  given : inMap b = true
  listed : b.id ∈ postRegisters

theorem postRegister_panel (id : RegId) (p i n : Nat) (hid : id ∈ postRegisters) (hn : rowCount id .panel = n) (hp : p < 16)
    (hi : i < n) : PostRegister (panelReg id p i) := ⟨inMap_panel id p i n hn hp hi, hid⟩

theorem postRegister_edge (id : RegId) (e i n : Nat) (hid : id ∈ postRegisters) (hn : rowCount id .edge = n) (he : e < 4)
    (hi : i < n) : PostRegister (edgeReg id e i) := ⟨inMap_edge id e i n hn he hi, hid⟩

/-- The dictionary with its session, the MIs in flight, and every register of no `postRegisters` table are as they were. -/
structure PostFrame (s t : State) : Prop where
  mgmt : t.hal.mgmt = s.hal.mgmt
  flights : t.jig.flights = s.jig.flights
  regs : ∀ a, regOf (regOffset a) = some a → a.id ∉ postRegisters → rget t a = rget s a

namespace PostFrame

theorem refl (s : State) : PostFrame s s := ⟨rfl, rfl, fun _ _ _ => rfl⟩

theorem trans {s t u : State} (h : PostFrame s t) (h' : PostFrame t u) : PostFrame s u :=
  ⟨h'.mgmt.trans h.mgmt, h'.flights.trans h.flights, fun a ha hid => (h'.regs a ha hid).trans (h.regs a ha hid)⟩

/-- An update of other parts of the machine. -/
theorem of_eq {s t : State} (hm : t.hal.mgmt = s.hal.mgmt) (hf : t.jig.flights = s.jig.flights) (hr : t.regs = s.regs) :
    PostFrame s t :=
  ⟨hm, hf, fun a _ _ => by unfold rget regStored; rw [hr]⟩

/-- What follows such an update. -/
theorem after {s t u : State} (h : PostFrame t u) (hm : t.hal.mgmt = s.hal.mgmt) (hf : t.jig.flights = s.jig.flights)
    (hr : t.regs = s.regs) : PostFrame s u :=
  (of_eq hm hf hr).trans h

/-- Setting one of those registers. -/
theorem rset (s : State) (b : RegAddr) (v : Nat) (hb : PostRegister b) : PostFrame s (Machine.rset s b v) := by
  refine ⟨rfl, rfl, fun a ha hna => rget_rset_other s b a v fun h => ?_⟩
  rw [regOffset_inj a b ha hb.given h] at hna
  exact hna hb.listed

theorem rsetField (s : State) (b : RegAddr) (hi lo v : Nat) (hb : PostRegister b) : PostFrame s (Machine.rsetField s b hi lo v) :=
  rset s b _ hb

theorem rbump (s : State) (b : RegAddr) (hi lo n : Nat) (hb : PostRegister b) : PostFrame s (Machine.rbump s b hi lo n) :=
  rset s b _ hb

/-- A fold of updates that each keep the frame. -/
theorem foldl {α : Type} (f : State → α → State) (l : List α) (h : ∀ s, ∀ x ∈ l, PostFrame s (f s x)) (s : State) :
    PostFrame s (l.foldl f s) := by
  induction l generalizing s with
  | nil => exact refl s
  | cons x l ih =>
    exact (h s x List.mem_cons_self).trans (ih (fun s y hy => h s y (List.mem_cons_of_mem x hy)) (f s x))

end PostFrame

/-! Memory. -/

theorem noteWrite_postFrame (s : State) (a n : Nat) : PostFrame s (noteWrite s a n) := by
  unfold noteWrite
  split
  · exact .of_eq rfl rfl rfl
  · exact .of_eq rfl rfl rfl
  · exact .refl s

theorem physWrite_postFrame (s : State) (a : Nat) (bs : List Nat) : PostFrame s (physWrite s a bs) := by
  refine (noteWrite_postFrame s a bs.length).trans ?_
  unfold physWrite
  simp only []
  split
  · exact .of_eq rfl rfl rfl
  · refine .foldl _ _ (fun s u _ => ?_) _
    split
    · exact .refl s
    · split
      · exact .of_eq rfl rfl rfl
      · split
        · exact .refl s
        · exact .of_eq rfl rfl rfl

/-- A drawer or a sideboard of the map is one of the 16 panels'. -/
def OfSixteen : Region → Prop
  | .drawer p _ | .sideboard p => p < 16
  | _ => True

theorem OfSixteen.of_drawer {p b : Nat} (h : p < 16) : OfSixteen (.drawer p b) := h
theorem OfSixteen.of_sideboard {p : Nat} (h : p < 16) : OfSixteen (.sideboard p) := h

theorem regionOf_ofSixteen (a : Nat) : OfSixteen (regionOf a) := by
  unfold regionOf
  iterate 4 refine iteInduction (fun _ => trivial) fun _ => ?_
  refine iteInduction (fun h => ?_) fun _ => ?_
  · apply OfSixteen.of_sideboard
    omega
  refine iteInduction (fun _ => trivial) fun _ => ?_
  refine iteInduction (fun h => ?_) fun _ => ?_
  · have near : a - 0x021000000000 < 0x10000000 * 16 := by omega
    dsimp only
    generalize a - 0x021000000000 = d at near ⊢
    refine iteInduction (fun _ => ?_) fun _ => trivial
    exact OfSixteen.of_drawer (Nat.div_lt_of_lt_mul near)
  iterate 4 refine iteInduction (fun _ => trivial) fun _ => ?_
  trivial

/-- An access reaches units of the 16 panels. -/
theorem retUnitsOf_panel (a n : Nat) : ∀ u ∈ retUnitsOf a n, u.1 < 16 := by
  have here := regionOf_ofSixteen a
  intro u hu
  unfold retUnitsOf at hu
  cases hr : regionOf a with
  | drawer p b =>
    rw [hr] at hu here
    rw [List.mem_singleton.1 hu]
    exact here
  | sideboard p =>
    rw [hr] at hu here
    obtain ⟨i, -, rfl⟩ := List.mem_map.1 hu
    exact here
  | hbm | lpddr | neighbor | registers | unmapped =>
    rw [hr] at hu
    exact absurd hu List.not_mem_nil

/-! Units that wake, translations, and the controllers' counts. -/

theorem wakeUnit_postFrame (s : State) (p : Nat) (u : RetUnit) (hp : p < 16) : PostFrame s (wakeUnit s p u) := by
  have ret := postRegister_panel .pwrRet p 0 1 (by decide) (by decide +kernel) hp (by decide)
  have stat := postRegister_panel .pwrRetstat p 0 1 (by decide) (by decide +kernel) hp (by decide)
  unfold wakeUnit
  split
  · exact .refl s
  · split
    · exact .refl s
    · have counted : PostFrame s
          (rbump (rsetField s (panelReg .pwrRet p 0) (retBit u) (retBit u) 0) (panelReg .pwrRetstat p 0) 63 52 1) :=
        (PostFrame.rsetField s _ _ _ 0 ret).trans (.rbump _ _ 63 52 1 stat)
      exact counted.trans (.of_eq rfl rfl rfl)

theorem wakeFor_postFrame (s : State) (a n : Nat) : PostFrame s (wakeFor s a n) :=
  .foldl _ _ (fun s u hu => wakeUnit_postFrame s u.1 u.2 (retUnitsOf_panel a n u hu)) s

theorem captureXfault_postFrame (s : State) (part va detail : Nat) : PostFrame s (captureXfault s part va detail) := by
  unfold captureXfault
  simp only []
  split
  · exact .refl s
  · exact .rset s _ _ ⟨inMap_halyard .prtXfault (by decide +kernel), by decide⟩

theorem translateQuiet_postFrame (s : State) (part va : Nat) (write : Bool) : PostFrame s (translateQuiet s part va write).2 := by
  have cached_page : ∀ (l : List TlbEntry) (e : TlbEntry), PostFrame s
      (if (if write then e.write else e.read) then (Except.ok (e.pa + (va - e.va)), { s with mmu := { s.mmu with tlb := l } })
        else (Except.error 0x0C02, captureXfault { s with mmu := { s.mmu with tlb := l } } part va 0x0C02) : Except Nat Nat × State).2 := by
    intro l e
    cases (if write then e.write else e.read) with
    | true => exact .of_eq rfl rfl rfl
    | false => exact .after (captureXfault_postFrame _ part va 0x0C02) rfl rfl rfl
  unfold translateQuiet
  cases hc : cached s part va with
  | some e => exact cached_page s.mmu.tlb e
  | none =>
    cases hw : walk s part va with
    | error d => exact captureXfault_postFrame s part va d
    | ok e => exact cached_page (e :: s.mmu.tlb) e

/-- Does the module have a DRAM channel's stack or package (12_hbm_lpddr.md R338, R339)? -/
def ChannelExists : DramChan → Prop
  | .hbm st _ _ => st < 8
  | .lpddr pk _ => pk < 16

theorem chanAt_exists (draw : Option Nat) (a : Nat) (ch : DramChan) (h : chanAt draw a = some ch) : ChannelExists ch := by
  unfold chanAt at h
  split at h
  · rw [← Option.some.inj h]
    exact bits_lt _ 2 0
  · rw [← Option.some.inj h]
    exact bits_lt _ 3 0
  · exact absurd h nofun

/-- The register that captures the address of a channel's first uncorrectable error (12_hbm_lpddr.md R352, R353). -/
def eccAddrReg : DramChan → RegAddr
  | .hbm st _ _ => edgeReg .hbmEaddr (st / 2) (st % 2)
  | .lpddr pk _ => edgeReg .lpxEaddr (pk / 4) 0

theorem eccReg_postRegister (ch : DramChan) (h : ChannelExists ch) : PostRegister (eccReg ch) ∧ PostRegister (eccAddrReg ch) := by
  cases ch with
  | hbm st c pc =>
    have hst : st < 8 := h
    exact ⟨postRegister_edge .hbmEcc _ _ 2 (by decide) (by decide +kernel) (by omega) (by omega),
      postRegister_edge .hbmEaddr _ _ 2 (by decide) (by decide +kernel) (by omega) (by omega)⟩
  | lpddr pk c =>
    have hpk : pk < 16 := h
    exact ⟨postRegister_edge .lpxEcc _ _ 1 (by decide) (by decide +kernel) (by omega) (by decide),
      postRegister_edge .lpxEaddr _ _ 1 (by decide) (by decide +kernel) (by omega) (by decide)⟩

/-- A controller counts an error and captures the first (12_hbm_lpddr.md R352). -/
theorem eccCapture_postFrame (s : State) (ecc ead : RegAddr) (v : Nat) (he : PostRegister ecc) (ha : PostRegister ead) :
    PostFrame s (if rbit (rbump s ecc 47 32 1) ecc 63 then rbump s ecc 47 32 1
      else rset (rsetField (rbump s ecc 47 32 1) ecc 63 63 1) ead v) := by
  have count : PostFrame s (rbump s ecc 47 32 1) := .rbump s ecc 47 32 1 he
  split
  · exact count
  · exact (count.trans (.rsetField _ ecc 63 63 1 he)).trans (.rset _ ead v ha)

theorem ueRecord_postFrame (s : State) (u : Nat) : PostFrame s (ueRecord s u).1 := by
  unfold ueRecord
  cases hch : dramChanOf s u with
  | none => exact .refl s
  | some ch =>
    obtain ⟨he, ha⟩ := eccReg_postRegister ch (chanAt_exists _ _ ch hch)
    cases ch <;> exact .after (eccCapture_postFrame _ _ _ _ he ha) rfl rfl rfl

/-! Packets to a neighbour. -/

theorem sendFlit_postFrame (s : State) (p kind : Nat) (body : List Nat) : PostFrame s (sendFlit s p kind body) :=
  .of_eq rfl rfl rfl

theorem transmit_postFrame (s : State) (p : Nat) (k : Packet) : PostFrame s (transmit s p k) := by
  have queued : ∀ v, PostFrame s (setPort s p v) := fun v => .of_eq rfl rfl rfl
  unfold transmit
  simp only []
  split
  · exact (queued _).trans (.foldl _ _ (fun s b _ => sendFlit_postFrame s p _ b.1) _)
  · exact queued _

theorem sendPacket_postFrame (s : State) (k : Packet) : PostFrame s (sendPacket s k).1 := by
  have unreachable : PostFrame s (unreachableCount s 0) :=
    .rbump s _ 63 48 1 (postRegister_edge .azfRtctl 0 0 1 (by decide) (by decide +kernel) (by decide) (by decide))
  unfold sendPacket
  split
  · exact .refl s
  · split
    · exact transmit_postFrame s _ k
    · exact unreachable

theorem launch_postFrame (s : State) (r : Request) : PostFrame s (launch s r).1 := by
  unfold launch
  dsimp only
  generalize hx : sendPacket _ _ = x
  have sent : PostFrame s x.1 := hx ▸ .after (sendPacket_postFrame _ _) rfl rfl rfl
  obtain ⟨t, ok⟩ := x
  cases ok with
  | true => exact sent.trans (.of_eq rfl rfl rfl)
  | false => exact sent

theorem makeRequest_postFrame (s : State) (r : Request) : PostFrame s (makeRequest s r).1 := by
  unfold makeRequest
  split
  · exact .of_eq rfl rfl rfl
  · exact launch_postFrame s r

theorem sendNeighbor_postFrame (s : State) (mi job part : Option Nat) (op pa va n : Nat) (bs : List Nat) :
    PostFrame s (sendNeighbor s mi job part op pa va n bs).1 := by
  unfold sendNeighbor
  split
  · exact .refl s
  · refine List.foldlRecOn (motive := fun x : State × Option Cond => PostFrame s x.1) _ _ (.refl s) fun x hx p _ => ?_
    exact hx.trans (makeRequest_postFrame x.1 _)

/-! Rings and records. -/

/-- The ring of a partition is a context of one of the 16 panels. -/
theorem ringCtx_bound (s : State) (part r p c : Nat) (h : ringCtx s part r = some (p, c)) : p < 16 ∧ c < 64 := by
  unfold ringCtx syncHome at h
  obtain ⟨q, hq, hc⟩ := Option.bind_eq_some_iff.1 h
  obtain ⟨d, hd, he⟩ := Option.map_eq_some_iff.1 hc
  obtain ⟨rfl, rfl⟩ := Prod.mk.inj he
  refine ⟨?_, List.mem_range.1 (List.mem_of_find?_eq_some hd)⟩
  simp only [] at hq
  split at hq
  · rename_i hlt
    rw [← Option.some.inj hq]
    exact hlt
  · exact absurd hq nofun

theorem ring_postRegister (p c : Nat) (h : p < 16 ∧ c < 64) :
    PostRegister (panelReg .jigErbase p c) ∧ PostRegister (panelReg .jigErptr p c) :=
  ⟨postRegister_panel .jigErbase p c 64 (by decide) (by decide +kernel) h.1 h.2,
   postRegister_panel .jigErptr p c 64 (by decide) (by decide +kernel) h.1 h.2⟩

theorem storeFault_postFrame (s : State) (r : FaultRec) : PostFrame s (storeFault s r).1 := by
  unfold storeFault
  dsimp only
  generalize (if (s.hal.faultSeq == 0xFFFFFFFF) = true then 1 else s.hal.faultSeq + 1) = seq
  generalize (if (r.sev == 4) = true then seq else s.hal.serviceSeq) = alert
  split
  · exact .of_eq rfl rfl rfl
  · exact .after (physWrite_postFrame _ _ _) rfl rfl rfl

theorem holdEvent_postFrame (s : State) (e : Event) : PostFrame s (holdEvent s e) := by
  unfold holdEvent
  split
  · exact .of_eq rfl rfl rfl
  · split
    · rename_i p c hc
      exact .rbump s _ 47 32 1 (ring_postRegister p c (ringCtx_bound s _ _ p c hc)).2
    · exact .refl s

theorem raiseVector_postFrame (s t : State) (fn : Src) (v : Nat) (h : raiseVector s fn v = some t) : PostFrame s t := by
  unfold raiseVector at h
  split at h
  · rw [← Option.some.inj h]
    split
    · exact .of_eq rfl rfl rfl
    · exact .refl s
  · exact absurd h nofun

/-- The state that a write into a ring leaves, whether it was refused or not. -/
def afterRing : Except (State × Nat × Option Nat) State → State
  | .error x => x.1
  | .ok s => s

theorem ringWrite_postFrame (s : State) (p c : Nat) (e : Event) (h : p < 16 ∧ c < 64) :
    PostFrame s (afterRing (ringWrite s p c e)) := by
  have walked := translateQuiet_postFrame s e.part
    (bits (rget s (panelReg .jigErbase p c)) 47 12 * 4096 +
      32 * (rfield s (panelReg .jigErptr p c) 31 16 % 2 ^ bits (rget s (panelReg .jigErbase p c)) 51 48)) true
  unfold ringWrite
  simp only []
  split
  · rename_i heq
    rw [heq] at walked
    exact walked
  · rename_i pa t heq
    rw [heq] at walked
    split
    · exact walked
    · refine walked.trans ?_
      have pointer : ∀ (t : State) (v : Nat) (r : Ring), PostFrame t (setRing (rsetField t (panelReg .jigErptr p c) 31 16 v) r) :=
        fun t v r => (PostFrame.rsetField t _ 31 16 v (ring_postRegister p c h).2).trans (.of_eq rfl rfl rfl)
      refine PostFrame.trans ?_ (pointer _ _ _)
      split
      · exact sendNeighbor_postFrame t _ _ _ _ _ _ _ _
      · exact (wakeFor_postFrame t pa 32).trans (physWrite_postFrame _ _ _)

/-- Posting a record keeps the frame, however long its chain of records and events. -/
theorem post_postFrame (fuel : Nat) (s : State) (x : Post) : PostFrame s (post fuel s x) := by
  induction fuel generalizing s x with
  | zero => exact .refl s
  | succ fuel ih =>
    cases x with
    | fault r =>
      have stored := storeFault_postFrame s r
      unfold post
      generalize storeFault s r = x at stored ⊢
      obtain ⟨t, r'⟩ := x
      dsimp only
      split
      · exact stored
      · exact stored.trans (ih _ _)
    | event e =>
      unfold post
      split
      · exact holdEvent_postFrame s e
      · rename_i p c hctx
        have bound := ringCtx_bound s _ _ p c hctx
        split
        · exact holdEvent_postFrame s e
        · have met : PostFrame s ((ringBad s p c e.part).foldl (fun s u =>
              match ueRecord s u with
              | (s, some r) => post fuel s (.fault r)
              | (s, none) => s) s) := by
            refine .foldl _ _ (fun s u _ => ?_) s
            have counted := ueRecord_postFrame s u
            split
            · rename_i t r heq
              rw [heq] at counted
              exact counted.trans (ih _ _)
            · rename_i t heq
              rw [heq] at counted
              exact counted
          refine met.trans ?_
          generalize (ringBad s p c e.part).foldl _ s = t
          have written := ringWrite_postFrame t p c e bound
          dsimp only
          generalize ringWrite t p c e = w at written ⊢
          cases w with
          | error x =>
            have refused := written.trans (.rsetField x.1 _ 0 0 0 (ring_postRegister p c bound).1)
            exact (refused.trans (ih _ _)).trans (holdEvent_postFrame _ e)
          | ok u =>
            refine written.trans ?_
            dsimp only [afterRing]
            split
            · split
              · rename_i v hv
                exact (raiseVector_postFrame _ _ _ _ hv).trans (.of_eq rfl rfl rfl)
              · exact ih _ _
            · exact .refl u

theorem postFault_postFrame (s : State) (r : FaultRec) : PostFrame s (postFault s r) := post_postFrame 6 s (.fault r)

end Sys2Proof.Proofs

namespace Sys2Proof.Proofs

open Sys2Proof.Machine Sys2Proof.Safety Sys2Proof.Laws

/-! An access that is refused through a VF (18_partitions.md R494). -/

/-- PRT_VIOL after a refused access: its COUNT has gone up, and where VALID was 0 it has captured the access. -/
def violCounted (s : State) (l n off : Nat) (write : Bool) : State :=
  let t := rbump s (halReg .prtViol) 59 48 1
  if rbit t (halReg .prtViol) 63 then t
  else rset t (halReg .prtViol) (off + n <<< 32 + l <<< 39 + (if write then 1 else 0) <<< 40 +
    bits (rget t (halReg .prtViol)) 59 48 <<< 48 + 1 <<< 63)

/-- A refused access is counted, and its record is posted. -/
theorem logViol_eq (s : State) (l n part off : Nat) (write : Bool) :
    logViol s (.vf l n) part off write = postFault (violCounted s l n off write)
      { cls := 7, detail := 4, die := 4, part := some part, addr := some (0x030000000000 + off), info := accessInfo 0xFF write 0 } := rfl

theorem violCounted_frame (s : State) (l n off : Nat) (write : Bool) :
    violCounted s l n off write = { s with regs := (violCounted s l n off write).regs } := by
  unfold violCounted
  dsimp only
  split <;> rfl

/-- A count in a field of a register saturates (00_scope.md R9). -/
theorem rfield_rbump_same (s : State) (a : RegAddr) (hi lo k : Nat) (h : hi < 64) :
    rfield (rbump s a hi lo k) a hi lo = satAdd (hi + 1 - lo) (rfield s a hi lo) k := by
  have fits : satAdd (hi + 1 - lo) (rfield s a hi lo) k < 2 ^ (hi + 1 - lo) := by
    have := Nat.two_pow_pos (hi + 1 - lo)
    unfold satAdd
    omega
  rw [rbump, rsetField, rfield_rset_same _ _ _ _ _ h, bits_setBits_same, Nat.mod_eq_of_lt fits]

/-- The COUNT that a captured access keeps. -/
theorem bits_violCapture (off n l w keep : Nat) (hoff : off < 2 ^ 32) (hn : n < 128) (hl : l < 2) (hw : w < 2) (hk : keep < 2 ^ 12) :
    bits (off + n <<< 32 + l <<< 39 + w <<< 40 + keep <<< 48 + 1 <<< 63) 59 48 = keep := by
  simp only [bits, Nat.shiftRight_eq_div_pow, Nat.shiftLeft_eq]
  omega

theorem violCounted_count (s : State) (l n off : Nat) (write : Bool) (hoff : off < 2 ^ 32) (hn : n < 128) (hl : l < 2) :
    rfield (violCounted s l n off write) (halReg .prtViol) 59 48 = min (rfield s (halReg .prtViol) 59 48 + 1) 0xFFF := by
  have counted := rfield_rbump_same s (halReg .prtViol) 59 48 1 (by decide)
  unfold violCounted
  dsimp only
  split
  · exact counted
  · rw [rfield_rset_same _ _ _ _ _ (by decide), bits_violCapture _ _ _ _ _ hoff hn hl (by split <;> decide) (bits_lt _ 59 48)]
    exact counted

theorem logViol_write (s : State) (l n part off : Nat) (write : Bool) (hoff : off < 2 ^ 32) (hn : n < 128) (hl : l < 2) :
    rfield (logViol s (.vf l n) part off write) (halReg .prtViol) 59 48 = min (rfield s (halReg .prtViol) 59 48 + 1) 0xFFF ∧
    (logViol s (.vf l n) part off write).hal.mgmt = s.hal.mgmt ∧
    (logViol s (.vf l n) part off write).jig.flights = s.jig.flights := by
  have posted := postFault_postFrame (violCounted s l n off write)
    { cls := 7, detail := 4, die := 4, part := some part, addr := some (0x030000000000 + off), info := accessInfo 0xFF write 0 }
  rw [← logViol_eq] at posted
  have kept := posted.regs (halReg .prtViol) (regOf_regOffset _ (inMap_halyard .prtViol (by decide +kernel))) (by decide)
  refine ⟨?_, posted.mgmt.trans ?_, posted.flights.trans ?_⟩
  · rw [rfield, kept]
    exact violCounted_count s l n off write hoff hn hl
  · rw [violCounted_frame]
  · rw [violCounted_frame]

/-- Only a VF is bound to a partition. -/
theorem vf_of_vfPart (s : State) (src : Src) (part : Nat) (h : vfPart s src = some part) : ∃ l n, src = .vf l n := by
  cases src with
  | vf l n => exact ⟨l, n, rfl⟩
  | pf l | halyard => exact absurd h nofun

/-- An access where no table defines a register comes to no register. -/
theorem reachOf_no_register (s : State) (src : Src) (off : Nat) (write : Bool) (hoff : off % 8 = 0) (hreg : regOf off = none)
    (hlink : linkUp s src = true) :
    (isVf src = false ∧ reachOf s src off 64 write = .hole) ∨
    (isVf src = true ∧ vfPart s src = none ∧ reachOf s src off 64 write = .nowhere) ∨
    (∃ part, vfPart s src = some part ∧ reachOf s src off 64 write = .refused part) := by
  cases hvf : isVf src with
  | false => exact .inl ⟨rfl, reachOf_undefined s src off write hoff hreg hlink hvf⟩
  | true =>
    cases hpart : vfPart s src with
    | none => exact .inr (.inl ⟨rfl, rfl, reachOf_unbound s src off 64 write hvf hpart⟩)
    | some part => exact .inr (.inr ⟨part, rfl, reachOf_refused s src off part write hoff hreg hlink hvf hpart⟩)

/-- A read where no table defines a register answers zero, through every function (00_scope.md R13). -/
theorem regRead_undefined (s : State) (src : Src) (off : Nat) (hoff : off % 8 = 0) (hreg : regOf off = none)
    (hlink : linkUp s src = true) : (regRead src off 64 s).sent.head? = some (.regData src off 64 0) := by
  rcases reachOf_no_register s src off false hoff hreg hlink with ⟨-, hr⟩ | ⟨hvf, -, hr⟩ | ⟨part, -, hr⟩
  · simp only [regRead, hr]; rfl
  · simp only [regRead, hr, hvf, hlink, Bool.and_self, if_true]; rfl
  · simp only [regRead, hr]; rfl

/-- A write where no table defines a register is discarded, through every function that is bound to no partition. -/
theorem regWrite_undefined (s : State) (src : Src) (off v : Nat) (hoff : off % 8 = 0) (hreg : regOf off = none)
    (hlink : linkUp s src = true) (h : isVf src = false ∨ vfPart s src = none) : regWrite src off 64 v s = s := by
  rcases reachOf_no_register s src off true hoff hreg hlink with ⟨-, hr⟩ | ⟨-, -, hr⟩ | ⟨part, hpart, hr⟩
  · simp only [regWrite, hr]
  · simp only [regWrite, hr]
  · obtain ⟨l, n, rfl⟩ := vf_of_vfPart s src part hpart
    rw [hpart] at h
    exact absurd h (by simp [isVf])

/-- Settles O8: a read clears the RC fields that it holds whole (`read_clears`); the access that a bound VF is refused is counted, and
its record touches neither the count nor the dictionary (`logViol_write`). -/
theorem registerReadsAnswerAndClear : Obligations.RegisterReadsAnswerAndClear := by
  unfold Obligations.RegisterReadsAnswerAndClear
  refine ⟨fun s src a hr => ⟨?_, fun h hh => ?_⟩, fun s src off v hwf hoff hlt hreg hlink => ⟨?_, fun h => ?_, fun part hpart => ?_⟩⟩
  · rw [exec_registerRead, regRead_register s src (regOffset a) 64 a (reachOf_whole s src a false hr) 0 rfl]
    obtain ⟨hsent, hfields, hregs, hframe⟩ := read_clears s a (.regData src (regOffset a) 64 (bits (regValue s a) 63 0)) 63 0
    refine ⟨_, rfl, hsent, fun f hf => ?_, hregs, hframe⟩
    have wide := (regFields_rise a.id).2 f hf
    rw [hfields f hf]
    simp only [Nat.zero_le, Nat.le_of_lt_succ wide.2, and_true]
  · have half : 8 * ((regOffset a + 4 * h) % 8) = 32 * h := by have := regOffset_aligned a; omega
    rw [exec_registerRead,
      regRead_register s src (regOffset a + 4 * h) 32 a (reachOf_half s src a h false hr hh) (32 * h) half]
    obtain ⟨hsent, hfields, hregs, hframe⟩ :=
      read_clears s a (.regData src (regOffset a + 4 * h) 32 (bits (regValue s a) (32 * h + 31) (32 * h))) (32 * h + 31) (32 * h)
    exact ⟨_, rfl, hsent, hfields, hregs, hframe⟩
  · exact ⟨_, exec_registerRead src off 64 s, regRead_undefined s src off hoff hreg hlink⟩
  · rw [exec_registerWrite, regWrite_undefined s src off v hoff hreg hlink h]
  · obtain ⟨l, n, rfl⟩ := vf_of_vfPart s src part hpart
    simp only [wfSrc, Bool.and_eq_true, decide_eq_true_eq] at hwf
    obtain ⟨⟨hl, -⟩, hn⟩ := hwf
    have refused := reachOf_refused s (.vf l n) off part true hoff hreg hlink rfl hpart
    refine ⟨_, exec_registerWrite _ _ _ _ _, ?_⟩
    simp only [regWrite, refused]
    exact logViol_write s l n part off true hlt hn hl

end Sys2Proof.Proofs

namespace Sys2Proof.Proofs

open Sys2Proof.Machine Sys2Proof.Safety Sys2Proof.Laws

/-! What a role reads of an object depends on no part of the machine that an answer changes (19_dictionary.md R518, R527, R529). -/

/-- The parts of the machine that serving and answering a request changes whatever its effect is: the kept responses, the mirror where
no standby works, the responses that wait, the mailbox, the buckets, and what has left. -/
def AnswerFrame (s t : State) : Prop :=
  t = { s with
    sent := t.sent
    hal := { s.hal with
      mgmt := { s.hal.mgmt with kept := t.hal.mgmt.kept }
      mirror := t.hal.mirror, held := t.hal.held, mailbox := t.hal.mailbox, buckets := t.hal.buckets } }

theorem AnswerFrame.trans {s t u : State} (h : AnswerFrame s t) (h' : AnswerFrame t u) : AnswerFrame s u := by
  unfold AnswerFrame at *
  rw [h', h]

theorem keepReply_frame (s : State) (path : MgmtPath) (id : Nat) (bytes : List Nat) : AnswerFrame s (keepReply s path id bytes) := rfl

theorem settle_frame (s : State) : AnswerFrame s (settle s) := by
  unfold settle
  split <;> rfl

theorem raiseVector_frame (s : State) (fn : Src) (v : Nat) : AnswerFrame s ((raiseVector s fn v).getD s) := by
  unfold raiseVector
  split
  · rw [Option.getD_some]
    split <;> rfl
  · rfl

theorem answerLeaves_frame (s : State) (path : MgmtPath) (bytes : List Nat) : AnswerFrame s (answerLeaves s path bytes) := by
  unfold answerLeaves
  split
  · split
    · rfl
    · refine AnswerFrame.trans ?_ (raiseVector_frame _ _ _)
      rfl
  · rfl

theorem respond_frame (s : State) (path : MgmtPath) (bytes : List Nat) : AnswerFrame s (respond s path bytes) := by
  unfold respond
  split
  · rfl
  · exact (settle_frame s).trans (answerLeaves_frame _ path bytes)

/-- A request whose answer no COLD reset follows is answered within the frame. -/
theorem finishRequest_frame (op : Nat) (r : MgmtReq) (x : Reply) (s : State) (h : x.cold = false) :
    AnswerFrame s (finishRequest op r x s) := by
  unfold finishRequest
  simp only [h, Bool.false_eq_true, if_false]
  split
  · exact respond_frame s _ _
  · exact (keepReply_frame s _ _ _).trans (respond_frame _ _ _)

theorem served_frame (s u : State) (r : MgmtReq) (answers : Bool) (part : Nat) (h : Served s u r answers part) : AnswerFrame s u := by
  rw [served_state s u r answers part h]
  rfl

theorem objectValue_answerFrame (s t : State) (h : AnswerFrame s t) (q : Option Nat) (o : ObjAddr) :
    objectValue t q o = objectValue s q o := by
  have live : liveObject t q o = liveObject s q o := by rw [h]; unfold liveObject; rfl
  have stored : dget t o = dget s o := by rw [h]; rfl
  unfold objectValue
  rw [live, stored]

theorem stagedValue_answerFrame (s t : State) (h : AnswerFrame s t) (q : Option Nat) (o : ObjAddr) :
    stagedValue t q o = stagedValue s q o := by
  have staged : t.hal.mgmt.staged = s.hal.mgmt.staged := by rw [h]
  unfold stagedValue
  rw [staged, objectValue_answerFrame s t h]

/-! Requests of a role without access (00_scope.md R15). -/

theorem readReply_denied (s : State) (role : Role) (part index sub : Nat) (staged : Bool) (row : ObjRow) (o : ObjAddr)
    (hfind : findObject index sub part = some (row, o)) (hrole : role ∉ row.read) :
    readReply s role part index sub staged = { status := 2 } := by
  have unreadable : readable role row = false := by simpa [readable] using hrole
  simp only [readReply, hfind, unreadable, Bool.not_false, if_true]
  rfl

theorem writeReply_denied (s : State) (path : MgmtPath) (role : Role) (part index sub : Nat) (bs : List Nat) (row : ObjRow)
    (o : ObjAddr) (hfind : findObject index sub part = some (row, o)) (hrole : role ∉ row.write) :
    writeReply s path role part index sub bs = ({ status := 2 }, s) := by
  have unwritable : row.write.contains role = false := by simpa using hrole
  simp only [writeReply, hfind, unwritable, Bool.not_false, if_true]
  rfl

/-- A body of 4 bytes names one object. -/
theorem objectList_single (body : List Nat) (h : body.length = 4) :
    objectList body = [(leAt body 0 2, body.getD 2 0, body.getD 3 0)] := by
  unfold objectList
  rw [h]
  rfl

/-- A batch of one entry answers that entry. -/
theorem batchReply_single (s : State) (role : Role) (part : Option Nat) (body : List Nat) (x : Reply) (hlen : body.length = 4)
    (hx : readReply s role (part.getD (body.getD 3 0)) (leAt body 0 2) (body.getD 2 0) false = x)
    (hfits : (batchEntry x).length ≤ 1032) : batchReply s role part body = { body := batchEntry x } := by
  have one : List.range (4 / 4) = [0] := rfl
  have small : (32 < 4 / 4 || 4 % 4 != 0) = false := rfl
  simp only [batchReply, hlen, one, small, List.flatMap_cons, List.flatMap_nil, List.append_nil, Nat.mul_zero, Nat.zero_add, hx,
    Nat.not_lt.2 hfits, Bool.false_eq_true, if_false]

/-- The status byte of a denied response (19_dictionary.md R527). -/
theorem replyBytes_denied (op : Nat) (r : MgmtReq) : (replyBytes op r { status := 2 }).getD 12 0 = 2 := by
  simp [replyBytes, leBytes]

/-- Settles O49: the role is checked before the request has any effect (`readReply_denied`, `writeReply_denied`), and what a role reads
does not depend on what an answer changes (`finishRequest_frame`). -/
theorem rolesWithoutAccessAreDenied : Obligations.RolesWithoutAccessAreDenied := by
  unfold Obligations.RolesWithoutAccessAreDenied
  intro s u r part row o hfind denied
  have unchanged : ∀ op, AnswerFrame s u → ∀ q,
      objectValue (finishRequest op r { status := 2 } u) q o = objectValue s q o ∧
      stagedValue (finishRequest op r { status := 2 } u) q o = stagedValue s q o := fun op hu q =>
    have frame := hu.trans (finishRequest_frame op r { status := 2 } u rfl)
    ⟨objectValue_answerFrame s _ frame q o, stagedValue_answerFrame s _ frame q o⟩
  refine ⟨fun hserved hrole => ⟨⟨?_, replyBytes_denied 1 r, unchanged 1 (served_frame s u r _ part hserved)⟩,
    ⟨?_, replyBytes_denied 3 r, unchanged 3 (served_frame s u r _ part hserved)⟩, fun hlen hindex hsub hpart => ?_⟩,
    fun hserved hrole => ⟨?_, replyBytes_denied 2 r, unchanged 2 (served_frame s u r _ part hserved)⟩⟩
  · have answered := serveRequest_served 1 (fun s role => stageAnswers s role r.index r.sub false)
      (fun s role part => (readReply s role part r.index r.sub false, s)) r s u part hserved
    rw [readReply_denied u _ part _ _ false row o hfind hrole] at answered
    exact congrArg Host.Outcome.next answered
  · have answered := serveRequest_served 3 (fun s role => stageAnswers s role r.index r.sub false)
      (fun s role part => (readReply s role part r.index r.sub true, s)) r s u part hserved
    rw [readReply_denied u _ part _ _ true row o hfind hrole] at answered
    exact congrArg Host.Outcome.next answered
  · have entries := objectList_single r.body hlen
    rw [hindex, hsub] at entries
    have answered := serveRequest_served 4 (fun s role => (objectList r.body).all fun e => stageAnswers s role e.1 e.2.1 false)
      (fun s role part => (batchReply s role (if role == .tenant then some part else none) r.body, s)) r s u part
      (by simpa only [entries, List.all_cons, List.all_nil, Bool.and_true] using hserved)
    have ownPart : (if pathRole r.path == .tenant then some part else none).getD (r.body.getD 3 0) = part := by
      rcases hpart with ht | hp
      · simp [ht]
      · split
        · rfl
        · exact hp
    rw [batchReply_single u _ _ r.body { status := 2 } hlen
      (by rw [ownPart, hindex, hsub]; exact readReply_denied u _ part _ _ false row o hfind hrole) (by decide)] at answered
    exact congrArg Host.Outcome.next answered
  · have answered := serveRequest_served 2 (fun s role => stageAnswers s role r.index r.sub true)
      (fun s role part => writeReply s r.path role part r.index r.sub r.body) r s u part hserved
    rw [writeReply_denied u r.path _ part _ _ r.body row o hfind hrole] at answered
    exact congrArg Host.Outcome.next answered

end Sys2Proof.Proofs

namespace Sys2Proof.Proofs

open Sys2Proof.Machine Sys2Proof.Safety

/-! The canonical tree by halves: a left subtree of 2^j leaves and what follows it are added at the root (03_exact_sums.md R85). -/

theorem length_pairUp : ∀ l : List Acc, (pairUp l).length = (l.length + 1) / 2
  | [] => rfl
  | [a] => by simp only [pairUp, List.length_singleton]
  | a :: b :: rest => by simp only [pairUp, List.length_cons, length_pairUp rest]; omega

theorem pairUp_append : ∀ xs ys : List Acc, 2 ∣ xs.length → pairUp (xs ++ ys) = pairUp xs ++ pairUp ys
  | [], _, _ => rfl
  | [a], _, even => by simp only [List.length_singleton] at even; omega
  | a :: b :: rest, ys, even => by
    have even' : 2 ∣ rest.length := by simp only [List.length_cons] at even; omega
    simp only [List.cons_append, pairUp, pairUp_append rest ys even']

/-- Levels beyond the root change nothing. -/
theorem treeGo_eq_of_length_le (f g : Nat) (l : List Acc) (hf : l.length ≤ f) (hg : l.length ≤ g) : treeGo f l = treeGo g l := by
  induction f generalizing g l with
  | zero => rw [List.length_eq_zero_iff.1 (Nat.le_zero.1 hf)]; cases g <;> rfl
  | succ f ih =>
    rcases l with _ | ⟨a, _ | ⟨b, rest⟩⟩
    · cases g <;> rfl
    · cases g <;> rfl
    · obtain ⟨g, rfl⟩ : ∃ g', g = g' + 1 := ⟨g - 1, by simp only [List.length_cons] at hg; omega⟩
      have shorter := length_pairUp (a :: b :: rest)
      simp only [List.length_cons] at hf hg shorter
      exact ih g (pairUp (a :: b :: rest)) (by omega) (by omega)

theorem treeRoot_pairUp (l : List Acc) : treeRoot (pairUp l) = treeRoot l := by
  rcases l with _ | ⟨a, _ | ⟨b, rest⟩⟩
  · rfl
  · rfl
  · have shorter := length_pairUp (a :: b :: rest)
    simp only [List.length_cons] at shorter
    exact treeGo_eq_of_length_le _ (rest.length + 1) _ (Nat.le_refl _) (by omega)

/-- The root over a full left subtree and a right one that is not larger is the sum of the two roots. -/
theorem treeRoot_append (j : Nat) (xs ys : List Acc) (full : xs.length = 2 ^ j) (nonempty : ys ≠ []) (fits : ys.length ≤ 2 ^ j) :
    treeRoot (xs ++ ys) = addAcc (treeRoot xs) (treeRoot ys) := by
  have pos := List.length_pos_iff.2 nonempty
  induction j generalizing xs ys with
  | zero =>
    obtain ⟨a, rfl⟩ := List.length_eq_one_iff.1 full
    obtain ⟨b, rfl⟩ := List.length_eq_one_iff.1 (Nat.le_antisymm fits pos)
    rfl
  | succ j ih =>
    have hxs := length_pairUp xs
    have hys := length_pairUp ys
    rw [Nat.pow_succ] at full fits
    have above := ih (pairUp xs) (pairUp ys) (by omega) (List.length_pos_iff.1 (by omega)) (by omega) (by omega)
    rw [← pairUp_append xs ys ⟨2 ^ j, by omega⟩] at above
    simpa only [treeRoot_pairUp] using above

/-! The carry stack holds the full subtrees of the blocks so far (03_exact_sums.md R86 to R88). -/

/-- The stack `st` holds the blocks `xs`: each entry is the root over a run of 2^level blocks, and the number of blocks below it is a
multiple of twice that, so that the entry below is no sibling of it. -/
inductive StackHolds : List Acc → List CarryEntry → Prop
  | nil : StackHolds [] []
  | push {xs ys st level} (below : StackHolds xs st) (full : ys.length = 2 ^ level) (left : 2 ^ (level + 1) ∣ xs.length) :
      StackHolds (xs ++ ys) ({ level := level, first := xs.length, acc := treeRoot ys } :: st)

/-- A number whose lowest one is bit `level` is a multiple of no higher power of two. -/
theorem le_of_pow_dvd_add_pow {k level n : Nat} (left : 2 ^ (level + 1) ∣ n) (h : 2 ^ k ∣ n + 2 ^ level) : k ≤ level := by
  refine Nat.le_of_not_lt fun hlt => ?_
  have both : 2 ^ (level + 1) ∣ n + 2 ^ level := Nat.dvd_trans (Nat.pow_dvd_pow 2 hlt) h
  exact Nat.not_succ_le_self level ((Nat.pow_dvd_pow_iff_le_right (by decide)).1 ((Nat.dvd_add_right left).1 both))

theorem ne_nil_of_full {level : Nat} {ys : List Acc} (full : ys.length = 2 ^ level) : ys ≠ [] :=
  List.length_pos_iff.1 (full ▸ Nat.two_pow_pos level)

/-- carry_push of a full subtree at its place. -/
theorem carryMerge_holds {xs : List Acc} {st : List CarryEntry} (h : StackHolds xs st) (fuel level : Nat) (zs : List Acc)
    (room : st.length < fuel) (full : zs.length = 2 ^ level) (aligned : 2 ^ level ∣ xs.length) :
    StackHolds (xs ++ zs) (carryMerge fuel ({ level := level, first := xs.length, acc := treeRoot zs } :: st)) := by
  induction h generalizing fuel level zs with
  | nil =>
    obtain ⟨fuel, rfl⟩ : ∃ f, fuel = f + 1 := ⟨fuel - 1, by omega⟩
    exact .push .nil full (Nat.dvd_zero _)
  | @push xs ys st below hbelow hys left ih =>
    obtain ⟨fuel, rfl⟩ : ∃ f, fuel = f + 1 := ⟨fuel - 1, by omega⟩
    rw [List.length_append, hys] at aligned
    have hle : level ≤ below := le_of_pow_dvd_add_pow left aligned
    rcases Nat.eq_or_lt_of_le hle with rfl | hlt
    · have siblings : (level == level && xs.length % 2 ^ (level + 1) == 0) = true := by
        rw [Nat.mod_eq_zero_of_dvd left, beq_self_eq_true, beq_self_eq_true, Bool.and_self]
      have parent : (ys ++ zs).length = 2 ^ (level + 1) := by rw [List.length_append, hys, full, Nat.pow_succ]; omega
      have merged := ih fuel (level + 1) (ys ++ zs) (Nat.lt_of_succ_lt_succ room) parent left
      rw [treeRoot_append level ys zs hys (ne_nil_of_full full) (Nat.le_of_eq full), ← List.append_assoc] at merged
      simpa only [carryMerge, siblings, if_true] using merged
    · have differ : (level == below) = false := beq_eq_false_iff_ne.2 (Nat.ne_of_lt hlt)
      simp only [carryMerge, differ, Bool.false_and, Bool.false_eq_true, if_false]
      refine .push (.push hbelow hys left) full ?_
      rw [List.length_append, hys]
      exact Nat.dvd_add (Nat.dvd_trans (Nat.pow_dvd_pow 2 (by omega)) left) (Nat.pow_dvd_pow 2 hlt)

theorem carryPush_holds {xs : List Acc} {st : List CarryEntry} (h : StackHolds xs st) (a : Acc) :
    StackHolds (xs ++ [a]) (carryPush st { level := 0, first := xs.length, acc := a }) :=
  carryMerge_holds h (st.length + 1) 0 [a] (by omega) rfl (Nat.one_dvd _)

/-- The stack after a run of blocks in ascending absolute index. -/
theorem carryPushes_hold {xs : List Acc} {st : List CarryEntry} (h : StackHolds xs st) (ys : List Acc) :
    StackHolds (xs ++ ys)
      ((ys.zipIdx xs.length).foldl (fun st p => carryPush st { level := 0, first := p.2, acc := p.1 }) st) := by
  induction ys generalizing xs st with
  | nil => rwa [List.append_nil]
  | cons a ys ih =>
    have rest := ih (carryPush_holds h a)
    rwa [List.append_assoc, List.length_append, List.length_singleton] at rest

/-- carry_finish below a subtree over the blocks that follow: each entry is a full left subtree of all that lies above it. -/
theorem carryFold_treeRoot {xs : List Acc} {st : List CarryEntry} (h : StackHolds xs st) (k : Nat) (zs : List Acc) (nonempty : zs ≠ [])
    (fits : zs.length ≤ 2 ^ k) (aligned : 2 ^ k ∣ xs.length) :
    st.foldl (fun a b => addAcc b.acc a) (treeRoot zs) = treeRoot (xs ++ zs) := by
  induction h generalizing k zs with
  | nil => rfl
  | @push xs ys st level _ full left ih =>
    rw [List.length_append, full] at aligned
    have small : zs.length ≤ 2 ^ level :=
      Nat.le_trans fits (Nat.pow_le_pow_right (by decide) (le_of_pow_dvd_add_pow left aligned))
    have parent : (ys ++ zs).length ≤ 2 ^ (level + 1) := by rw [List.length_append, full, Nat.pow_succ]; omega
    rw [List.foldl_cons, ← treeRoot_append level ys zs full nonempty small,
      ih (level + 1) (ys ++ zs) (List.append_ne_nil_of_right_ne_nil ys nonempty) parent left, List.append_assoc]

theorem carryFold_holds {xs : List Acc} {st : List CarryEntry} (h : StackHolds xs st) : carryFold st = treeRoot xs := by
  cases h with
  | nil => rfl
  | @push xs ys st level below full left =>
    exact carryFold_treeRoot below (level + 1) ys (ne_nil_of_full full)
      (full ▸ Nat.pow_le_pow_right (by decide) (Nat.le_succ level)) left

/-- Settles O29: every push keeps the stack's invariant `StackHolds`, and the fold of such a stack is the root over all its blocks. -/
theorem carryStackIsTheTree : Obligations.CarryStackIsTheTree := by
  unfold Obligations.CarryStackIsTheTree
  intro blocks
  exact carryFold_holds (carryPushes_hold .nil blocks)

end Sys2Proof.Proofs

namespace Sys2Proof.Proofs

open Sys2Proof.Machine Sys2Proof.Safety

/-! Ranges of the tree's nodes (03_exact_sums.md R85, R89). -/

/-- The first block of node N(j, i). -/
def nodeFirst (j i : Nat) : Nat := i * 2 ^ j

/-- The block after the last one of node N(j, i) over `nb` blocks. -/
def nodeEnd (nb j i : Nat) : Nat := min (nodeFirst j i + 2 ^ j) nb

theorem nodeFirst_next (j i : Nat) : nodeFirst j (i + 1) = nodeFirst j i + 2 ^ j := Nat.succ_mul i (2 ^ j)

theorem nodeEnd_eq (nb j i : Nat) : nodeEnd nb j i = min (nodeFirst j (i + 1)) nb := by rw [nodeEnd, nodeFirst_next]

theorem nodeFirst_succ (j i : Nat) : nodeFirst (j + 1) i = nodeFirst j (2 * i) := by
  rw [nodeFirst, nodeFirst, Nat.pow_succ', ← Nat.mul_assoc, Nat.mul_comm i]

theorem nodeFirst_mono (j : Nat) {i k : Nat} (h : i ≤ k) : nodeFirst j i ≤ nodeFirst j k := Nat.mul_le_mul_right _ h

theorem le_two_pow_clog2 (n : Nat) : n ≤ 2 ^ clog2 n := by
  unfold clog2
  split
  · assumption
  · have := Nat.lt_log2_self (n := n - 1)
    omega

/-- A range of `count` blocks from `first` on is that of a node. -/
def IsNode (nb first count : Nat) : Prop := ∃ j i, first = nodeFirst j i ∧ first + count = nodeEnd nb j i

/-- A canonical range within the operation is a node's (R89). -/
theorem isNode_of_isNodeRange {nb first count : Nat} (h : isNodeRange nb first count (rangeAligned first count) = true)
    (fits : first + count ≤ nb) : IsNode nb first count := by
  have upper := le_two_pow_clog2 count
  simp only [isNodeRange, rangeAligned, Bool.or_eq_true, Bool.and_eq_true, beq_iff_eq] at h
  rcases h with ⟨power, aligned⟩ | ⟨tail, aligned⟩
  · obtain ⟨i, hi⟩ := Nat.dvd_of_mod_eq_zero aligned
    have start : first = nodeFirst (clog2 count) i := by rw [nodeFirst, power, hi, Nat.mul_comm]
    exact ⟨clog2 count, i, start, by unfold nodeEnd; omega⟩
  · obtain ⟨i, hi⟩ := Nat.dvd_of_mod_eq_zero aligned
    have start : first = nodeFirst (clog2 count) i := by rw [nodeFirst, hi, Nat.mul_comm]
    exact ⟨clog2 count, i, start, by unfold nodeEnd; omega⟩

/-- Block `b` is one of node N(j, i). -/
def InNode (nb b j i : Nat) : Prop := nodeFirst j i ≤ b ∧ b < nodeEnd nb j i

/-- Two nodes that share a block are nested, the one of the lower level within the other. -/
theorem node_nested {nb j i k m b : Nat} (hjk : j ≤ k) (low : InNode nb b j i) (high : InNode nb b k m) :
    nodeFirst k m ≤ nodeFirst j i ∧ nodeEnd nb j i ≤ nodeEnd nb k m := by
  obtain ⟨d, rfl⟩ := Nat.exists_eq_add_of_le hjk
  obtain ⟨lowFirst, lowEnd⟩ := low
  obtain ⟨highFirst, highEnd⟩ := high
  have scale : ∀ x, nodeFirst (j + d) x = nodeFirst j (x * 2 ^ d) := fun x => by
    rw [nodeFirst, nodeFirst, Nat.pow_add, Nat.mul_comm (2 ^ j), Nat.mul_assoc]
  simp only [nodeEnd_eq, scale, Nat.lt_min] at *
  have below : m * 2 ^ d < i + 1 := Nat.lt_of_mul_lt_mul_right (Nat.lt_of_le_of_lt highFirst lowEnd.1)
  have above : i < (m + 1) * 2 ^ d := Nat.lt_of_mul_lt_mul_right (Nat.lt_of_le_of_lt lowFirst highEnd.1)
  have ends : nodeFirst j (i + 1) ≤ nodeFirst j ((m + 1) * 2 ^ d) := nodeFirst_mono j above
  exact ⟨nodeFirst_mono j (Nat.le_of_lt_succ below), by omega⟩

theorem InNode.parent {nb b j i c : Nat} (hc : c = 2 * i ∨ c = 2 * i + 1) (h : InNode nb b j c) : InNode nb b (j + 1) i := by
  simp only [InNode, nodeEnd, nodeFirst_succ, Nat.pow_succ] at *
  rcases hc with rfl | rfl
  · omega
  · rw [nodeFirst_next] at h
    omega

/-- The leaves below node N(j, i). -/
def nodeBlocks (blocks : List Acc) (j i : Nat) : List Acc := (blocks.drop (nodeFirst j i)).take (2 ^ j)

theorem nodeBlocks_succ (blocks : List Acc) (j i : Nat) :
    nodeBlocks blocks (j + 1) i = nodeBlocks blocks j (2 * i) ++ nodeBlocks blocks j (2 * i + 1) := by
  simp only [nodeBlocks, nodeFirst_succ, nodeFirst_next, Nat.pow_succ, Nat.mul_two, List.take_add, List.drop_drop]

theorem length_nodeBlocks (blocks : List Acc) (j i : Nat) :
    (nodeBlocks blocks j i).length = nodeEnd blocks.length j i - nodeFirst j i := by
  rw [nodeBlocks, nodeEnd, List.length_take, List.length_drop, ← Nat.sub_min_sub_right, Nat.add_sub_cancel_left]

theorem take_drop_eq_nodeBlocks (blocks : List Acc) (j i : Nat) :
    (blocks.drop (nodeFirst j i)).take (nodeEnd blocks.length j i - nodeFirst j i) = nodeBlocks blocks j i := by
  rw [← length_nodeBlocks, nodeBlocks, List.length_take, ← List.take_eq_take_min]

/-- The value of a node with two children (R85). -/
theorem treeRoot_nodeBlocks_sum {blocks : List Acc} {j i : Nat} (h : nodeFirst j (2 * i + 1) < blocks.length) :
    treeRoot (nodeBlocks blocks (j + 1) i) =
      addAcc (treeRoot (nodeBlocks blocks j (2 * i))) (treeRoot (nodeBlocks blocks j (2 * i + 1))) := by
  have left := length_nodeBlocks blocks j (2 * i)
  have right := length_nodeBlocks blocks j (2 * i + 1)
  have pos := Nat.two_pow_pos j
  simp only [nodeEnd, nodeFirst_next] at h left right
  rw [nodeBlocks_succ]
  exact treeRoot_append j _ _ (by omega) (List.length_pos_iff.1 (by omega)) (by omega)

/-- The leaves of a node with one child are that child's. -/
theorem nodeBlocks_promoted {blocks : List Acc} {j i : Nat} (h : blocks.length ≤ nodeFirst j (2 * i + 1)) :
    nodeBlocks blocks (j + 1) i = nodeBlocks blocks j (2 * i) := by
  have none : nodeBlocks blocks j (2 * i + 1) = [] := by rw [nodeBlocks, List.drop_eq_nil_of_le h, List.take_nil]
  rw [nodeBlocks_succ, none, List.append_nil]

/-! The combiner's walk over the nodes (03_exact_sums.md R90). -/

section
variable {add : Acc → Acc → Acc} {nb j i : Nat} {es : List (Nat × Nat × Acc)}

/-- The value at hand whose range is that of node N(j, i). -/
def heldNode (nb : Nat) (es : List (Nat × Nat × Acc)) (j i : Nat) : Option (Nat × Nat × Acc) :=
  es.find? fun e => e.1 == nodeFirst j i && e.2.1 == nodeEnd nb j i - nodeFirst j i

theorem mem_of_heldNode {e : Nat × Nat × Acc} (h : heldNode nb es j i = some e) :
    e ∈ es ∧ e.1 = nodeFirst j i ∧ e.2.1 = nodeEnd nb j i - nodeFirst j i := by
  have range := List.find?_some h
  simp only [Bool.and_eq_true, beq_iff_eq] at range
  exact ⟨List.mem_of_find?_eq_some h, range⟩

theorem heldNode_isSome {e : Nat × Nat × Acc} (he : e ∈ es) (first : e.1 = nodeFirst j i)
    (last : e.1 + e.2.1 = nodeEnd nb j i) : (heldNode nb es j i).isSome = true := by
  have count : e.2.1 = nodeEnd nb j i - nodeFirst j i := by omega
  exact List.find?_isSome.2 ⟨e, he, by simp only [first, count, beq_self_eq_true, Bool.and_self]⟩

theorem nodeBy_beyond (h : nb ≤ nodeFirst j i) : nodeBy add nb es j i = none := by
  unfold nodeFirst at h
  unfold nodeBy
  simp only [h, if_true]

theorem nodeBy_held {e : Nat × Nat × Acc} (h : nodeFirst j i < nb) (held : heldNode nb es j i = some e) :
    nodeBy add nb es j i = some e.2.2 := by
  simp only [heldNode, nodeEnd_eq, nodeFirst] at h held
  unfold nodeBy
  simp only [Nat.not_le.2 h, if_false, held]

/-- A node that is not at hand itself is formed from its children. -/
theorem nodeBy_children (h : nodeFirst (j + 1) i < nb) (held : heldNode nb es (j + 1) i = none) {a : Acc}
    (left : nodeBy add nb es j (2 * i) = some a) :
    nodeBy add nb es (j + 1) i = some (((nodeBy add nb es j (2 * i + 1)).map (add a)).getD a) := by
  simp only [heldNode, nodeEnd_eq, nodeFirst] at h held
  rw [nodeBy]
  cases nodeBy add nb es j (2 * i + 1) <;>
    simp only [Nat.not_le.2 h, if_false, held, left, Option.map_some, Option.map_none, Option.getD_some, Option.getD_none]

/-- Every block of node N(j, i) is covered by an entry that lies within the node. -/
def NodeCovered (nb : Nat) (es : List (Nat × Nat × Acc)) (j i : Nat) : Prop :=
  ∀ b, InNode nb b j i →
    ∃ e ∈ es, e.1 ≤ b ∧ b < e.1 + e.2.1 ∧ nodeFirst j i ≤ e.1 ∧ e.1 + e.2.1 ≤ nodeEnd nb j i

/-- A covered leaf is held itself. -/
theorem heldNode_leaf (h : nodeFirst 0 i < nb) (cover : NodeCovered nb es 0 i) : (heldNode nb es 0 i).isSome = true := by
  have leafEnd : nodeEnd nb 0 i = nodeFirst 0 i + 1 := by unfold nodeEnd; omega
  obtain ⟨e, he, hb, hb', hfirst, hlast⟩ := cover (nodeFirst 0 i) ⟨Nat.le_refl _, by omega⟩
  exact heldNode_isSome he (by omega) (by omega)

/-- When no entry is the node itself, the entries that cover it lie within its children. -/
theorem NodeCovered.child {c : Nat} (nodes : ∀ e ∈ es, IsNode nb e.1 e.2.1) (cover : NodeCovered nb es (j + 1) i)
    (held : heldNode nb es (j + 1) i = none) (hc : c = 2 * i ∨ c = 2 * i + 1) : NodeCovered nb es j c := by
  intro b inChild
  have inParent := inChild.parent hc
  obtain ⟨e, he, hb, hb', hfirst, hlast⟩ := cover b inParent
  obtain ⟨k, m, efirst, elast⟩ := nodes e he
  have inEntry : InNode nb b k m := ⟨efirst ▸ hb, elast ▸ hb'⟩
  rcases Nat.lt_or_ge j k with (higher : j + 1 ≤ k) | lower
  · obtain ⟨hge, hle⟩ := node_nested higher inParent inEntry
    have isParent : (heldNode nb es (j + 1) i).isSome = true :=
      heldNode_isSome he (by omega) (by omega)
    rw [held] at isParent
    cases isParent
  · obtain ⟨hge, hle⟩ := node_nested lower inEntry inChild
    exact ⟨e, he, hb, hb', efirst ▸ hge, elast ▸ hle⟩

end

section
variable {blocks : List Acc} {es : List (Nat × Nat × Acc)}

theorem nodeBy_held_value {j i : Nat} {e : Nat × Nat × Acc} (values : ∀ e ∈ es, e.2.2 = treeRoot ((blocks.drop e.1).take e.2.1))
    (inside : nodeFirst j i < blocks.length) (held : heldNode blocks.length es j i = some e) :
    nodeBy addAcc blocks.length es j i = some (treeRoot (nodeBlocks blocks j i)) := by
  obtain ⟨he, first, count⟩ := mem_of_heldNode held
  rw [nodeBy_held inside held, values e he, first, count, take_drop_eq_nodeBlocks]

/-- The combiner's value of a covered node is the node's, when the entries are nodes with their values. -/
theorem nodeBy_covered (nodes : ∀ e ∈ es, IsNode blocks.length e.1 e.2.1)
    (values : ∀ e ∈ es, e.2.2 = treeRoot ((blocks.drop e.1).take e.2.1)) (j i : Nat) (inside : nodeFirst j i < blocks.length)
    (cover : NodeCovered blocks.length es j i) :
    nodeBy addAcc blocks.length es j i = some (treeRoot (nodeBlocks blocks j i)) := by
  induction j generalizing i with
  | zero =>
    obtain ⟨e, held⟩ := Option.isSome_iff_exists.1 (heldNode_leaf inside cover)
    exact nodeBy_held_value values inside held
  | succ j ih =>
    cases held : heldNode blocks.length es (j + 1) i with
    | some e => exact nodeBy_held_value values inside held
    | none =>
      have left := ih (2 * i) (nodeFirst_succ j i ▸ inside) (cover.child nodes held (.inl rfl))
      rw [nodeBy_children inside held left]
      rcases Nat.lt_or_ge (nodeFirst j (2 * i + 1)) blocks.length with two | one
      · rw [ih (2 * i + 1) two (cover.child nodes held (.inr rfl)), treeRoot_nodeBlocks_sum two]
        rfl
      · rw [nodeBy_beyond one, nodeBlocks_promoted one]
        rfl

end

/-! Coverage (03_exact_sums.md R93). -/

theorem coverageOk_bounds {nb : Nat} {ranges : List (Nat × Nat)} (h : coverageOk nb ranges = true) :
    ∀ r ∈ ranges, 0 < r.2 ∧ r.1 + r.2 ≤ nb := by
  simp only [coverageOk, Bool.and_eq_true, List.all_eq_true, decide_eq_true_eq] at h
  exact h.1.1

theorem coverageOk_sum {nb : Nat} {ranges : List (Nat × Nat)} (h : coverageOk nb ranges = true) : (ranges.map (·.2)).sum = nb := by
  simp only [coverageOk, Bool.and_eq_true, beq_iff_eq] at h
  exact h.1.2

theorem coverageOk_apart {nb : Nat} {ranges : List (Nat × Nat)} (h : coverageOk nb ranges = true) :
    ranges.Pairwise fun a b => a.1 + a.2 ≤ b.1 ∨ b.1 + b.2 ≤ a.1 := by
  refine List.pairwise_iff_getElem.2 fun i j hi hj hij => ?_
  simp only [coverageOk, Bool.and_eq_true, List.all_eq_true, List.mem_range] at h
  have apart := h.2 i hi j hj
  simp only [Bool.or_eq_true, beq_iff_eq, List.getElem?_eq_getElem hi, List.getElem?_eq_getElem hj, decide_eq_true_eq] at apart
  exact apart.resolve_left (Nat.ne_of_lt hij)

/-- The blocks of all ranges, one range after the other. -/
def rangeBlocks (ranges : List (Nat × Nat)) : List Nat := ranges.flatMap fun r => List.range' r.1 r.2

/-- Ranges that pass the check hold each block of the operation: they are apart, within it and of its length together. -/
theorem coverageOk_covers {nb : Nat} {ranges : List (Nat × Nat)} (h : coverageOk nb ranges = true) (b : Nat) (hb : b < nb) :
    ∃ r ∈ ranges, r.1 ≤ b ∧ b < r.1 + r.2 := by
  have distinct : (rangeBlocks ranges).Nodup := by
    refine List.pairwise_flatMap.2 ⟨fun r _ => List.nodup_range', (coverageOk_apart h).imp fun apart x hx y hy => ?_⟩
    rw [List.mem_range'_1] at hx hy
    omega
  have inside : rangeBlocks ranges ⊆ List.range nb := fun x hx => by
    obtain ⟨r, hr, hx⟩ := List.mem_flatMap.1 hx
    have := coverageOk_bounds h r hr
    rw [List.mem_range'_1] at hx
    exact List.mem_range.2 (by omega)
  have length : (rangeBlocks ranges).length = nb := by
    simp only [rangeBlocks, List.length_flatMap, List.length_range']
    exact coverageOk_sum h
  have held : b ∈ rangeBlocks ranges := Decidable.byContradiction fun absent => by
    have more := List.Nodup.length_le_of_subset (List.nodup_cons.2 ⟨absent, distinct⟩)
      (List.cons_subset.2 ⟨List.mem_range.2 hb, inside⟩)
    rw [List.length_cons, List.length_range, length] at more
    exact Nat.not_succ_le_self nb more
  obtain ⟨r, hr, hx⟩ := List.mem_flatMap.1 held
  exact ⟨r, hr, List.mem_range'_1.1 hx⟩

theorem nodeCovered_root {nb : Nat} {es : List (Nat × Nat × Acc)} (h : coverageOk nb (es.map fun e => (e.1, e.2.1)) = true) :
    NodeCovered nb es (clog2 nb) 0 := by
  intro b inRoot
  have rootFirst : nodeFirst (clog2 nb) 0 = 0 := Nat.zero_mul _
  have rootEnd : nodeEnd nb (clog2 nb) 0 = nb := by rw [nodeEnd, rootFirst, Nat.zero_add, Nat.min_eq_right (le_two_pow_clog2 nb)]
  obtain ⟨r, hr, hb, hb'⟩ := coverageOk_covers h b (Nat.lt_of_lt_of_eq inRoot.2 rootEnd)
  obtain ⟨_, fits⟩ := coverageOk_bounds h r hr
  obtain ⟨e, he, rfl⟩ := List.mem_map.1 hr
  exact ⟨e, he, hb, hb', rootFirst.symm ▸ Nat.zero_le _, Nat.le_trans fits (Nat.le_of_eq rootEnd.symm)⟩

/-- Settles O30: a covered node has its own value (`nodeBy_covered`, by induction on its level), and the check of coverage covers the
root; neither speaks of the order of the partials. -/
theorem combinerIsTheTree : Obligations.CombinerIsTheTree := by
  unfold Obligations.CombinerIsTheTree
  intro blocks es nonempty covered partials
  have nodes : ∀ e ∈ es, IsNode blocks.length e.1 e.2.1 := fun e he =>
    isNode_of_isNodeRange (partials e he).1 (coverageOk_bounds covered _ (List.mem_map_of_mem he)).2
  have inside : nodeFirst (clog2 blocks.length) 0 < blocks.length := by
    rw [nodeFirst, Nat.zero_mul]
    exact List.length_pos_iff.2 nonempty
  have root := nodeBy_covered nodes (fun e he => (partials e he).2) _ 0 inside (nodeCovered_root covered)
  have leaves : nodeBlocks blocks (clog2 blocks.length) 0 = blocks := by
    rw [nodeBlocks, nodeFirst, Nat.zero_mul, List.drop_zero, List.take_of_length_le (le_two_pow_clog2 _)]
  rw [combineElem, combineBy, root, leaves]
  rfl

end Sys2Proof.Proofs
